-- ==== Sys2Proof/Word.lean ====
section
/-! DEFINITION. The words of the TR-416 (bytes, 16-bit fields, 32-bit belt positions and times), the levels of a
pin, the numbers that name lanes, inputs, outputs, timers and reactions, and tables with a fixed number of rows. -/

namespace Sys2Proof

/-- One byte of the serial line (R176). -/
abbrev Byte := BitVec 8

/-- A 16-bit field: a tag, a width, a period, a set of inputs (R190). -/
abbrev Half := BitVec 16

/-- A 32-bit belt position or time (R123, R130). -/
abbrev Pos := BitVec 32

/-- L0 to L3. -/
abbrev LaneId := Fin 4

/-- IN0 to IN15. -/
abbrev InputId := Fin 16

/-- OUT0 to OUT15. -/
abbrev OutputId := Fin 16

/-- T0 to T3. -/
abbrev TimerId := Fin 4

/-- Reactions 0 to 11. -/
abbrev ReactionId := Fin 12

/-- The logic level of a pin. -/
inductive Level
  | low
  | high
  deriving DecidableEq, Repr

/-- The other level. -/
def Level.flip : Level → Level
  | .low => .high
  | .high => .low

/-- Row `i` of a table becomes `x`. -/
def tset {α : Type} {n : Nat} (v : Vector α n) (i : Fin n) (x : α) : Vector α n :=
  v.set i.val x i.isLt

/-- Every row of a table through `f`. -/
def tmap {α β : Type} {n : Nat} (f : α → β) (v : Vector α n) : Vector β n :=
  ⟨⟨v.toList.map f⟩, by simp⟩

/-- The lanes in order. -/
def allLanes : List LaneId := [0, 1, 2, 3]

/-- The timers in order. -/
def allTimers : List TimerId := [0, 1, 2, 3]

/-- The inputs in order. -/
def allInputs : List InputId := [0, 1, 2, 3, 4, 5, 6, 7, 8, 9, 10, 11, 12, 13, 14, 15]

/-- The outputs in order. -/
def allOutputs : List OutputId := [0, 1, 2, 3, 4, 5, 6, 7, 8, 9, 10, 11, 12, 13, 14, 15]

/-- The reactions in order. -/
def allReactions : List ReactionId := [0, 1, 2, 3, 4, 5, 6, 7, 8, 9, 10, 11]

end Sys2Proof
end

