-- ==== Sys2Proof/Syntax.lean ====
section
/-! DEFINITION. The commands of the TR-416: one constructor for each row of spec/opcode_table.json. A request carries
the SEQ of its frame and the fields of its payload at their width on the line, so that every value a host can send can
be written, those the part refuses included (12, section 12.3). -/

namespace Sys2Proof

/-- An encoder channel (R119). -/
inductive Channel
  | ea
  | eb
  deriving DecidableEq, Repr

/-- The level at the pin of a channel changes, and that many samples of CLKIN follow with the pins as they are (R119). -/
structure ChannelChange where
  channel : Channel
  samples : Nat
  deriving DecidableEq, Repr

/-- What takes a power-on reset (R193). -/
inductive ResetCause
  /-- VDD has come within its range with nRESET high. -/
  | powerUp
  /-- A low pulse on nRESET of so many ns. -/
  | lowPulse (ns : Nat)
  deriving DecidableEq, Repr

/-- One firing of a SET_DISPOSITION payload: 6 bytes (R192). -/
structure FiringField where
  station : Byte
  widthKind : Byte
  adjust : Half
  width : Half
  deriving DecidableEq, Repr

/-- The confirm spec of a SET_DISPOSITION payload: 10 bytes (R192). -/
structure ConfirmField where
  input : Byte
  expect : Byte
  openOffset : Pos
  closeOffset : Pos
  deriving DecidableEq, Repr

/-- One station of a SET_LANE payload: offset (0xFFFFFFFF absent) and output. -/
structure StationField where
  offset : Pos
  output : Byte
  deriving DecidableEq, Repr

/-- The SET_LANE payload after its lane byte: 37 bytes. -/
structure LaneFields where
  entryInput : Byte
  d : Pos
  x : Pos
  l : Pos
  station0 : StationField
  station1 : StationField
  station2 : StationField
  station3 : StationField
  default : Byte
  limit : Byte
  holdOutput : Byte
  holdMark : Byte
  deriving DecidableEq, Repr

/-- The SET_NOTICE payload: 15 bytes. -/
structure NoticeFields where
  subKinds : Byte
  inputs : Half
  timers : Byte
  confirm : Byte
  levelItem : Byte
  levelLane : Byte
  levelInput : Byte
  levelTimer : Byte
  levelReaction : Byte
  levelConfirm : Byte
  window : Byte
  timeout : Half
  retryLimit : Byte
  deriving DecidableEq, Repr

/-- The SET_REACTION payload after its reaction byte: 10 bytes. -/
structure ReactionFields where
  triggerKind : Byte
  triggerParam : Byte
  triggerResult : Byte
  actionKind : Byte
  actionParam : Byte
  actionWidth : Half
  mode : Byte
  chain : Half
  deriving DecidableEq, Repr

/-- The owner of a schedule entry: lane, tag, firing index (R51). -/
structure FiringOwner where
  lane : LaneId
  tag : Half
  firing : Fin 4
  deriving DecidableEq, Repr

/-- The commands. -/
inductive Instr
  -- resets
  | powerOnReset (cause : ResetCause) (baud1 baud0 : Level)
  | softReset
  -- requests of the Link Controller
  | getStatus (seq : Byte)
  | reset (seq : Byte)
  | getConfig (seq kind index : Byte)
  -- requests of the Notice Queue
  | ackNotice (seq number : Byte)
  | setNotice (seq : Byte) (settings : NoticeFields)
  -- requests of the Lane Controller
  | setLane (seq lane : Byte) (config : LaneFields)
  | getLane (seq lane : Byte)
  | arm (seq lane : Byte)
  | disarm (seq lane : Byte)
  | clear (seq lane : Byte)
  -- requests of the Verdict Unit and the Item Table
  | setDisposition (seq index : Byte) (firings : List FiringField) (confirm : Option ConfirmField)
  | verdict (seq lane : Byte) (tag : Half) (index : Byte)
  | getItem (seq lane : Byte) (tag : Half)
  | listItems (seq lane start : Byte)
  -- requests of the Output Driver and the Input Conditioner
  | setOutput (seq output role polarity lane : Byte)
  | forceOutput (seq output level : Byte) (pulse : Half)
  | setInput (seq input role active filter period stable edge : Byte)
  -- requests of the Position Unit
  | setEncoder (seq mode : Byte) (rl : Half) (ft : Byte)
  | setPosition (seq : Byte) (value : Pos)
  | getPosition (seq : Byte)
  -- requests of the Timer Unit and the Reaction Table
  | setTimer (seq timer : Byte) (period : Half) (mode : Byte)
  | startTimer (seq timer : Byte)
  | stopTimer (seq timer : Byte)
  | setReaction (seq reaction : Byte) (fields : ReactionFields)
  | enableReaction (seq : Byte) (enable disable : Half)
  | fireReaction (seq reaction : Byte)
  | unknownKind (kind seq : Byte) (payload : List Byte)
  -- the serial line
  | frameReceived (kind seq : Byte) (payload : List Byte) (crc : Half)
  | interByteGap
  | framingError
  | replyEnd
  | noticeFrameEnd
  | noticeSend
  | noticeAdmission
  -- the belt
  | forwardStep
  | reverseStep
  | illegalTransition
  -- time
  | msTick
  | offTime (owner : FiringOwner)
  | pulseEnd (output : OutputId)
  | timerExpiry (timer : TimerId)
  | ackTimeout
  -- inputs, bytes, channels and the time base
  | acceptedTransition (input : InputId)
  | runAbandoned (input : InputId)
  | byteReceived (byte : Byte)
  | firstSample (input : InputId) (raw : Level)
  | runSample (input : InputId)
  | channelLevelChange (channel : ChannelChange)
  | tsAdvance
  deriving DecidableEq, Repr

end Sys2Proof
end

