-- ==== Sys2Proof/Decode.lean ====
section
/-! DEFINITION. The commands that words spell. No row of spec/opcode_table.json gives bits, so no word spells a command:
commands come on the queue. The serial line's own encodings (R176, R190 to R192) are in Machine/Operands.lean. -/

namespace Sys2Proof

/-- The command that a word of `nbits` bits spells: none, since no row of the table gives bits. -/
def decodeTableWord (_nbits _w : Nat) : Option Instr :=
  none

end Sys2Proof
end

