-- ==== Sys2Proof/Config.lean ====
section
/-! DEFINITION. What the spec leaves open, as a free value that no proof can see, and the fixed numbers of the part. -/

namespace Sys2Proof

/-- FREE VALUE (log 2). The choice made at the `k`-th point at which the spec lets events of one moment be taken
"in either order" (R49, R61, R62, R73, R92, R117, R125, R131, R135, R155), and at which an nRESET pulse of 200 ns to 1 µs may or may not
reset the part (R193, log 15). -/
opaque Config.choice : Nat → Nat

/-- R119: a new level on a channel is accepted when three consecutive samples show it. -/
def Config.channelSamples : Nat := 3

/-- R1: the pool holds 192 item records. -/
def Config.poolSize : Nat := 192

/-- R51: the Firing Scheduler holds 64 schedule entries. -/
def Config.scheduleSize : Nat := 64

/-- R72: a hold set has at most 4 members. -/
def Config.holdSize : Nat := 4

/-- R161: the notice queue holds up to 32 entries. -/
def Config.queueSize : Nat := 32

/-- R165: a notice of the other classes takes a slot only below 24 entries. -/
def Config.otherLimit : Nat := 24

/-- R179: the request queue holds up to two frames. -/
def Config.requestSize : Nat := 2

/-- R185: the part revision code. -/
def Config.revision : Byte := 1

/-- How many events of one moment one command takes (log 3). One moment never has as many: with at most 192 records,
64 schedule entries and 192 windows there are at most 2 × 192 decisions and exits, 4 jams, 64 schedule positions,
384 window positions, 192 outcomes and 4 lane faults. -/
def Config.momentBound : Nat := 4096

/-- How many events the end of a µs takes: three samples of the channels at most (R119), one tick and the sixteen inputs,
each once. -/
def Config.leftoverBound : Nat := 20

end Sys2Proof
end

