-- ==== Sys2Proof/Machine/State.lean ====
section
/-! DEFINITION. The state of the TR-416, block by block as 00_scope.md lists the blocks, its reasons to stop, and the
state right after power-on reset. Fields that are the model's own, not the spec's, say so and name their log entry. -/

namespace Sys2Proof.Machine

/-! ### Items (01) -/

/-- The states of an item (R5, R15, R17, R20). -/
inductive ItemState
  | opened
  | committed
  | passed
  | done
  deriving DecidableEq, Repr

/-- Where a verdict or a committed disposition comes from (R36, R42, R43). -/
inductive VerdictSource
  | host
  | advance
  | default
  deriving DecidableEq, Repr

/-- The width kinds of a firing (R29). -/
inductive WidthKind
  | time
  | counts
  deriving DecidableEq, Repr

/-- The expectation of a confirm spec (R29). -/
inductive Expect
  | present
  | absent
  deriving DecidableEq, Repr

/-- The result of a firing (R66). -/
inductive FiringResult
  | pending
  | done
  | suppressed
  | conflict
  | cut
  | cancelled
  deriving DecidableEq, Repr

/-- The result of a confirmation check (R91); NONE is the absence of a committed confirm spec. -/
inductive ConfirmResult
  | waiting
  | confirmed
  | missed
  | leak
  | cancelled
  deriving DecidableEq, Repr

/-- The summary results in the order of their codes (R20, R190). -/
inductive Summary
  | ok
  | suppressed
  | cut
  | conflict
  | missed
  | leak
  | skipped
  | abandoned
  deriving DecidableEq, Repr

/-- A notice flag of an item record (R7). -/
inductive NoticeFlag
  | notDue
  | pending
  | queued
  | sent
  | acknowledged
  deriving DecidableEq, Repr

/-- A stored verdict: HOST or ADVANCE with an index (R36, R42). -/
structure StoredVerdict where
  index : Fin 16
  source : VerdictSource
  deriving DecidableEq, Repr

/-- A committed firing with its result (R45). -/
structure CommittedFiring where
  station : Fin 4
  fireOffset : Pos
  widthKind : WidthKind
  width : Half
  result : FiringResult
  deriving DecidableEq, Repr

/-- A committed confirm spec with its result (R45). -/
structure CommittedConfirm where
  input : InputId
  openOffset : Pos
  closeOffset : Pos
  expect : Expect
  result : ConfirmResult
  deriving DecidableEq, Repr

/-- The committed disposition of a record (R45). -/
structure Committed where
  source : VerdictSource
  index : Fin 16
  substituted : Bool
  firings : List CommittedFiring
  confirm : Option CommittedConfirm
  deriving DecidableEq, Repr

/-- An item record (R5, section 1.2). `rid` is the model's own serial number of the record, by which the other blocks
and the notice entries name it (log 16). -/
structure Item where
  rid : Nat
  lane : LaneId
  tag : Half
  state : ItemState
  entryPos : Pos
  entryTime : Pos
  covering : Bool
  length : Option Pos
  overlength : Bool
  stored : Option StoredVerdict
  amend : Nat
  committed : Option Committed
  skipped : Bool
  result : Option Summary
  entryFlag : NoticeFlag
  commitFlag : NoticeFlag
  outcomeFlag : NoticeFlag
  deriving DecidableEq, Repr

/-- The Item Table: four item queues, oldest first (R2), and the retired list in its two parts (R3). The records in
use are those in the lists; the free ones are the rest of the pool of 192 (R1). `nextRid` is the model's own. -/
structure Items where
  queues : Vector (List Item) 4
  done : List Item
  passed : List Item
  nextRid : Nat
  deriving DecidableEq, Repr

/-! ### Verdicts and dispositions (02) -/

/-- A firing of a disposition (R29). -/
structure Firing where
  station : Fin 4
  adjust : Half
  widthKind : WidthKind
  width : Half
  deriving DecidableEq, Repr

/-- A confirm spec of a disposition (R29). -/
structure ConfirmSpec where
  input : InputId
  openOffset : Pos
  closeOffset : Pos
  expect : Expect
  deriving DecidableEq, Repr

/-- A disposition (R29). -/
structure Disposition where
  firings : List Firing
  confirm : Option ConfirmSpec
  deriving DecidableEq, Repr

/-- An entry of an Advance Verdict list (R41). -/
structure AdvanceEntry where
  tag : Half
  index : Fin 16
  deriving DecidableEq, Repr

/-- The Verdict Unit: the Disposition Table and the Advance Verdict lists in tag order (R29, R41). -/
structure Verdicts where
  dispositions : Vector Disposition 16
  advance : Vector (List AdvanceEntry) 4
  deriving DecidableEq, Repr

/-! ### The firing schedule (03) -/

/-- The phase of a schedule entry with what it sets (section 3.1): the OFF position of a COUNTS entry and the OFF time
of a TIME entry are taken when the entry goes ON (R58). -/
inductive Phase
  | waiting
  | onCounts (offPos : Pos)
  | onTime (offTime : Pos)
  deriving DecidableEq, Repr

/-- A schedule entry (R51, R52). `rid` links it to its record and `serial` is its place in creation order (R53), both
the model's own (log 16). -/
structure ScheduleEntry where
  serial : Nat
  rid : Nat
  owner : FiringOwner
  output : OutputId
  widthKind : WidthKind
  width : Half
  phase : Phase
  onPos : Pos
  deriving DecidableEq, Repr

/-- The Firing Scheduler: the position list and the time list (R53, R54). An entry stands in one of them as long as it
is in use; the others of the 64 are free (R51). -/
structure Schedule where
  positionList : List ScheduleEntry
  timeList : List ScheduleEntry
  nextSerial : Nat
  deriving DecidableEq, Repr

/-! ### Outputs (04) -/

/-- The roles of an output (R70). -/
inductive OutputRole
  | unused
  | actuator
  | general
  | hold
  deriving DecidableEq, Repr

/-- The polarity of an output (R70). -/
inductive Polarity
  | activeHigh
  | activeLow
  deriving DecidableEq, Repr

/-- A holder of an ACTUATOR output: a firing or the test hold (R72). -/
inductive Holder
  | firing (owner : FiringOwner)
  | test
  deriving DecidableEq, Repr

/-- One output: its configuration and its role state (R70 to R78). `lane` is the lane byte as sent (log 17). `pulse`
is the end time of a running pulse (R78). -/
structure Output where
  role : OutputRole
  polarity : Polarity
  lane : Byte
  holders : List Holder
  latch : Bool
  pulse : Option Pos
  deriving DecidableEq, Repr

/-! ### Confirmation windows (05) -/

/-- The phases of a window (R84). -/
inductive WindowPhase
  | pending
  | opened
  | holding
  deriving DecidableEq, Repr

/-- A window (section 5.1); `rid` links it to its record (log 16). -/
structure Window where
  rid : Nat
  lane : LaneId
  tag : Half
  openPos : Pos
  closePos : Pos
  expect : Expect
  phase : WindowPhase
  deriving DecidableEq, Repr

/-! ### Lanes (06) -/

/-- The lane states (R101). -/
inductive LaneState
  | off
  | run
  | drain
  | fault
  deriving DecidableEq, Repr

/-- The fault causes (R109). -/
inductive Cause
  | overrun
  | jam
  | reverse
  | encoder
  | reaction
  deriving DecidableEq, Repr

/-- A set of fault causes. -/
structure CauseSet where
  overrun : Bool
  jam : Bool
  reverse : Bool
  encoder : Bool
  reaction : Bool
  deriving DecidableEq, Repr

/-- A station of a lane (R98). -/
structure Station where
  offset : Nat
  output : OutputId
  deriving DecidableEq, Repr

/-- The configuration of a lane (R98); offset 0 is unset. -/
structure LaneConfig where
  entryInput : Option InputId
  d : Nat
  x : Nat
  l : Nat
  stations : Vector (Option Station) 4
  default : Fin 16
  limit : Nat
  holdOutput : Option OutputId
  holdMark : Nat
  deriving DecidableEq, Repr

/-- The mark of a lane that a cause has taken to FAULT at what may be the present moment, the model's own (R112, R117,
log 32): whether a leading edge would have overrun as the lane stood then, and whether that was at a transition of the
channels or before one, so that a later transition falls at another moment. -/
structure Struck where
  full : Bool
  stepped : Bool
  deriving DecidableEq, Repr

/-- A lane record: configuration and state (R98 to R115). The hold condition (R114) is computed from these. `struck` is
the model's own mark (log 32). -/
structure Lane where
  config : LaneConfig
  state : LaneState
  causes : CauseSet
  first : Option Cause
  blanked : Bool
  untracked : Nat
  nextTag : Half
  noticeFlag : Bool
  struck : Option Struck
  deriving DecidableEq, Repr

/-! ### Belt position and time (07) -/

/-- The direction of the last step (R123). -/
inductive Direction
  | none
  | forward
  | reverse
  deriving DecidableEq, Repr

/-- The encoder modes (R120, R121). -/
inductive EncoderMode
  | quad4
  | quad1
  | step
  | count
  deriving DecidableEq, Repr

/-- The Position Unit. `ea` and `eb` are the filtered levels, which are the decoder's reference, and `eaRun` and `ebRun`
count the consecutive samples, 0 to 2, that have shown another level (R119). `eaPin` and `ebPin` are the ENVIRONMENT's:
the levels at the pins EA and EB as last shown to the part (log 8). `tickDue` and `timersTaken` are the model's own: the
sub-millisecond count has rolled over and the tick has not been taken yet, and the Timer Unit has taken it ahead of
MS_TICK (log 12). -/
structure Position where
  bp : Pos
  hw : Pos
  direction : Direction
  mode : EncoderMode
  rl : Half
  ft : Byte
  encoderFault : Bool
  ea : Level
  eb : Level
  eaRun : Nat
  ebRun : Nat
  eaPin : Level
  ebPin : Level
  ts : Pos
  subMs : Nat
  tickDue : Bool
  timersTaken : Bool
  deriving DecidableEq, Repr

/-! ### Inputs (08) -/

/-- The roles of an input (R133). -/
inductive InputRole
  | unused
  | entry
  | confirm
  | inhibit
  | general
  deriving DecidableEq, Repr

/-- The edge select of an input (R133). -/
inductive EdgeSelect
  | activate
  | deactivate
  | both
  deriving DecidableEq, Repr

/-- An edge of an input (R134). -/
inductive Edge
  | activation
  | deactivation
  deriving DecidableEq, Repr

/-- What the first sample of a run reads (R125, R134), with the FT that stands then: a new FT is applied to captures
from its SET_ENCODER on (R127). -/
structure Capture where
  bp : Pos
  rd : Pos
  ts : Pos
  ft : Byte
  deriving DecidableEq, Repr

/-- A run in progress (R134). -/
structure Run where
  candidate : Level
  count : Nat
  capture : Capture
  deriving DecidableEq, Repr

/-- The model's own: what has become of the comparison or sample of an input at the present advance of TS (R135, R136,
log 11). -/
inductive SampleMark
  /-- It has not been taken yet. -/
  | due
  /-- It has been taken. -/
  | taken
  /-- A SET_INPUT has taken the raw level of this moment (R143, R144). -/
  | requested
  deriving DecidableEq, Repr

/-- One input (R133, R134). `awaiting` is the model's own: no comparison has been made since the last reset, so the
next one takes the raw level without a transition (R133, log 10); so is `mark` (log 11). -/
structure Input where
  role : InputRole
  active : Level
  filterOn : Bool
  period : Fin 8
  stable : Nat
  edge : EdgeSelect
  accepted : Level
  awaiting : Bool
  mark : SampleMark
  run : Option Run
  deriving DecidableEq, Repr

/-! ### Timers and reactions (09) -/

/-- The timer modes (R145). -/
inductive TimerMode
  | oneShot
  | periodic
  deriving DecidableEq, Repr

/-- An interval timer (R145). -/
structure Timer where
  period : Nat
  mode : TimerMode
  running : Bool
  remaining : Nat
  deriving DecidableEq, Repr

/-- The triggers of a reaction (R151); `outcome none r` is lane ANY. -/
inductive Trigger
  | none
  | input (i : InputId)
  | timer (t : TimerId)
  | outcome (lane : Option LaneId) (result : Summary)
  | laneFault (lane : LaneId)
  | requestOnly
  deriving DecidableEq, Repr

/-- The actions of a reaction (R151). -/
inductive Action
  | none
  | outSet (output : OutputId)
  | outClear (output : OutputId)
  | outPulse (output : OutputId) (ms : Half)
  | timerStart (timer : TimerId)
  | timerStop (timer : TimerId)
  | laneHold (lane : LaneId)
  | capture
  | notify
  deriving DecidableEq, Repr

/-- The modes of a reaction (R151). -/
inductive ReactionMode
  | repeating
  | once
  deriving DecidableEq, Repr

/-- A reaction (R151). -/
structure Reaction where
  trigger : Trigger
  action : Action
  mode : ReactionMode
  chain : BitVec 12
  enabled : Bool
  deriving DecidableEq, Repr

/-- A trigger event (R152). -/
inductive TriggerEvent
  | input (i : InputId) (edge : Edge)
  | timer (t : TimerId)
  | outcome (lane : LaneId) (result : Summary)
  | laneFault (lane : LaneId)
  deriving DecidableEq, Repr

/-! ### Notices (10) -/

/-- The notice classes (R160). -/
inductive NoticeClass
  | item
  | lane
  | input
  | timer
  | reaction
  | confirm
  deriving DecidableEq, Repr

/-- The notice kinds (R160, R191). -/
inductive NoticeKind
  | entry
  | commit
  | outcome
  | lane
  | input
  | timer
  | reaction
  | stray
  deriving DecidableEq, Repr

/-- The sub-kinds of the ITEM class (R160). -/
inductive SubKind
  | entry
  | commit
  | outcome
  deriving DecidableEq, Repr

/-- The settings of SET_NOTICE (R160, R173); the levels are those of R160's table. -/
structure NoticeSettings where
  entryOn : Bool
  commitOn : Bool
  outcomeOn : Bool
  inputsOn : Half
  timersOn : BitVec 4
  confirmOn : Bool
  levelItem : Fin 4
  levelLane : Fin 4
  levelInput : Fin 4
  levelTimer : Fin 4
  levelReaction : Fin 4
  levelConfirm : Fin 4
  window : Nat
  timeout : Nat
  retryLimit : Nat
  deriving DecidableEq, Repr

/-- What a queue entry is linked to (section 10.2). -/
inductive NoticeLink
  | none
  | item (rid : Nat)
  | lane (lane : LaneId)
  deriving DecidableEq, Repr

/-- A queue entry. A LANE entry has no contents until its first transmission (R164); an entry has a number from its
first transmission on (R167). -/
structure NoticeEntry where
  kind : NoticeKind
  contents : Option (List Byte)
  link : NoticeLink
  number : Option Byte
  resend : Bool
  deriving DecidableEq, Repr

/-- A reference of the pending list (R162). -/
inductive NoticeRef
  | item (rid : Nat) (sub : SubKind)
  | lane (lane : LaneId)
  deriving DecidableEq, Repr

/-- The missed counts (R165). -/
structure Missed where
  input : Nat
  timer : Nat
  reaction : Nat
  confirm : Nat
  deriving DecidableEq, Repr

/-- The Notice Queue. `sent` is in the order of first transmission. `unsent` is in the order in which the entries
entered the queue, from which the order by level of R161 is read. `ackTimer` is the remaining count of a running
acknowledgement timer (R168). `ackEarly` is the model's own (log 12). -/
structure Notices where
  settings : NoticeSettings
  sent : List NoticeEntry
  unsent : List NoticeEntry
  refs : List NoticeRef
  missed : Missed
  nextNumber : Byte
  ackTimer : Option Nat
  ackEarly : Bool
  retry : Nat
  stalled : Bool
  deriving DecidableEq, Repr

/-! ### The host link (11) -/

/-- A frame without its START, LEN and CRC bytes, which follow from it (R176). -/
structure Frame where
  kind : Byte
  seq : Byte
  payload : List Byte
  deriving DecidableEq, Repr

/-- The receiver (R177); ASSEMBLING holds the bytes after START. -/
inductive Receiver
  | hunting
  | assembling (bytes : List Byte)
  deriving DecidableEq, Repr

/-- The transmitter (R184). -/
inductive Transmitter
  | idle
  | reply (frame : Frame)
  | notice (frame : Frame)
  deriving DecidableEq, Repr

/-- The reply slot's contents (R180). `begun`: its transmission has begun. `resets`: it is the reply of an executed
RESET, at whose end the soft reset is taken (R187). -/
structure ReplySlot where
  frame : Frame
  begun : Bool
  resets : Bool
  deriving DecidableEq, Repr

/-- The last-request record with its last-reply store (R181). -/
structure LastRequest where
  kind : Byte
  seq : Byte
  reply : Frame
  deriving DecidableEq, Repr

/-- The baud rates (R175). -/
inductive Baud
  | b115200
  | b460800
  | b921600
  | b1000000
  deriving DecidableEq, Repr

/-- The Link Controller. -/
structure Link where
  baud : Baud
  receiver : Receiver
  requests : List Frame
  slot : Option ReplySlot
  last : Option LastRequest
  transmitter : Transmitter
  badFrames : Nat
  overruns : Nat
  deriving DecidableEq, Repr

/-! ### Events of one moment -/

/-- The events inside one command (95_what_each_step_holds.md): those that one step, tick, INHIBIT change or encoder
event hands to several blocks, and the trigger events they give. The model's own way to hold "taken one after the
other, in either order" (log 2, log 3). -/
inductive Event
  | decision (lane : LaneId) (rid : Nat)
  | jam (lane : LaneId) (rid : Nat)
  | exitPoint (lane : LaneId) (rid : Nat)
  | schedulePoint (serial : Nat)
  | windowOpen (input : InputId) (rid : Nat)
  | windowClose (input : InputId) (rid : Nat)
  | offTime (serial : Nat)
  | pulseEnd (output : OutputId)
  | timersTick
  | expired (timer : TimerId)
  | ackTick
  | cut (serial : Nat)
  | inhibitOutputs
  | offer (lane : LaneId) (cause : Cause)
  | trigger (event : TriggerEvent)
  deriving DecidableEq, Repr

/-! ### The whole part -/

/-- The state of the part, the commands that wait for it, and the levels at its input pins. -/
structure State where
  items : Items
  verdicts : Verdicts
  schedule : Schedule
  outputs : Vector Output 16
  windows : Vector (List Window) 16
  lanes : Vector Lane 4
  position : Position
  inputs : Vector Input 16
  timers : Vector Timer 4
  reactions : Vector Reaction 12
  notices : Notices
  link : Link
  /-- ENVIRONMENT. The raw level at IN0 to IN15 as last shown to the part (log 9). -/
  pins : Vector Level 16
  /-- MODEL'S OWN. How many free values have been used (log 2). -/
  choices : Nat
  /-- MODEL'S OWN. The events of the present moment not yet taken, as chains whose order is given (log 3). -/
  agenda : List (List Event)
  /-- The commands that wait, first in, first out. -/
  pending : List Instr
  deriving DecidableEq, Repr

/-- Why a step can stop with a fault. There is no such reason: the spec gives every command an effect in every state
(safe: nothing is left out by it). -/
inductive Fault
  deriving DecidableEq, Repr

/-- Why a step can be refused. -/
inductive Refusal
  /-- Raised by `exec` for a command that has no meaning yet; safe. No arm of `exec` raises it. -/
  | notModelled (mnemonic : String)
  deriving DecidableEq, Repr

/-! ### Reset values -/

/-- R25: all records free, every list empty. -/
def Items.reset : Items :=
  { queues := Vector.replicate 4 [], done := [], passed := [], nextRid := 0 }

/-- R29, R41. -/
def Verdicts.reset : Verdicts :=
  { dispositions := Vector.replicate 16 { firings := [], confirm := none }
    advance := Vector.replicate 4 [] }

/-- R51: all 64 entries free, both lists empty. -/
def Schedule.reset : Schedule :=
  { positionList := [], timeList := [], nextSerial := 0 }

/-- R70; the lane byte is a DESIGN CHOICE (log 17). -/
def Output.reset : Output :=
  { role := .unused, polarity := .activeHigh, lane := 0, holders := [], latch := false, pulse := none }

/-- R98, R118. -/
def LaneConfig.reset : LaneConfig :=
  { entryInput := none, d := 0, x := 0, l := 0, stations := Vector.replicate 4 none, default := 0,
    limit := 48, holdOutput := none, holdMark := 0 }

/-- No fault cause. -/
def CauseSet.empty : CauseSet :=
  { overrun := false, jam := false, reverse := false, encoder := false, reaction := false }

/-- R118. -/
def Lane.reset : Lane :=
  { config := .reset, state := .off, causes := .empty, first := none, blanked := false, untracked := 0,
    nextTag := 0, noticeFlag := false, struck := none }

/-- R119, R132; the levels at the pins EA and EB are a DESIGN CHOICE here, and stay as they are in the resets (log 8). -/
def Position.reset : Position :=
  { bp := 0, hw := 0, direction := .none, mode := .quad4, rl := 256, ft := 4, encoderFault := false,
    ea := .low, eb := .low, eaRun := 0, ebRun := 0, eaPin := .low, ebPin := .low, ts := 0, subMs := 0, tickDue := false,
    timersTaken := false }

/-- R133; the accepted level before the first comparison is a DESIGN CHOICE (log 10). -/
def Input.reset : Input :=
  { role := .unused, active := .high, filterOn := false, period := 0, stable := 4, edge := .activate,
    accepted := .low, awaiting := true, mark := .due, run := none }

/-- R145. -/
def Timer.reset : Timer :=
  { period := 1000, mode := .oneShot, running := false, remaining := 0 }

/-- R151. -/
def Reaction.reset : Reaction :=
  { trigger := .none, action := .none, mode := .repeating, chain := 0, enabled := false }

/-- R160: the settings after power-on reset. -/
def NoticeSettings.reset : NoticeSettings :=
  { entryOn := true, commitOn := true, outcomeOn := true, inputsOn := 0, timersOn := 0, confirmOn := true,
    levelItem := 2, levelLane := 3, levelInput := 1, levelTimer := 1, levelReaction := 1, levelConfirm := 1,
    window := 4, timeout := 100, retryLimit := 5 }

/-- R161 to R171: the Notice Queue after power-on reset. -/
def Notices.reset : Notices :=
  { settings := .reset, sent := [], unsent := [], refs := [],
    missed := { input := 0, timer := 0, reaction := 0, confirm := 0 },
    nextNumber := 0, ackTimer := none, ackEarly := false, retry := 0, stalled := false }

/-- R188; the baud rate is the straps', here both low, a DESIGN CHOICE (log 21). -/
def Link.reset : Link :=
  { baud := .b115200, receiver := .hunting, requests := [], slot := none, last := none, transmitter := .idle,
    badFrames := 0, overruns := 0 }

/-- The part right after power-on reset (R25, R29, R41, R51, R70, R83, R118, R132, R133, R145, R151, R160, R188). -/
def State.reset : State :=
  { items := .reset
    verdicts := .reset
    schedule := .reset
    outputs := Vector.replicate 16 .reset
    windows := Vector.replicate 16 []
    lanes := Vector.replicate 4 .reset
    position := .reset
    inputs := Vector.replicate 16 .reset
    timers := Vector.replicate 4 .reset
    reactions := Vector.replicate 12 .reset
    notices := .reset
    link := .reset
    pins := Vector.replicate 16 .low
    choices := 0
    agenda := []
    pending := [] }

end Sys2Proof.Machine
end

