-- ==== Sys2Proof/Machine/Operands.lean ====
section
/-! DEFINITION. The line's encodings (R176, R190 to R192, section 12.3): byte order, codes, sets and flag bytes, the
CRC, the payload of each request, and the contents that notices and replies share. -/

namespace Sys2Proof.Machine

/-! ### Multi-byte fields (R190: little-endian) -/

/-- A 16-bit field, low byte first. -/
def halfBytes (h : Half) : List Byte :=
  [h.extractLsb' 0 8, h.extractLsb' 8 8]

/-- A 32-bit field, low byte first. -/
def wordBytes (w : Pos) : List Byte :=
  [w.extractLsb' 0 8, w.extractLsb' 8 8, w.extractLsb' 16 8, w.extractLsb' 24 8]

/-- Byte `i` of a payload. -/
def byteAt (p : List Byte) (i : Nat) : Byte :=
  p.getD i 0

/-- The 16-bit field at byte `i`. -/
def halfAt (p : List Byte) (i : Nat) : Half :=
  byteAt p (i + 1) ++ byteAt p i

/-- The 32-bit field at byte `i`. -/
def wordAt (p : List Byte) (i : Nat) : Pos :=
  byteAt p (i + 3) ++ (byteAt p (i + 2) ++ (byteAt p (i + 1) ++ byteAt p i))

/-- A number as one byte. -/
def natByte (n : Nat) : Byte :=
  BitVec.ofNat 8 n

/-- A number as two bytes. -/
def natHalf (n : Nat) : List Byte :=
  halfBytes (BitVec.ofNat 16 n)

/-- A flag byte: the flags from bit 0 up (R190). -/
def flagByte : List Bool → Byte
  | [] => 0
  | b :: bs => (flagByte bs <<< 1) ||| (if b then 1 else 0)

/-- A byte that names one of `n` things, or none when it lies outside the range. -/
def finOf (n : Nat) (b : Byte) : Option (Fin n) :=
  if h : b.toNat < n then some ⟨b.toNat, h⟩ else none

/-- R190: an absent one-byte field. -/
def absentByte : Byte := 0xFF

/-- R190: an absent four-byte field. -/
def absentWord : Pos := 0xFFFFFFFF

/-! ### The frame (R176) -/

/-- One bit of the CRC register of polynomial 0x1021. -/
def crcBit (c : Half) (bit : Bool) : Half :=
  if c.msb != bit then (c <<< 1) ^^^ 0x1021 else c <<< 1

/-- One byte of the CRC, most significant bit first. -/
def crcByte (c : Half) (b : Byte) : Half :=
  [7, 6, 5, 4, 3, 2, 1, 0].foldl (fun c i => crcBit c (b.getLsbD i)) c

/-- The CRC over bytes in the order they are sent: initial value 0xFFFF, no reflection, no final XOR. -/
def crc16 (bs : List Byte) : Half :=
  bs.foldl crcByte 0xFFFF

/-- LEN, KIND, SEQ and the payload: what the CRC is taken over. -/
def Frame.covered (f : Frame) : List Byte :=
  natByte (f.payload.length + 2) :: f.kind :: f.seq :: f.payload

/-- The whole frame on the line: START, the covered bytes, the CRC high byte first. -/
def Frame.bytes (f : Frame) : List Byte :=
  let crc := crc16 f.covered
  0xD5 :: f.covered ++ [crc.extractLsb' 8 8, crc.extractLsb' 0 8]

/-! ### Codes (R190) -/

/-- Lane state. -/
def LaneState.code : LaneState → Byte
  | .off => 0
  | .run => 1
  | .drain => 2
  | .fault => 3

/-- Item state. -/
def ItemState.code : ItemState → Byte
  | .opened => 0
  | .committed => 1
  | .passed => 2
  | .done => 3

/-- Summary result. -/
def Summary.code : Summary → Byte
  | .ok => 0
  | .suppressed => 1
  | .cut => 2
  | .conflict => 3
  | .missed => 4
  | .leak => 5
  | .skipped => 6
  | .abandoned => 7

/-- Firing result. -/
def FiringResult.code : FiringResult → Byte
  | .pending => 0
  | .done => 1
  | .suppressed => 2
  | .conflict => 3
  | .cut => 4
  | .cancelled => 5

/-- Confirm result, NONE included. -/
def confirmResultCode : Option ConfirmResult → Byte
  | none => 0
  | some .waiting => 1
  | some .confirmed => 2
  | some .missed => 3
  | some .leak => 4
  | some .cancelled => 5

/-- Verdict source. -/
def VerdictSource.code : VerdictSource → Byte
  | .host => 0
  | .advance => 1
  | .default => 2

/-- Width kind. -/
def WidthKind.code : WidthKind → Byte
  | .time => 0
  | .counts => 1

/-- Expectation. -/
def Expect.code : Expect → Byte
  | .present => 0
  | .absent => 1

/-- Notice flag. -/
def NoticeFlag.code : NoticeFlag → Byte
  | .notDue => 0
  | .pending => 1
  | .queued => 2
  | .sent => 3
  | .acknowledged => 4

/-- Edge. -/
def Edge.code : Edge → Byte
  | .activation => 0
  | .deactivation => 1

/-- Output role. -/
def OutputRole.code : OutputRole → Byte
  | .unused => 0
  | .actuator => 1
  | .general => 2
  | .hold => 3

/-- Polarity. -/
def Polarity.code : Polarity → Byte
  | .activeHigh => 0
  | .activeLow => 1

/-- Input role. -/
def InputRole.code : InputRole → Byte
  | .unused => 0
  | .entry => 1
  | .confirm => 2
  | .inhibit => 3
  | .general => 4

/-- Level. -/
def levelCode : Level → Byte
  | .low => 0
  | .high => 1

/-- A flag in a byte of its own. -/
def boolCode (b : Bool) : Byte :=
  if b then 1 else 0

/-- Edge select. -/
def EdgeSelect.code : EdgeSelect → Byte
  | .activate => 0
  | .deactivate => 1
  | .both => 2

/-- Encoder mode. -/
def EncoderMode.code : EncoderMode → Byte
  | .quad4 => 0
  | .quad1 => 1
  | .step => 2
  | .count => 3

/-- Direction. -/
def Direction.code : Direction → Byte
  | .none => 0
  | .forward => 1
  | .reverse => 2

/-- Timer mode. -/
def TimerMode.code : TimerMode → Byte
  | .oneShot => 0
  | .periodic => 1

/-- Reaction mode. -/
def ReactionMode.code : ReactionMode → Byte
  | .repeating => 0
  | .once => 1

/-- First cause: the number of its bit, 0xFF for none. -/
def firstCauseCode : Option Cause → Byte
  | none => absentByte
  | some .overrun => 0
  | some .jam => 1
  | some .reverse => 2
  | some .encoder => 3
  | some .reaction => 4

/-- A set of causes as a flag byte. -/
def CauseSet.code (c : CauseSet) : Byte :=
  flagByte [c.overrun, c.jam, c.reverse, c.encoder, c.reaction]

/-- The kinds of notices (R191). -/
def NoticeKind.code : NoticeKind → Byte
  | .entry => 0x80
  | .commit => 0x81
  | .outcome => 0x82
  | .lane => 0x83
  | .input => 0x84
  | .timer => 0x85
  | .reaction => 0x86
  | .stray => 0x87

/-! ### Received codes: none where the byte holds no code of the field (R190) -/

/-- Width kind. -/
def widthKindOf (b : Byte) : Option WidthKind :=
  if b = 0 then some .time else if b = 1 then some .counts else none

/-- Expectation. -/
def expectOf (b : Byte) : Option Expect :=
  if b = 0 then some .present else if b = 1 then some .absent else none

/-- Output role. -/
def outputRoleOf (b : Byte) : Option OutputRole :=
  if b = 0 then some .unused else if b = 1 then some .actuator
  else if b = 2 then some .general else if b = 3 then some .hold else none

/-- Polarity. -/
def polarityOf (b : Byte) : Option Polarity :=
  if b = 0 then some .activeHigh else if b = 1 then some .activeLow else none

/-- Input role. -/
def inputRoleOf (b : Byte) : Option InputRole :=
  if b = 0 then some .unused else if b = 1 then some .entry else if b = 2 then some .confirm
  else if b = 3 then some .inhibit else if b = 4 then some .general else none

/-- Level: LOW or HIGH; also INACTIVE or ACTIVE of FORCE_OUTPUT, OFF or ON of a filter. -/
def levelOf (b : Byte) : Option Level :=
  if b = 0 then some .low else if b = 1 then some .high else none

/-- Edge select. -/
def edgeSelectOf (b : Byte) : Option EdgeSelect :=
  if b = 0 then some .activate else if b = 1 then some .deactivate else if b = 2 then some .both else none

/-- Encoder mode. -/
def encoderModeOf (b : Byte) : Option EncoderMode :=
  if b = 0 then some .quad4 else if b = 1 then some .quad1
  else if b = 2 then some .step else if b = 3 then some .count else none

/-- Timer mode. -/
def timerModeOf (b : Byte) : Option TimerMode :=
  if b = 0 then some .oneShot else if b = 1 then some .periodic else none

/-- Reaction mode. -/
def reactionModeOf (b : Byte) : Option ReactionMode :=
  if b = 0 then some .repeating else if b = 1 then some .once else none

/-- Summary result. -/
def summaryOf (b : Byte) : Option Summary :=
  if b = 0 then some .ok else if b = 1 then some .suppressed else if b = 2 then some .cut
  else if b = 3 then some .conflict else if b = 4 then some .missed else if b = 5 then some .leak
  else if b = 6 then some .skipped else if b = 7 then some .abandoned else none

/-- The lane of an OUTCOME trigger: 0xFF is ANY (section 12.3). -/
def anyLaneOf (b : Byte) : Option (Option LaneId) :=
  if b = absentByte then some none else (finOf 4 b).map some

/-- The trigger of a SET_REACTION payload; a parameter its kind does not use is ignored (R151, section 12.3). -/
def triggerOf (kind param result : Byte) : Option Trigger :=
  if kind = 0 then some .none
  else if kind = 1 then (finOf 16 param).map .input
  else if kind = 2 then (finOf 4 param).map .timer
  else if kind = 3 then
    match anyLaneOf param, summaryOf result with
    | some lane, some r => some (.outcome lane r)
    | _, _ => none
  else if kind = 4 then (finOf 4 param).map .laneFault
  else if kind = 5 then some .requestOnly
  else none

/-- The action of a SET_REACTION payload (R151, section 12.3). -/
def actionOf (kind param : Byte) (width : Half) : Option Action :=
  if kind = 0 then some .none
  else if kind = 1 then (finOf 16 param).map .outSet
  else if kind = 2 then (finOf 16 param).map .outClear
  else if kind = 3 then
    match finOf 16 param with
    | some n => if width = 0 then none else some (.outPulse n width)
    | none => none
  else if kind = 4 then (finOf 4 param).map .timerStart
  else if kind = 5 then (finOf 4 param).map .timerStop
  else if kind = 6 then (finOf 4 param).map .laneHold
  else if kind = 7 then some .capture
  else if kind = 8 then some .notify
  else none

/-- The trigger's three bytes; unused parameters are sent as 0 (section 12.3). -/
def Trigger.bytes : Trigger → List Byte
  | .none => [0, 0, 0]
  | .input i => [1, natByte i, 0]
  | .timer t => [2, natByte t, 0]
  | .outcome (Option.none) r => [3, absentByte, r.code]
  | .outcome (Option.some l) r => [3, natByte l, r.code]
  | .laneFault l => [4, natByte l, 0]
  | .requestOnly => [5, 0, 0]

/-- The action's four bytes; unused parameters are sent as 0 (section 12.3). -/
def Action.bytes : Action → List Byte
  | .none => [0, 0, 0, 0]
  | .outSet n => [1, natByte n, 0, 0]
  | .outClear n => [2, natByte n, 0, 0]
  | .outPulse n ms => 3 :: natByte n :: halfBytes ms
  | .timerStart t => [4, natByte t, 0, 0]
  | .timerStop t => [5, natByte t, 0, 0]
  | .laneHold l => [6, natByte l, 0, 0]
  | .capture => [7, 0, 0, 0]
  | .notify => [8, 0, 0, 0]

/-- A set of reactions as a 16-bit field (R190). -/
def reactionSetBytes (m : BitVec 12) : List Byte :=
  halfBytes (m.setWidth 16)

/-- A received set of reactions, none where it names a reaction above 11 (R156, R157). -/
def reactionSetOf (h : Half) : Option (BitVec 12) :=
  if h.toNat < 4096 then some (h.setWidth 12) else none

/-! ### Request payloads (R191, R192, section 12.3) -/

/-- A firing's six bytes. -/
def FiringField.bytes (f : FiringField) : List Byte :=
  f.station :: f.widthKind :: (halfBytes f.adjust ++ halfBytes f.width)

/-- A confirm spec's ten bytes. -/
def ConfirmField.bytes (c : ConfirmField) : List Byte :=
  c.input :: c.expect :: (wordBytes c.openOffset ++ wordBytes c.closeOffset)

/-- A station's five bytes. -/
def StationField.bytes (s : StationField) : List Byte :=
  wordBytes s.offset ++ [s.output]

/-- The SET_LANE payload after its lane byte, 37 bytes. -/
def LaneFields.bytes (c : LaneFields) : List Byte :=
  [c.entryInput] ++ wordBytes c.d ++ wordBytes c.x ++ wordBytes c.l ++
    StationField.bytes c.station0 ++ StationField.bytes c.station1 ++ StationField.bytes c.station2 ++
    StationField.bytes c.station3 ++
    [c.default, c.limit, c.holdOutput, c.holdMark]

/-- The SET_NOTICE payload, 15 bytes. -/
def NoticeFields.bytes (n : NoticeFields) : List Byte :=
  [n.subKinds] ++ halfBytes n.inputs ++
    [n.timers, n.confirm, n.levelItem, n.levelLane, n.levelInput, n.levelTimer, n.levelReaction, n.levelConfirm,
      n.window] ++ halfBytes n.timeout ++ [n.retryLimit]

/-- The SET_REACTION payload after its reaction byte, 10 bytes. -/
def ReactionFields.bytes (r : ReactionFields) : List Byte :=
  [r.triggerKind, r.triggerParam, r.triggerResult, r.actionKind, r.actionParam] ++ halfBytes r.actionWidth ++
    [r.mode] ++ halfBytes r.chain

/-- The SET_LANE fields of a 38-byte payload. -/
def laneFieldsOf (p : List Byte) : LaneFields :=
  { entryInput := byteAt p 1, d := wordAt p 2, x := wordAt p 6, l := wordAt p 10
    station0 := { offset := wordAt p 14, output := byteAt p 18 }
    station1 := { offset := wordAt p 19, output := byteAt p 23 }
    station2 := { offset := wordAt p 24, output := byteAt p 28 }
    station3 := { offset := wordAt p 29, output := byteAt p 33 }
    default := byteAt p 34, limit := byteAt p 35, holdOutput := byteAt p 36, holdMark := byteAt p 37 }

/-- The SET_NOTICE fields of a 15-byte payload. -/
def noticeFieldsOf (p : List Byte) : NoticeFields :=
  { subKinds := byteAt p 0, inputs := halfAt p 1, timers := byteAt p 3, confirm := byteAt p 4
    levelItem := byteAt p 5, levelLane := byteAt p 6, levelInput := byteAt p 7, levelTimer := byteAt p 8
    levelReaction := byteAt p 9, levelConfirm := byteAt p 10, window := byteAt p 11, timeout := halfAt p 12
    retryLimit := byteAt p 14 }

/-- The SET_REACTION fields of an 11-byte payload. -/
def reactionFieldsOf (p : List Byte) : ReactionFields :=
  { triggerKind := byteAt p 1, triggerParam := byteAt p 2, triggerResult := byteAt p 3, actionKind := byteAt p 4
    actionParam := byteAt p 5, actionWidth := halfAt p 6, mode := byteAt p 8, chain := halfAt p 9 }

/-- The `n` firings from byte `i` on. -/
def firingFieldsOf (p : List Byte) : Nat → Nat → List FiringField
  | _, 0 => []
  | i, n + 1 =>
    { station := byteAt p i, widthKind := byteAt p (i + 1), adjust := halfAt p (i + 2), width := halfAt p (i + 4) }
      :: firingFieldsOf p (i + 6) n

/-- The confirm spec from byte `i` on. -/
def confirmFieldOf (p : List Byte) (i : Nat) : ConfirmField :=
  { input := byteAt p i, expect := byteAt p (i + 1), openOffset := wordAt p (i + 2), closeOffset := wordAt p (i + 6) }

/-! ### Configuration records in the form their SET writes (R186) -/

/-- A disposition: n, c, the firings, the confirm spec (R192). -/
def Disposition.bytes (d : Disposition) : List Byte :=
  [natByte d.firings.length, boolCode d.confirm.isSome] ++
    d.firings.flatMap (fun f =>
      natByte f.station :: f.widthKind.code :: (halfBytes f.adjust ++ halfBytes f.width)) ++
    (match d.confirm with
      | none => []
      | some c => natByte c.input :: c.expect.code :: (wordBytes c.openOffset ++ wordBytes c.closeOffset))

/-- An offset as a four-byte field. -/
def offsetBytes (n : Nat) : List Byte :=
  wordBytes (BitVec.ofNat 32 n)

/-- A station, absent as 0xFFFFFFFF and 0xFF (section 12.3). -/
def stationBytes : Option Station → List Byte
  | none => wordBytes absentWord ++ [absentByte]
  | some s => offsetBytes s.offset ++ [natByte s.output]

/-- A lane's configuration, 37 bytes. -/
def LaneConfig.bytes (c : LaneConfig) : List Byte :=
  [match c.entryInput with
    | none => absentByte
    | some i => natByte i] ++ offsetBytes c.d ++ offsetBytes c.x ++ offsetBytes c.l ++
    stationBytes c.stations[0] ++ stationBytes c.stations[1] ++ stationBytes c.stations[2] ++
    stationBytes c.stations[3] ++
    [natByte c.default, natByte c.limit,
      match c.holdOutput with
      | none => absentByte
      | some o => natByte o,
      natByte c.holdMark]

/-- An output's configuration. -/
def Output.configBytes (o : Output) : List Byte :=
  [o.role.code, o.polarity.code, o.lane]

/-- An input's configuration. -/
def Input.configBytes (i : Input) : List Byte :=
  [i.role.code, levelCode i.active, boolCode i.filterOn, natByte i.period, natByte i.stable, i.edge.code]

/-- The encoder's configuration. -/
def Position.configBytes (p : Position) : List Byte :=
  p.mode.code :: (halfBytes p.rl ++ [p.ft])

/-- A timer's configuration. -/
def Timer.configBytes (t : Timer) : List Byte :=
  natHalf t.period ++ [t.mode.code]

/-- A reaction's configuration. -/
def Reaction.configBytes (r : Reaction) : List Byte :=
  r.trigger.bytes ++ r.action.bytes ++ [r.mode.code] ++ reactionSetBytes r.chain

/-- The Notice Queue's settings. -/
def NoticeSettings.bytes (n : NoticeSettings) : List Byte :=
  [flagByte [n.entryOn, n.commitOn, n.outcomeOn]] ++ halfBytes n.inputsOn ++
    [n.timersOn.setWidth 8, boolCode n.confirmOn, natByte n.levelItem, natByte n.levelLane, natByte n.levelInput,
      natByte n.levelTimer, natByte n.levelReaction, natByte n.levelConfirm, natByte n.window] ++
    natHalf n.timeout ++ [natByte n.retryLimit]

/-! ### Contents of item notices and reads (R166, section 12.3) -/

/-- Stored index and stored source, 0xFF absent. -/
def storedBytes : Option StoredVerdict → List Byte
  | none => [absentByte, absentByte]
  | some v => [natByte v.index, v.source.code]

/-- A length, 0xFFFFFFFF absent. -/
def lengthBytes : Option Pos → List Byte
  | none => wordBytes absentWord
  | some n => wordBytes n

/-- The committed firings of a record, none before commit. -/
def Item.firings (it : Item) : List CommittedFiring :=
  match it.committed with
  | none => []
  | some c => c.firings

/-- The committed confirm spec of a record, none before commit and without a spec. -/
def Item.confirm (it : Item) : Option CommittedConfirm :=
  match it.committed with
  | none => none
  | some c => c.confirm

/-- The confirm result of a record, `none` for NONE (section 1.2). -/
def Item.confirmResult (it : Item) : Option ConfirmResult :=
  it.confirm.map (·.result)

/-- Whether the committed disposition is a substitute (R44). -/
def Item.substituted (it : Item) : Bool :=
  match it.committed with
  | none => false
  | some c => c.substituted

/-- Committed source and index, 0xFF absent. -/
def committedBytes : Option Committed → List Byte
  | none => [absentByte, absentByte]
  | some c => [c.source.code, natByte c.index]

/-- A confirm spec's ten bytes in COMMIT and GET_ITEM. -/
def confirmSpecBytes : Option CommittedConfirm → List Byte
  | none => []
  | some c => natByte c.input :: c.expect.code :: (wordBytes c.openOffset ++ wordBytes c.closeOffset)

/-- A committed firing's eight bytes. -/
def CommittedFiring.bytes (f : CommittedFiring) : List Byte :=
  natByte f.station :: f.widthKind.code :: (wordBytes f.fireOffset ++ halfBytes f.width)

/-- The ENTRY notice, 13 bytes. -/
def Item.entryContents (it : Item) : List Byte :=
  natByte it.lane :: (halfBytes it.tag ++ wordBytes it.entryPos ++ wordBytes it.entryTime ++ storedBytes it.stored)

/-- The COMMIT notice, 11 + 8n + 10c bytes. -/
def Item.commitContents (it : Item) : List Byte :=
  natByte it.lane :: (halfBytes it.tag ++ committedBytes it.committed ++
    [flagByte [it.substituted, it.skipped]] ++ storedBytes it.stored ++
    [natByte it.amend, natByte it.firings.length, boolCode it.confirm.isSome] ++
    it.firings.flatMap (·.bytes) ++ confirmSpecBytes it.confirm)

/-- Summary result, 0xFF absent. -/
def resultByte : Option Summary → Byte
  | none => absentByte
  | some r => r.code

/-- The OUTCOME notice, 18 + n bytes. -/
def Item.outcomeContents (it : Item) : List Byte :=
  natByte it.lane :: (halfBytes it.tag ++ [resultByte it.result] ++ wordBytes it.entryPos ++ lengthBytes it.length ++
    [flagByte [it.overlength, it.substituted, it.skipped, it.committed.isSome]] ++ committedBytes it.committed ++
    [natByte it.amend, confirmResultCode it.confirmResult, natByte it.firings.length] ++
    it.firings.map (·.result.code))

/-- The GET_ITEM reply after its status byte, 29 + 9n + 10c bytes. -/
def Item.replyBytes (it : Item) : List Byte :=
  natByte it.lane :: (halfBytes it.tag ++
    [it.state.code,
      flagByte [it.covering, it.overlength, it.skipped, it.substituted, it.committed.isSome, it.result.isSome]] ++
    wordBytes it.entryPos ++ wordBytes it.entryTime ++ lengthBytes it.length ++ storedBytes it.stored ++
    [natByte it.amend] ++ committedBytes it.committed ++
    [resultByte it.result, it.entryFlag.code, it.commitFlag.code, it.outcomeFlag.code,
      natByte it.firings.length, boolCode it.confirm.isSome, confirmResultCode it.confirmResult] ++
    it.firings.flatMap (fun f => f.bytes ++ [f.result.code]) ++ confirmSpecBytes it.confirm)

/-- The disposition index of a LIST_ITEMS summary (R27): the committed index, the stored index of an OPEN item, or
absent. -/
def Item.listIndex (it : Item) : Byte :=
  match it.committed, it.state, it.stored with
  | some c, _, _ => natByte c.index
  | none, .opened, some v => natByte v.index
  | none, _, _ => absentByte

/-- A LIST_ITEMS summary, 14 bytes: R27 and section 12.3 give it no notice flags, which R162 names there too (log 27). -/
def Item.summaryBytes (it : Item) : List Byte :=
  halfBytes it.tag ++ [it.state.code] ++ wordBytes it.entryPos ++ lengthBytes it.length ++
    [it.listIndex, resultByte it.result, flagByte [it.covering, it.overlength, it.skipped, it.substituted]]

end Sys2Proof.Machine
end

