-- ==== Sys2Proof/Machine/Flags.lean ====
section
/-! DEFINITION. The conditions the blocks read: comparison of positions and times, reverse depth, the accepted state
of an input, INHIBIT, the hold condition, the level of a pin, room in the pool, the schedule and the notice queue. -/

namespace Sys2Proof.Machine

/-! ### Positions and times -/

/-- R124, R130: `now` has reached or passed `target`, read as a signed 32-bit difference. -/
def reached (now target : Pos) : Bool :=
  0 ≤ (now - target).toInt

/-- R53, R54, R83: `p` stands before `q`, the signed difference q − p being greater than zero. -/
def before (p q : Pos) : Bool :=
  0 < (q - p).toInt

/-- R123: the reverse depth RD, HW − BP, computed (log 23). -/
def Position.rd (p : Position) : Pos :=
  p.hw - p.bp

/-- R126, R103 check 9: the reverse depth exceeds the reverse limit. -/
def Position.beyondLimit (p : Position) : Bool :=
  (p.rl.toNat : Int) < p.rd.toInt

/-- R119: the pins of both channels show the filtered levels and no sample has shown others: a further sample does
nothing. -/
def Position.atRest (p : Position) : Bool :=
  p.eaPin = p.ea && p.ebPin = p.eb && p.eaRun = 0 && p.ebRun = 0

/-- R125, R127: a capture taken under fresh travel, by the FT that stood when it was taken. -/
def Capture.fresh (c : Capture) : Bool :=
  c.rd.toInt ≤ (c.ft.toNat : Int)

/-- R125: what a sample taken now captures. -/
def Position.capture (p : Position) : Capture :=
  { bp := p.bp, rd := p.rd, ts := p.ts, ft := p.ft }

/-! ### Items -/

/-- R5: a point of an item, its entry position plus an offset modulo 2^32. -/
def Item.point (it : Item) (offset : Nat) : Pos :=
  it.entryPos + BitVec.ofNat 32 offset

/-- R17, R19: no firing of the item has result PENDING and its confirm result is not WAITING. -/
def Item.workDone (it : Item) : Bool :=
  it.firings.all (fun f => f.result != .pending) && it.confirmResult != some .waiting

/-- R20: the summary result of an item that becomes DONE other than by abandon. -/
def Item.summary (it : Item) : Summary :=
  if it.skipped then .skipped
  else if it.confirmResult = some .leak then .leak
  else if it.confirmResult = some .missed then .missed
  else if it.firings.any (fun f => f.result = .conflict) then .conflict
  else if it.firings.any (fun f => f.result = .cut) then .cut
  else if it.firings.any (fun f => f.result = .suppressed) then .suppressed
  else .ok

/-- R1: the records in use. -/
def Items.inUse (t : Items) : Nat :=
  t.queues[0].length + t.queues[1].length + t.queues[2].length + t.queues[3].length + t.done.length + t.passed.length

/-- R1: the number of free records. -/
def Items.free (t : Items) : Nat :=
  Config.poolSize - t.inUse

/-- R3: the retired list, the DONE part before the PASSED part. -/
def Items.retired (t : Items) : List Item :=
  t.done ++ t.passed

/-- The records of a lane as one sequence (R27). -/
def Items.ofLane (t : Items) (l : LaneId) : List Item :=
  t.queues[l] ++ t.retired.filter (fun it => it.lane = l)

/-- Every record in use. -/
def Items.all (t : Items) : List Item :=
  t.queues[0] ++ t.queues[1] ++ t.queues[2] ++ t.queues[3] ++ t.done ++ t.passed

/-- The record with a serial number. -/
def Items.find (t : Items) (rid : Nat) : Option Item :=
  t.all.find? (fun it => it.rid = rid)

/-! ### The schedule -/

/-- R51: the number of free schedule entries. -/
def Schedule.free (t : Schedule) : Nat :=
  Config.scheduleSize - (t.positionList.length + t.timeList.length)

/-- R53: the position an entry is filed by. -/
def ScheduleEntry.filing (e : ScheduleEntry) : Pos :=
  match e.phase with
  | .waiting => e.onPos
  | .onCounts off => off
  | .onTime off => off

/-- Whether an entry is in phase ON. -/
def ScheduleEntry.isOn (e : ScheduleEntry) : Bool :=
  match e.phase with
  | .waiting => false
  | .onCounts _ => true
  | .onTime _ => true

/-- R53, R54: the order of the lists: filing position or OFF time, then creation. -/
def ScheduleEntry.standsBefore (a b : ScheduleEntry) : Bool :=
  before a.filing b.filing || (a.filing = b.filing && a.serial < b.serial)

/-! ### Inputs -/

/-- R134: an input is accepted active while its accepted level equals its active level. -/
def Input.acceptedActive (i : Input) : Bool :=
  i.accepted = i.active

/-- R133: the sample period of an input, in µs. -/
def Input.periodMicros (x : Input) : Nat :=
  #v[1, 2, 5, 10, 20, 50, 100, 200][x.period]

/-- R136: the sample after those that the run counts is due at this TS and has not been taken: so many periods after the
run's first sample. -/
def Input.sampleDue (x : Input) (ts : Pos) (r : Run) : Bool :=
  x.mark = .due && r.count * x.periodMicros ≤ (ts - r.capture.ts).toNat

/-- R140: the combined INHIBIT state, computed (log 23). -/
def State.inhibit (s : State) : Bool :=
  allInputs.any (fun i => s.inputs[i].role = .inhibit && s.inputs[i].acceptedActive)

/-- R141: the edges a GENERAL input's edge select takes. -/
def EdgeSelect.takes : EdgeSelect → Edge → Bool
  | .activate, .activation => true
  | .activate, .deactivation => false
  | .deactivate, .activation => false
  | .deactivate, .deactivation => true
  | .both, _ => true

/-! ### Lanes -/

/-- A lane in RUN, DRAIN or FAULT. -/
def Lane.live (l : Lane) : Bool :=
  l.state ≠ .off

/-- A lane in RUN or DRAIN: the lanes that are offered REVERSE, ENCODER and REACTION (R109). -/
def Lane.running (l : Lane) : Bool :=
  l.state = .run || l.state = .drain

/-- R112, R117: a lane in FAULT that may have been in RUN or DRAIN when the Position Unit made the present offer
(log 32). -/
def Lane.justFaulted (l : Lane) : Bool :=
  l.state = .fault && l.struck.any (fun m => !m.stepped)

/-- R112, R117: a lane in FAULT that may have been in RUN with no room when the present leading edge came (log 32). -/
def Lane.justFull (l : Lane) : Bool :=
  l.state = .fault && l.struck.any (·.full)

/-- R117, R119: a lane once a transition of the channels has ended: no later one falls at its moment, and what was marked
before an earlier one is past (log 32). -/
def Lane.stepEnded (l : Lane) : Lane :=
  match l.struck with
  | some ⟨full, false⟩ => { l with struck := some ⟨full, true⟩ }
  | _ => { l with struck := none }

/-- R2: the count of a lane's item queue. -/
def State.queueCount (s : State) (l : LaneId) : Nat :=
  s.items.queues[l].length

/-- R13: a leading edge on the lane in RUN would overrun: its queue is at the limit, or the pool has no free record. -/
def State.noRoom (s : State) (l : LaneId) : Bool :=
  s.lanes[l].config.limit ≤ s.queueCount l || s.items.free = 0

/-- R114: the hold condition of a lane, computed (log 23). -/
def State.holdCondition (s : State) (l : LaneId) : Bool :=
  match s.lanes[l].state with
  | .fault => true
  | .run => s.lanes[l].config.holdMark ≠ 0 && s.lanes[l].config.holdMark ≤ s.queueCount l
  | .off => false
  | .drain => false

/-- Whether all four lanes are OFF (R127, R128). -/
def State.allOff (s : State) : Bool :=
  allLanes.all (fun l => !s.lanes[l].live)

/-- Whether a lane's configuration has a station on the output. -/
def LaneConfig.hasStationOn (c : LaneConfig) (o : OutputId) : Bool :=
  c.stations.toList.any (fun st => st.any (fun st => st.output = o))

/-- R76, R82: the output is a station output of a lane in RUN, DRAIN or FAULT. -/
def State.stationInUse (s : State) (o : OutputId) : Bool :=
  allLanes.any (fun l => s.lanes[l].live && s.lanes[l].config.hasStationOn o)

/-- R82: the output is the hold output named by a lane in RUN, DRAIN or FAULT. -/
def State.holdOutputInUse (s : State) (o : OutputId) : Bool :=
  allLanes.any (fun l => s.lanes[l].live && s.lanes[l].config.holdOutput = some o)

/-- Membership in a cause set. -/
def CauseSet.has (c : CauseSet) : Cause → Bool
  | .overrun => c.overrun
  | .jam => c.jam
  | .reverse => c.reverse
  | .encoder => c.encoder
  | .reaction => c.reaction

/-- A cause joins a cause set (R112). -/
def CauseSet.add (c : CauseSet) : Cause → CauseSet
  | .overrun => { c with overrun := true }
  | .jam => { c with jam := true }
  | .reverse => { c with reverse := true }
  | .encoder => { c with encoder := true }
  | .reaction => { c with reaction := true }

/-- R109: the causes that abandon the lane's items. -/
def Cause.abandons : Cause → Bool
  | .reverse => true
  | .encoder => true
  | .overrun => false
  | .jam => false
  | .reaction => false

/-! ### Outputs -/

/-- R71: whether the pin of an output is at its active level. -/
def State.pinActive (s : State) (o : OutputId) : Bool :=
  match s.outputs[o].role with
  | .unused => false
  | .actuator => !s.outputs[o].holders.isEmpty
  | .general => (s.outputs[o].latch || s.outputs[o].pulse.isSome) && !s.inhibit
  | .hold =>
    match finOf 4 s.outputs[o].lane with
    | some l => s.holdCondition l
    | none => false

/-- R70: the level of the pin OUT0 to OUT15, between commands (log 22). -/
def State.pinLevel (s : State) (o : OutputId) : Level :=
  match s.outputs[o].polarity, s.pinActive o with
  | .activeHigh, true => .high
  | .activeHigh, false => .low
  | .activeLow, true => .low
  | .activeLow, false => .high

/-- R72: whether the output's test hold is present. -/
def Output.testHold (o : Output) : Bool :=
  o.holders.contains .test

/-- R75: the pulse time remaining in whole ms, rounded up, 0 when no pulse runs or its end time is past (log 20). -/
def Output.remainingMs (o : Output) (ts : Pos) : Nat :=
  match o.pulse with
  | none => 0
  | some t => ((t - ts).toInt.toNat + 999) / 1000

/-! ### Notices -/

/-- R160: the class of a notice kind. -/
def NoticeKind.class : NoticeKind → NoticeClass
  | .entry => .item
  | .commit => .item
  | .outcome => .item
  | .lane => .lane
  | .input => .input
  | .timer => .timer
  | .reaction => .reaction
  | .stray => .confirm

/-- R160: the level of a class. -/
def NoticeSettings.level (n : NoticeSettings) : NoticeClass → Fin 4
  | .item => n.levelItem
  | .lane => n.levelLane
  | .input => n.levelInput
  | .timer => n.levelTimer
  | .reaction => n.levelReaction
  | .confirm => n.levelConfirm

/-- R161: the notice queue's depth. -/
def Notices.depth (n : Notices) : Nat :=
  n.sent.length + n.unsent.length

/-- R163: an ENTRY or COMMIT reference whose sub-kind is disabled is skipped. -/
def NoticeSettings.skips (n : NoticeSettings) : SubKind → Bool
  | .entry => !n.entryOn
  | .commit => !n.commitOn
  | .outcome => false

/-- The class of a reference (R162). -/
def NoticeRef.class : NoticeRef → NoticeClass
  | .item _ _ => .item
  | .lane _ => .lane

/-- R163: the reference taken next: of the highest class level, the earliest in the list. -/
def Notices.nextRef (n : Notices) : Option NoticeRef :=
  n.refs.find? (fun r => n.refs.all (fun r' => n.settings.level r'.class ≤ n.settings.level r.class))

/-- R161: the first unsent entry: of the highest class level, the first that entered the queue. -/
def Notices.firstUnsent (n : Notices) : Option NoticeEntry :=
  n.unsent.find? (fun e => n.unsent.all (fun e' => n.settings.level e'.kind.class ≤ n.settings.level e.kind.class))

/-- R164: an unsent LANE entry of the lane stands in the queue. -/
def Notices.hasUnsentLane (n : Notices) (l : LaneId) : Bool :=
  n.unsent.any (fun e => e.kind = .lane && e.link = .lane l)

/-- R167: the Notice Queue has a frame to send. -/
def Notices.hasFrame (n : Notices) : Bool :=
  !n.stalled && (n.sent.any (·.resend) || (n.sent.length < n.settings.window && !n.unsent.isEmpty))

end Sys2Proof.Machine
end

