-- ==== Sys2Proof/Machine/Ops.lean ====
section
/-! DEFINITION. The updates every block uses: one row of a table, one record wherever it stands, a saturating count, a
free choice, an event handed on for the same moment. The TR-416 has no addressed memory and takes no processor
exception; its faults are states of lanes and of the link. -/

namespace Sys2Proof.Machine

/-- A count that stops at its limit. -/
def satInc (limit n : Nat) : Nat :=
  min limit (n + 1)

/-! ### One row of a table -/

/-- Lane `l` through `f`. -/
def State.mapLane (s : State) (l : LaneId) (f : Lane → Lane) : State :=
  { s with lanes := tset s.lanes l (f s.lanes[l]) }

/-- Output `o` through `f`. -/
def State.mapOutput (s : State) (o : OutputId) (f : Output → Output) : State :=
  { s with outputs := tset s.outputs o (f s.outputs[o]) }

/-- Input `i` through `f`. -/
def State.mapInput (s : State) (i : InputId) (f : Input → Input) : State :=
  { s with inputs := tset s.inputs i (f s.inputs[i]) }

/-- Timer `t` through `f`. -/
def State.mapTimer (s : State) (t : TimerId) (f : Timer → Timer) : State :=
  { s with timers := tset s.timers t (f s.timers[t]) }

/-- Reaction `r` through `f`. -/
def State.mapReaction (s : State) (r : ReactionId) (f : Reaction → Reaction) : State :=
  { s with reactions := tset s.reactions r (f s.reactions[r]) }

/-- The window list of input `i` through `f`. -/
def State.mapWindows (s : State) (i : InputId) (f : List Window → List Window) : State :=
  { s with windows := tset s.windows i (f s.windows[i]) }

/-- The pin of input `i` shows a level. -/
def State.showPin (s : State) (i : InputId) (level : Level) : State :=
  { s with pins := tset s.pins i level }

/-! ### Records -/

/-- The records of a list with serial number `rid` through `f`. -/
def mapRid (rid : Nat) (f : Item → Item) (items : List Item) : List Item :=
  items.map (fun it => if it.rid = rid then f it else it)

/-- The records of a list but those with serial number `rid`. -/
def dropRid (rid : Nat) (items : List Item) : List Item :=
  items.filter (fun it => it.rid ≠ rid)

/-- The record `rid` through `f`, wherever it stands; nothing where there is none. -/
def State.mapRecord (s : State) (rid : Nat) (f : Item → Item) : State :=
  { s with items := { s.items with
      queues := tmap (mapRid rid f) s.items.queues
      done := mapRid rid f s.items.done
      passed := mapRid rid f s.items.passed } }

/-- The record `rid` leaves the list it stands in (R8). -/
def State.dropRecord (s : State) (rid : Nat) : State :=
  { s with items := { s.items with
      queues := tmap (dropRid rid) s.items.queues
      done := dropRid rid s.items.done
      passed := dropRid rid s.items.passed } }

/-- The item queue of a lane becomes `q`. -/
def State.setQueue (s : State) (l : LaneId) (q : List Item) : State :=
  { s with items := { s.items with queues := tset s.items.queues l q } }

/-! ### Free choices and the events of one moment -/

/-- A free choice of one of `n` (log 2); with at most one there is nothing to choose and no free value is used. -/
def State.choose (s : State) (n : Nat) : Nat × State :=
  if n ≤ 1 then (0, s) else (Config.choice s.choices % n, { s with choices := s.choices + 1 })

/-- Events to be taken at this moment, in this order among themselves (log 3). -/
def State.push (s : State) (chain : List Event) : State :=
  match chain with
  | [] => s
  | e :: es => { s with agenda := s.agenda ++ [e :: es] }

/-- Each event of a list on a chain of its own: taken in either order. -/
def State.pushEach (s : State) (events : List Event) : State :=
  { s with agenda := s.agenda ++ events.map (fun e => [e]) }

end Sys2Proof.Machine
end

