-- ==== Sys2Proof/Machine/NoticeQueue.lean ====
section
/-! DEFINITION. The Notice Queue (10): flags raised and admitted, other-class notices, first transmissions and
resends, acknowledgement, timeout and STALLED, what freeing and discarding a record does to its notices. -/

namespace Sys2Proof.Machine

/-! ### Flags and references -/

/-- The kind of an item notice. -/
def SubKind.kind : SubKind → NoticeKind
  | .entry => .entry
  | .commit => .commit
  | .outcome => .outcome

/-- The sub-kind of an item notice kind. -/
def NoticeKind.sub : NoticeKind → Option SubKind
  | .entry => some .entry
  | .commit => some .commit
  | .outcome => some .outcome
  | .lane => none
  | .input => none
  | .timer => none
  | .reaction => none
  | .stray => none

/-- A notice flag of a record (R7). -/
def Item.withFlag (it : Item) (sub : SubKind) (flag : NoticeFlag) : Item :=
  match sub with
  | .entry => { it with entryFlag := flag }
  | .commit => { it with commitFlag := flag }
  | .outcome => { it with outcomeFlag := flag }

/-- The contents of an item notice, read from the record (R166). -/
def Item.contents (it : Item) : SubKind → List Byte
  | .entry => it.entryContents
  | .commit => it.commitContents
  | .outcome => it.outcomeContents

/-- A notice flag of record `rid`. -/
def State.setFlag (s : State) (rid : Nat) (sub : SubKind) (flag : NoticeFlag) : State :=
  s.mapRecord rid (fun it => it.withFlag sub flag)

/-- R166: the LANE notice, built from the lane record as it stands. -/
def State.laneContents (s : State) (l : LaneId) : List Byte :=
  [natByte l, s.lanes[l].state.code, s.lanes[l].causes.code, firstCauseCode s.lanes[l].first] ++
    natHalf s.lanes[l].untracked ++ halfBytes s.lanes[l].nextTag ++
    [natByte (s.queueCount l), boolCode (s.holdCondition l)]

/-- A reference joins the end of the pending list (R162). -/
def State.addRef (s : State) (r : NoticeRef) : State :=
  { s with notices := { s.notices with refs := s.notices.refs ++ [r] } }

/-- A reference leaves the pending list. -/
def State.dropRef (s : State) (r : NoticeRef) : State :=
  { s with notices := { s.notices with refs := s.notices.refs.erase r } }

/-- An entry joins the unsent part (R161). -/
def State.enqueue (s : State) (e : NoticeEntry) : State :=
  { s with notices := { s.notices with unsent := s.notices.unsent ++ [e] } }

/-! ### Admission (R163, R164) -/

/-- R163: what is done with the reference taken; none when it needs a slot and the queue holds 32 entries. -/
def State.admitRef (s : State) (r : NoticeRef) : Option State :=
  match r with
  | .item rid sub =>
    if s.notices.settings.skips sub then
      some ((s.dropRef r).setFlag rid sub .notDue)
    else if s.notices.depth < Config.queueSize then
      match s.items.find rid with
      | none => some (s.dropRef r)
      | some it =>
        some (((s.dropRef r).enqueue
          { kind := sub.kind, contents := some (it.contents sub), link := .item rid, number := none,
            resend := false }).setFlag rid sub .queued)
    else none
  | .lane l =>
    if s.notices.depth < Config.queueSize then
      some (((s.dropRef r).enqueue
        { kind := .lane, contents := none, link := .lane l, number := none, resend := false }).mapLane l
          (fun lane => { lane with noticeFlag := false }))
    else none

/-- R163: admission of at most `n` references. -/
def State.admitUpTo : Nat → State → State
  | 0, s => s
  | n + 1, s =>
    match s.notices.nextRef with
    | none => s
    | some r =>
      match s.admitRef r with
      | none => s
      | some s' => State.admitUpTo n s'

/-- R163: admission, until the list is empty or the next reference needs a slot and there is none. -/
def State.admitAll (s : State) : State :=
  State.admitUpTo s.notices.refs.length s

/-- R163: admission as a flag becomes pending, run while the queue holds fewer than 32 entries. -/
def State.admitIfRoom (s : State) : State :=
  if s.notices.depth < Config.queueSize then s.admitAll else s

/-- R7, R162: an item's flag becomes pending. -/
def State.raiseItem (s : State) (rid : Nat) (sub : SubKind) : State :=
  ((s.setFlag rid sub .pending).addRef (.item rid sub)).admitIfRoom

/-- R115, R164: a lane's flag becomes pending; absorbed by an unsent LANE entry, kept as it is where already pending. -/
def State.raiseLane (s : State) (l : LaneId) : State :=
  if s.notices.hasUnsentLane l then s.mapLane l (fun lane => { lane with noticeFlag := false })
  else if s.lanes[l].noticeFlag then s
  else ((s.mapLane l (fun lane => { lane with noticeFlag := true })).addRef (.lane l)).admitIfRoom

/-! ### The other classes (R165) -/

/-- The missed count of a class; ITEM and LANE have none. -/
def Missed.get (m : Missed) : NoticeClass → Nat
  | .input => m.input
  | .timer => m.timer
  | .reaction => m.reaction
  | .confirm => m.confirm
  | .item => 0
  | .lane => 0

/-- The missed count of a class becomes `n`. -/
def Missed.set (m : Missed) (c : NoticeClass) (n : Nat) : Missed :=
  match c with
  | .input => { m with input := n }
  | .timer => { m with timer := n }
  | .reaction => { m with reaction := n }
  | .confirm => { m with confirm := n }
  | .item => m
  | .lane => m

/-- The missed count of a class becomes `n`. -/
def State.setMissed (s : State) (c : NoticeClass) (n : Nat) : State :=
  { s with notices := { s.notices with missed := s.notices.missed.set c n } }

/-- R165: an other-class notice takes a slot below 24 entries and carries the missed count, or is dropped and counted. -/
def State.produce (s : State) (kind : NoticeKind) (contents : List Byte) : State :=
  let missed := s.notices.missed.get kind.class
  if s.notices.depth < Config.otherLimit then
    (s.enqueue { kind := kind, contents := some (contents ++ [natByte missed]), link := .none, number := none,
                 resend := false }).setMissed kind.class 0
  else s.setMissed kind.class (satInc 255 missed)

/-! ### Sending (R167) -/

/-- The frame of an entry: its kind, its number, its contents. -/
def NoticeEntry.frame (e : NoticeEntry) : Frame :=
  { kind := e.kind.code, seq := e.number.getD 0, payload := e.contents.getD [] }

/-- The oldest entry marked for resending loses its mark. -/
def unmarkFirst : List NoticeEntry → List NoticeEntry
  | [] => []
  | e :: es => if e.resend then { e with resend := false } :: es else e :: unmarkFirst es

/-- Every entry marked for resending (R170, R171). -/
def markAll (es : List NoticeEntry) : List NoticeEntry :=
  es.map (fun e => { e with resend := true })

/-- R164: the contents of an entry at its first transmission; a LANE entry is built now. -/
def State.sentContents (s : State) (e : NoticeEntry) : List Byte :=
  match e.contents, e.link with
  | some c, _ => c
  | none, .lane l => s.laneContents l
  | none, .item _ => []
  | none, .none => []

/-- R167: an item record linked to an entry has the entry's flag set. -/
def State.flagLinked (s : State) (e : NoticeEntry) (flag : NoticeFlag) : State :=
  match e.link, e.kind.sub with
  | .item rid, some sub => s.setFlag rid sub flag
  | .item _, none => s
  | .lane _, _ => s
  | .none, _ => s

/-- R167, R168: the first transmission of an entry. -/
def State.sendFirst (s : State) (e : NoticeEntry) : State :=
  let e' := { e with number := some s.notices.nextNumber, contents := some (s.sentContents e) }
  State.flagLinked { s with
    notices := { s.notices with
      unsent := s.notices.unsent.erase e
      sent := s.notices.sent ++ [e']
      nextNumber := s.notices.nextNumber + 1
      ackTimer := if s.notices.sent.isEmpty then some s.notices.settings.timeout else s.notices.ackTimer }
    link := { s.link with transmitter := .notice e'.frame } } e .sent

/-- R167: the Notice Queue chooses its frame at a grant; R171: none while STALLED. -/
def State.sendNotice (s : State) : State :=
  if s.notices.stalled then s
  else
    match s.notices.sent.find? (·.resend) with
    | some e =>
      { s with
        notices := { s.notices with sent := unmarkFirst s.notices.sent }
        link := { s.link with transmitter := .notice e.frame } }
    | none =>
      if s.notices.sent.length < s.notices.settings.window then
        match s.notices.firstUnsent with
        | none => s
        | some e => s.sendFirst e
      else s

/-! ### Timeout and STALLED (R170, R171) -/

/-- R168: the acknowledgement timer at full timeout, or stopped when no entry is unacknowledged. -/
def Notices.restartTimer (n : Notices) : Notices :=
  { n with ackTimer := if n.sent.isEmpty then none else some n.settings.timeout }

/-- R170: a timeout begins a resend round, or stalls the link above the retry limit. -/
def Notices.timeout (n : Notices) : Notices :=
  let retry := min 16 (n.retry + 1)
  if retry ≤ n.settings.retryLimit then
    { n with retry := retry, sent := markAll n.sent, ackTimer := some n.settings.timeout }
  else
    { n with retry := retry, stalled := true, ackTimer := none }

/-- R171: the end of STALLED; nothing when the link is not STALLED. -/
def Notices.endStall (n : Notices) : Notices :=
  if n.stalled then Notices.restartTimer { n with stalled := false, retry := 0, sent := markAll n.sent } else n

/-- R168: the acknowledgement timer takes a tick; at 0 a timeout is taken. -/
def Notices.tick (n : Notices) : Notices :=
  if n.ackEarly then { n with ackEarly := false }
  else
    match n.ackTimer with
    | none => n
    | some k => if k ≤ 1 then n.timeout else { n with ackTimer := some (k - 1) }

/-! ### Records that go (R8, R22, R172) -/

/-- An entry no longer linked to record `rid`. -/
def NoticeEntry.unlink (e : NoticeEntry) (rid : Nat) : NoticeEntry :=
  if e.link = .item rid then { e with link := .none } else e

/-- A reference of record `rid`. -/
def NoticeRef.isOf (r : NoticeRef) (rid : Nat) : Bool :=
  match r with
  | .item rid' _ => rid' = rid
  | .lane _ => false

/-- R8, R162, R169: what the Notice Queue does as a record is freed: its references leave, its entries stay without a
link. -/
def Notices.forget (n : Notices) (rid : Nat) : Notices :=
  { n with
    refs := n.refs.filter (fun r => !r.isOf rid)
    sent := n.sent.map (·.unlink rid)
    unsent := n.unsent.map (·.unlink rid) }

/-- R172: what the Notice Queue does as a record is discarded: its unsent entries and references leave, its sent entries
stay without a link. -/
def Notices.discard (n : Notices) (rid : Nat) : Notices :=
  { n with
    refs := n.refs.filter (fun r => !r.isOf rid)
    sent := n.sent.map (·.unlink rid)
    unsent := n.unsent.filter (fun e => e.link ≠ .item rid) }

/-- R8, R22: the record `rid` is freed: it leaves the DONE part from wherever it stands. -/
def State.freeRecord (s : State) (rid : Nat) : State :=
  { s with
    items := { s.items with done := dropRid rid s.items.done }
    notices := s.notices.forget rid }

/-! ### Acknowledgement (R169) -/

/-- What an acknowledged entry does to its record: OUTCOME frees it, ENTRY and COMMIT are acknowledged. -/
def State.acknowledge (s : State) (e : NoticeEntry) : State :=
  match e.link with
  | .item rid => if e.kind = .outcome then s.freeRecord rid else s.flagLinked e .acknowledged
  | .lane _ => s
  | .none => s

/-- An acknowledged entry that frees a record (R22). -/
def NoticeEntry.frees (e : NoticeEntry) : Bool :=
  match e.link with
  | .item _ => e.kind = .outcome
  | .lane _ => false
  | .none => false

/-- R169: how many entries an acknowledgement of `number` removes: those up to the one with that number, none when it
is not outstanding. -/
def Notices.covered (n : Notices) (number : Byte) : Nat :=
  match n.sent.findIdx? (fun e => e.number = some number) with
  | none => 0
  | some i => i + 1

/-- R169: the retry count, STALLED and the timer after entries have been removed. -/
def Notices.resume (n : Notices) : Notices :=
  (Notices.endStall { n with retry := 0 }).restartTimer

/-- R169: the acknowledgement of `number`, a no-op when it is not outstanding. -/
def State.ackNotice (s : State) (number : Byte) : State :=
  let k := s.notices.covered number
  if k = 0 then s
  else
    let removed := s.notices.sent.take k
    let s1 : State := { s with notices := { s.notices with sent := s.notices.sent.drop k } }
    let s2 := removed.foldl State.acknowledge s1
    State.admitAll { s2 with notices := s2.notices.resume }

end Sys2Proof.Machine
end

