-- ==== Sys2Proof/Machine/OutputDriver.lean ====
section
/-! DEFINITION. The Output Driver (04): hold sets, test holds, latches and pulses, the reaction actions on outputs and
what INHIBIT does. The level of a pin is computed from this state (R71, Flags.lean). -/

namespace Sys2Proof.Machine

/-- R73: whether a claim on the output is granted. -/
def Output.hasRoom (o : Output) : Bool :=
  o.holders.length < Config.holdSize

/-- R73: a holder joins the hold set. -/
def State.addHolder (s : State) (o : OutputId) (h : Holder) : State :=
  s.mapOutput o (fun out => { out with holders := out.holders ++ [h] })

/-- R74: a release removes exactly the named holder; nothing when it is not in the set. -/
def State.release (s : State) (o : OutputId) (h : Holder) : State :=
  s.mapOutput o (fun out => { out with holders := out.holders.erase h })

/-- R78: the end time of a pulse of `ms` started now. -/
def State.endTime (s : State) (ms : Half) : Pos :=
  s.position.ts + BitVec.ofNat 32 (ms.toNat * 1000)

/-- An output of role GENERAL through `f`; an output of another role is left alone (R79). -/
def State.mapGeneral (s : State) (o : OutputId) (f : Output → Output) : State :=
  if s.outputs[o].role = .general then s.mapOutput o f else s

/-- R79: OUT_SET. -/
def State.outSet (s : State) (o : OutputId) : State :=
  s.mapGeneral o (fun out => { out with latch := true })

/-- R79: OUT_CLEAR. -/
def State.outClear (s : State) (o : OutputId) : State :=
  s.mapGeneral o (fun out => { out with latch := false, pulse := none })

/-- R79: OUT_PULSE, without effect while INHIBIT is active. -/
def State.outPulse (s : State) (o : OutputId) (ms : Half) : State :=
  if s.inhibit then s
  else
    let t := s.endTime ms
    s.mapGeneral o (fun out => { out with pulse := some t })

/-- R78: whether a running pulse of the output has reached its end time. -/
def State.pulseDue (s : State) (o : OutputId) : Bool :=
  match s.outputs[o].pulse with
  | none => false
  | some t => reached s.position.ts t

/-- R78: the pulse of an output ends when TS has reached its end time. -/
def State.endPulse (s : State) (o : OutputId) : State :=
  if s.pulseDue o then s.mapOutput o (fun out => { out with pulse := none }) else s

/-- R81: what INHIBIT's activation does to one output. -/
def Output.inhibited (o : Output) : Output :=
  match o.role with
  | .actuator => { o with holders := o.holders.erase .test }
  | .general => { o with pulse := none }
  | .hold => o
  | .unused => o

/-- R81: INHIBIT's activation removes test holds and ends pulses. -/
def State.inhibitOutputs (s : State) : State :=
  { s with outputs := tmap Output.inhibited s.outputs }

end Sys2Proof.Machine
end

