-- ==== Sys2Proof/Machine/ItemTable.lean ====
section
/-! DEFINITION. How an item ends (01, 03, 05): its result and completion, the end of one of its firings, the end of its
window, abandon and discard. The three blocks meet here, since each end may complete the item. -/

namespace Sys2Proof.Machine

/-! ### DONE (R20) -/

/-- R20: an item that has left its list becomes DONE with a result; its record is kept with the OUTCOME flag pending, or
freed at once when the OUTCOME sub-kind is disabled. Its trigger is given by `outcomeEvent`. -/
def State.becomeDone (s : State) (it : Item) (r : Summary) : State :=
  if s.notices.settings.outcomeOn then
    State.raiseItem { s with items := { s.items with
      done := s.items.done ++ [{ it with state := .done, result := some r }] } } it.rid .outcome
  else { s with notices := s.notices.forget it.rid }

/-- R20: the OUTCOME trigger event of an item. -/
def Item.outcomeEvent (it : Item) (r : Summary) : Event :=
  .trigger (.outcome it.lane r)

/-- R19: a PASSED item without work becomes DONE; nothing for any other record. -/
def State.checkDone (s : State) (rid : Nat) : State :=
  match s.items.passed.find? (fun it => it.rid = rid) with
  | none => s
  | some it =>
    if it.workDone then
      ((s.dropRecord rid).becomeDone it it.summary).push [it.outcomeEvent it.summary]
    else s

/-! ### Firing results (R66) -/

/-- R66: a firing whose result is PENDING takes a result; one with another result keeps it. -/
def CommittedFiring.ends (f : CommittedFiring) (r : FiringResult) : CommittedFiring :=
  if f.result = .pending then { f with result := r } else f

/-- A committed disposition through `f`. -/
def Item.mapCommitted (it : Item) (f : Committed → Committed) : Item :=
  { it with committed := it.committed.map f }

/-- R66: firing `k` of the item takes a result. -/
def Item.endFiring (it : Item) (k : Fin 4) (r : FiringResult) : Item :=
  it.mapCommitted (fun c => { c with firings := c.firings.modify k (·.ends r) })

/-- R63: each PENDING firing of the item becomes CANCELLED. -/
def Item.cancelFirings (it : Item) : Item :=
  it.mapCommitted (fun c => { c with firings := c.firings.map (·.ends .cancelled) })

/-- R91: a WAITING confirm result takes a value; one already written keeps it. -/
def CommittedConfirm.ends (c : CommittedConfirm) (r : ConfirmResult) : CommittedConfirm :=
  if c.result = .waiting then { c with result := r } else c

/-- R91: the item's confirm result is written. -/
def Item.endConfirm (it : Item) (r : ConfirmResult) : Item :=
  it.mapCommitted (fun c => { c with confirm := c.confirm.map (·.ends r) })

/-! ### Schedule entries (R53, R54, R66) -/

/-- An entry joins a list at its place (R53, R54). -/
def insertEntry (e : ScheduleEntry) : List ScheduleEntry → List ScheduleEntry
  | [] => [e]
  | x :: xs => if e.standsBefore x then e :: x :: xs else x :: insertEntry e xs

/-- The entries in use. -/
def Schedule.entries (t : Schedule) : List ScheduleEntry :=
  t.positionList ++ t.timeList

/-- An entry of the schedule by its serial number. -/
def Schedule.find (t : Schedule) (serial : Nat) : Option ScheduleEntry :=
  t.entries.find? (fun e => e.serial = serial)

/-- An entry leaves its list and is free. -/
def State.dropEntry (s : State) (serial : Nat) : State :=
  { s with schedule := { s.schedule with
      positionList := s.schedule.positionList.filter (fun e => e.serial ≠ serial)
      timeList := s.schedule.timeList.filter (fun e => e.serial ≠ serial) } }

/-- R58: an entry that has left the lists is filed again, a TIME entry that is ON in the time list. -/
def State.fileEntry (s : State) (e : ScheduleEntry) : State :=
  match e.phase with
  | .waiting => { s with schedule := { s.schedule with positionList := insertEntry e s.schedule.positionList } }
  | .onCounts _ => { s with schedule := { s.schedule with positionList := insertEntry e s.schedule.positionList } }
  | .onTime _ => { s with schedule := { s.schedule with timeList := insertEntry e s.schedule.timeList } }

/-- R59, R60, R62, R63: an entry that is ON releases its hold. -/
def State.releaseEntry (s : State) (e : ScheduleEntry) : State :=
  if e.isOn then s.release e.output (.firing e.owner) else s

/-- R66: an entry ends: its hold is released, the firing takes its result, the entry is freed. -/
def State.endEntry (s : State) (e : ScheduleEntry) (r : FiringResult) : State :=
  ((s.releaseEntry e).dropEntry e.serial).mapRecord e.rid (fun it => it.endFiring e.owner.firing r)

/-- R66: an entry ends with DONE or CUT and the end is reported for the completion check. -/
def State.endReported (s : State) (e : ScheduleEntry) (r : FiringResult) : State :=
  (s.endEntry e r).checkDone e.rid

/-- R63, R64: every entry of a record is freed, ON entries releasing their holds. -/
def State.dropEntries (s : State) (rid : Nat) : State :=
  let s1 := (s.schedule.entries.filter (fun e => e.rid = rid)).foldl State.releaseEntry s
  { s1 with schedule := { s1.schedule with
      positionList := s1.schedule.positionList.filter (fun e => e.rid ≠ rid)
      timeList := s1.schedule.timeList.filter (fun e => e.rid ≠ rid) } }

/-! ### Windows (R84, R91, R94, R95) -/

/-- R94, R95: the window of a record leaves its list. -/
def State.dropWindows (s : State) (rid : Nat) : State :=
  { s with windows := tmap (fun ws => ws.filter (fun w => w.rid ≠ rid)) s.windows }

/-- R84, R91: a window resolves: it leaves its list, the confirm result is written, the item is checked. -/
def State.resolveWindow (s : State) (i : InputId) (rid : Nat) (r : ConfirmResult) : State :=
  ((s.mapWindows i (fun ws => ws.filter (fun w => w.rid ≠ rid))).mapRecord rid
    (fun it => it.endConfirm r)).checkDone rid

/-! ### Abandon (R23) -/

/-- R23: the fields of an abandoned item before it becomes DONE. -/
def Item.abandoned (it : Item) : Item :=
  { (it.cancelFirings.endConfirm .cancelled) with covering := false }

/-- R23: the record `rid` is abandoned as it stands. -/
def State.abandonItem (s : State) (rid : Nat) : State :=
  match s.items.find rid with
  | none => s
  | some it => (((s.dropEntries rid).dropWindows rid).dropRecord rid).becomeDone it.abandoned .abandoned

/-- R23: the items an abandon of the lane takes: PASSED ones in retired-list order, then the queue, oldest first. -/
def State.toAbandon (s : State) (l : LaneId) : List Item :=
  s.items.passed.filter (fun it => it.lane = l) ++ s.items.queues[l]

/-- R23: every queue item and PASSED item of the lane becomes DONE with result ABANDONED. -/
def State.abandon (s : State) (l : LaneId) : State :=
  ((s.toAbandon l).map (·.rid)).foldl State.abandonItem s

/-- R23: the OUTCOME triggers of an abandon, in the order of the items. -/
def State.abandonEvents (s : State) (l : LaneId) : List Event :=
  (s.toAbandon l).map (fun it => it.outcomeEvent .abandoned)

/-! ### Discard (R24) -/

/-- R24: one record is discarded: entries, window, unsent notices and references go, and the record is freed. -/
def State.discardRecord (s : State) (rid : Nat) : State :=
  let s1 := ((s.dropEntries rid).dropWindows rid).dropRecord rid
  { s1 with notices := s1.notices.discard rid }

/-- R24: every record of a lane is discarded, queue first. -/
def State.discardAll (s : State) (l : LaneId) : State :=
  ((s.items.ofLane l).map (·.rid)).foldl State.discardRecord s

/-- R24, R172: every record of a lane is discarded, and admission runs when the discard has freed slots (R163). -/
def State.discardLane (s : State) (l : LaneId) : State :=
  if (s.discardAll l).notices.depth < s.notices.depth then (s.discardAll l).admitAll else s.discardAll l

end Sys2Proof.Machine
end

