-- ==== Sys2Proof/Machine/LaneController.lean ====
section
/-! DEFINITION. The Lane Controller (06): states, fault causes, the end of a drain, OFF, the untracked count. The hold
condition is computed from the lane (R114, Flags.lean). -/

namespace Sys2Proof.Machine

/-- R115: the lane's state changes and its notice becomes pending. -/
def State.toLaneState (s : State) (l : LaneId) (st : LaneState) : State :=
  (s.mapLane l (fun lane => { lane with state := st })).raiseLane l

/-- R41, R108: the lane's Advance Verdict list is emptied. -/
def State.emptyAdvance (s : State) (l : LaneId) : State :=
  { s with verdicts := { s.verdicts with advance := tset s.verdicts.advance l [] } }

/-- R108: the lane enters OFF; its notice becomes pending when the state has changed. -/
def State.enterOff (s : State) (l : LaneId) : State :=
  let s1 := (s.emptyAdvance l).mapLane l (fun lane => { lane with blanked := false })
  if s1.lanes[l].state = .off then s1 else s1.toLaneState l .off

/-- R107: the Item Table's report of the queue count; a count of zero in DRAIN ends the drain. -/
def State.reportCount (s : State) (l : LaneId) : State :=
  if s.lanes[l].state = .drain ∧ s.queueCount l = 0 then s.enterOff l else s

/-- R113: the untracked count rises by 1. -/
def State.countUntracked (s : State) (l : LaneId) : State :=
  s.mapLane l (fun lane => { lane with untracked := satInc 65535 lane.untracked })

/-- R111: a cause takes a lane in RUN or DRAIN to FAULT. The mark is the model's (log 32). -/
def State.enterFault (s : State) (l : LaneId) (c : Cause) : State :=
  let mark : Struck := { full := s.lanes[l].state = .run && s.noRoom l, stepped := false }
  let s1 := (s.mapLane l (fun lane =>
    { lane with causes := CauseSet.empty.add c, first := some c, struck := some mark })).toLaneState l .fault
  if c.abandons then
    (s1.abandon l).push (s1.abandonEvents l ++ [.trigger (.laneFault l)])
  else s1.push [.trigger (.laneFault l)]

/-- R112: a cause joins the cause set of a lane in FAULT. -/
def State.joinCause (s : State) (l : LaneId) (c : Cause) : State :=
  let s1 :=
    if s.lanes[l].causes.has c then s
    else (s.mapLane l (fun lane => { lane with causes := lane.causes.add c })).raiseLane l
  if c.abandons then (s1.abandon l).push (s1.abandonEvents l) else s1

/-- R109: a lane that was offered a cause takes it; an OFF lane takes none. -/
def State.takeCause (s : State) (l : LaneId) (c : Cause) : State :=
  match s.lanes[l].state with
  | .off => s
  | .run => s.enterFault l c
  | .drain => s.enterFault l c
  | .fault => s.joinCause l c

/-- R23, R112, R117: whether an event of the Position Unit falls at the moment at which another cause has taken a lane to
FAULT, a free value where some lane is so (log 32, log 2). -/
def State.sameMoment (s : State) : Bool × State :=
  let (k, s1) := s.choose (if allLanes.any (fun l => s.lanes[l].justFaulted) then 2 else 1)
  (k = 1, s1)

/-- R122, R126: a cause is offered to every lane in RUN or DRAIN; each takes it at this moment, in either order. The offer
rests on the states at which the moment began (R112): it reaches also the lanes that a cause offered at the same moment
has already taken to FAULT, where it joins the set and abandons (R23, R117, log 32). -/
def State.offerAll (s : State) (c : Cause) : State :=
  let (same, s1) := s.sameMoment
  s1.pushEach ((allLanes.filter (fun l => s.lanes[l].running || (same && s.lanes[l].justFaulted))).map
    (fun l => .offer l c))

/-- R112, R117: an overrun of an edge that finds its lane just taken to FAULT, where there was no room for it: whether
the two fall at one moment, so that OVERRUN was offered in RUN and joins the set, is a free value (log 32, log 2). -/
def State.overrunSecond (s : State) (l : LaneId) : State :=
  if s.lanes[l].justFull then
    let (k, s1) := s.choose 2
    if k = 1 then s1.joinCause l .overrun else s1
  else s

/-- R117: a later moment begins, at which a lane in FAULT has been there before (log 32). -/
def State.nextMoment (s : State) : State :=
  { s with lanes := tmap (fun lane => { lane with struck := none }) s.lanes }

/-- R117, R119: a transition of the channels ends (log 32). -/
def State.stepEnded (s : State) : State :=
  { s with lanes := tmap Lane.stepEnded s.lanes }

/-- R154: LANE_HOLD offers REACTION to a lane in RUN or DRAIN. -/
def State.laneHold (s : State) (l : LaneId) : State :=
  if s.lanes[l].running then s.takeCause l .reaction else s

end Sys2Proof.Machine
end

