-- ==== Sys2Proof/Machine/ConfirmMonitor.lean ====
section
/-! DEFINITION. The Confirm Monitor (05): windows opening, matching, closing, holding, and stray edges. -/

namespace Sys2Proof.Machine

/-- R83: a window joins a list at its place by open position, after those of equal open position (R47). -/
def insertWindow (w : Window) : List Window → List Window
  | [] => [w]
  | x :: xs => if before w.openPos x.openPos then w :: x :: xs else x :: insertWindow w xs

/-- R87: the position lies in the window. -/
def Window.contains (w : Window) (p : Pos) : Bool :=
  reached p w.openPos && reached w.closePos p

/-- R89: the position of a window's close event. -/
def Window.closeEvent (w : Window) : Pos :=
  w.closePos + 1

/-- R87: what a matching edge gives. -/
def Expect.matched : Expect → ConfirmResult
  | .present => .confirmed
  | .absent => .leak

/-- R89, R90: what a resolution without a match gives. -/
def Expect.unmatched : Expect → ConfirmResult
  | .present => .missed
  | .absent => .confirmed

/-- The window of a record in the list of an input. -/
def State.findWindow (s : State) (i : InputId) (rid : Nat) : Option Window :=
  s.windows[i].find? (fun w => w.rid = rid)

/-- The window of a record takes a phase and keeps its place. -/
def State.setPhase (s : State) (i : InputId) (rid : Nat) (phase : WindowPhase) : State :=
  s.mapWindows i (fun ws => ws.map (fun w => if w.rid = rid then { w with phase := phase } else w))

/-- R85: a PENDING window whose open position HW has reached becomes OPEN. -/
def State.openWindow (s : State) (i : InputId) (rid : Nat) : State :=
  match s.findWindow i rid with
  | none => s
  | some w =>
    if w.phase = .pending ∧ reached s.position.hw w.openPos then s.setPhase i rid .opened else s

/-- R89: an OPEN window at its close event becomes HOLDING while a run is in progress, and otherwise resolves without a
match. -/
def State.closeWindow (s : State) (i : InputId) (rid : Nat) : State :=
  match s.findWindow i rid with
  | none => s
  | some w =>
    if w.phase = .opened ∧ reached s.position.hw w.closeEvent then
      if s.inputs[i].run.isSome then s.setPhase i rid .holding
      else s.resolveWindow i rid w.expect.unmatched
    else s

/-- R88: a stray edge gives a STRAY notice when the class is enabled. -/
def State.stray (s : State) (i : InputId) (c : Capture) : State :=
  if s.notices.settings.confirmOn then
    s.produce .stray (natByte i :: (wordBytes c.bp ++ wordBytes c.ts))
  else s

/-- R87: a confirmation edge is matched to the oldest window that contains its capture, or is a stray edge. -/
def State.confirmEdge (s : State) (i : InputId) (c : Capture) : State :=
  match s.windows[i].find? (fun w => w.contains c.bp) with
  | none => s.stray i c
  | some w => s.resolveWindow i w.rid w.expect.matched

/-- The HOLDING windows of an input. -/
def State.holding (s : State) (i : InputId) : List Window :=
  s.windows[i].filter (fun w => w.phase = .holding)

/-- R90: the HOLDING windows of an input resolve without a match, in either order among themselves (log 2). -/
def State.resolveHolding : Nat → InputId → State → State
  | 0, _, s => s
  | n + 1, i, s =>
    let (k, s1) := s.choose (s.holding i).length
    match (s.holding i)[k]? with
    | none => s
    | some w => State.resolveHolding n i (s1.resolveWindow i w.rid w.expect.unmatched)

/-- R90: a run on a CONFIRM input ends; a fresh activation is matched first. -/
def State.endRun (s : State) (i : InputId) (edge : Option Capture) : State :=
  let s1 := match edge with
    | none => s
    | some c => s.confirmEdge i c
  State.resolveHolding (s1.holding i).length i s1

end Sys2Proof.Machine
end

