-- ==== Sys2Proof/Machine/FiringScheduler.lean ====
section
/-! DEFINITION. The Firing Scheduler (03): ON and OFF positions, OFF times, cuts. -/

namespace Sys2Proof.Machine

/-- R58: the phase of an entry whose claim is granted. -/
def State.onPhase (s : State) (e : ScheduleEntry) : Phase :=
  match e.widthKind with
  | .counts => .onCounts (e.onPos + e.width.setWidth 32)
  | .time => .onTime (s.endTime e.width)

/-- R58: an entry whose claim is granted holds its output and is filed again. -/
def State.goOn (s : State) (e : ScheduleEntry) : State :=
  ((s.addHolder e.output (.firing e.owner)).dropEntry e.serial).fileEntry { e with phase := s.onPhase e }

/-- R56, R57: a WAITING entry at its ON position is suppressed, refused or goes ON. -/
def State.takeOn (s : State) (e : ScheduleEntry) : State :=
  if s.inhibit then s.endEntry e .suppressed
  else if s.outputs[e.output].hasRoom then s.goOn e
  else s.endEntry e .conflict

/-- R55: the entry whose filing position is reached is at its ON position, or at its OFF position (R59). -/
def State.takePoint (s : State) (e : ScheduleEntry) : State :=
  match e.phase with
  | .waiting => s.takeOn e
  | .onCounts _ => s.endReported e .done
  | .onTime _ => s

/-- R55: the entry with this serial number at a position it is filed by, if HW has reached it. -/
def State.schedulePoint (s : State) (serial : Nat) : State :=
  match s.schedule.positionList.find? (fun e => e.serial = serial) with
  | none => s
  | some e => if reached s.position.hw e.filing then s.takePoint e else s

/-- R60: the entry with this serial number at its OFF time, if TS has reached it. -/
def State.offTime (s : State) (serial : Nat) : State :=
  match s.schedule.timeList.find? (fun e => e.serial = serial) with
  | none => s
  | some e => if reached s.position.ts e.filing then s.endReported e .done else s

/-- R62: the entry with this serial number is cut, if it is ON. -/
def State.cutEntry (s : State) (serial : Nat) : State :=
  match s.schedule.find serial with
  | none => s
  | some e => if e.isOn then s.endReported e .cut else s

/-- R62, R81: INHIBIT has become active: every ON entry is cut and the outputs are cleared, in either order. -/
def State.inhibitActive (s : State) : State :=
  s.pushEach (.inhibitOutputs :: ((s.schedule.entries.filter (·.isOn)).map (fun e => .cut e.serial)))

/-- R140: the combined INHIBIT state is worked out anew; `old` is what it was. -/
def State.reportInhibit (s : State) (old : Bool) : State :=
  if s.inhibit && !old then s.inhibitActive else s

end Sys2Proof.Machine
end

