-- ==== Sys2Proof/Machine/VerdictUnit.lean ====
section
/-! DEFINITION. The Verdict Unit (02): validity of a disposition for a lane, advance verdicts bound, and the commit. -/

namespace Sys2Proof.Machine

/-! ### Validity (R32, R33) -/

/-- R29: the fire offset of a firing at a station, a signed quantity. -/
def Firing.fireOffset (f : Firing) (st : Station) : Int :=
  (st.offset : Int) + f.adjust.toInt

/-- R32: the conditions on one firing, on whole numbers. -/
def LaneConfig.firingValid (c : LaneConfig) (f : Firing) : Bool :=
  match c.stations[f.station] with
  | none => false
  | some st =>
    (c.d : Int) < f.fireOffset st && f.fireOffset st < (c.x : Int) &&
      (f.widthKind = .time || f.fireOffset st + (f.width.toNat : Int) < (c.x : Int))

/-- R32: the firing list is valid for the lane. -/
def LaneConfig.firingsValid (c : LaneConfig) (fs : List Firing) : Bool :=
  fs.all c.firingValid

/-- R33: the confirm spec is valid for a lane of this configuration. -/
def State.confirmValid (s : State) (c : LaneConfig) (spec : Option ConfirmSpec) : Bool :=
  match spec with
  | none => true
  | some k =>
    s.inputs[k.input].role = .confirm && c.d < k.openOffset.toNat && k.openOffset.toNat ≤ k.closeOffset.toNat &&
      k.closeOffset.toNat < c.x

/-- R33: the disposition is valid for lane `l`. -/
def State.valid (s : State) (l : LaneId) (d : Disposition) : Bool :=
  s.lanes[l].config.firingsValid d.firings && s.confirmValid s.lanes[l].config d.confirm

/-! ### Advance verdicts (R41, R42) -/

/-- The entry of a lane's Advance Verdict list for a tag. -/
def State.advanceFor (s : State) (l : LaneId) (tag : Half) : Option AdvanceEntry :=
  s.verdicts.advance[l].find? (fun e => e.tag = tag)

/-- R42: the entry for a bound tag leaves the list. -/
def State.dropAdvance (s : State) (l : LaneId) (tag : Half) : State :=
  { s with verdicts := { s.verdicts with
      advance := tset s.verdicts.advance l (s.verdicts.advance[l].filter (fun e => e.tag ≠ tag)) } }

/-- R38, R41: an entry joins the list at its place in tag order counted from the next tag, or has its index replaced. -/
def insertAdvance (next : Half) (e : AdvanceEntry) : List AdvanceEntry → List AdvanceEntry
  | [] => [e]
  | x :: xs =>
    if x.tag = e.tag then e :: xs
    else if (e.tag - next).toNat < (x.tag - next).toNat then e :: x :: xs
    else x :: insertAdvance next e xs

/-! ### Commit (R43 to R47) -/

/-- What a commit decides before it asks for schedule entries (R43, R44). -/
structure Decision where
  source : VerdictSource
  index : Fin 16
  substituted : Bool
  firings : List Firing
  confirm : Option ConfirmSpec
  deriving DecidableEq, Repr

/-- R44: the lane default in place of a disposition that is not valid; without its confirm spec when that fails. -/
def State.substitute (s : State) (l : LaneId) : Decision :=
  let idx := s.lanes[l].config.default
  let d := s.verdicts.dispositions[idx]
  { source := .default, index := idx, substituted := true, firings := d.firings
    confirm := if s.valid l d then d.confirm else none }

/-- R43, R44: the disposition chosen for an item and tested for its lane. -/
def State.decide (s : State) (it : Item) : Decision :=
  let chosen : VerdictSource × Fin 16 :=
    match it.stored with
    | some v => (v.source, v.index)
    | none => (.default, s.lanes[it.lane].config.default)
  let d := s.verdicts.dispositions[chosen.2]
  if s.valid it.lane d then
    { source := chosen.1, index := chosen.2, substituted := false, firings := d.firings, confirm := d.confirm }
  else s.substitute it.lane

/-- R45: a firing as committed against the lane; an absent station, which no valid firing names, gives offset 0
(log 24). -/
def LaneConfig.commitFiring (c : LaneConfig) (f : Firing) : CommittedFiring :=
  { station := f.station
    fireOffset :=
      match c.stations[f.station] with
      | none => 0
      | some st => BitVec.ofInt 32 (f.fireOffset st)
    widthKind := f.widthKind, width := f.width, result := .pending }

/-- R52: the output of a firing's station at commit; an absent station, which no valid firing names, gives OUT0 (log 24). -/
def LaneConfig.stationOutput (c : LaneConfig) (station : Fin 4) : OutputId :=
  match c.stations[station] with
  | none => 0
  | some st => st.output

/-- R45: the confirm spec as committed. -/
def ConfirmSpec.commit (k : ConfirmSpec) : CommittedConfirm :=
  { input := k.input, openOffset := k.openOffset, closeOffset := k.closeOffset, expect := k.expect, result := .waiting }

/-- R46, R52: the schedule entry of firing `k` of an item, filed at its ON position. -/
def State.createEntry (s : State) (it : Item) (k : Fin 4) (f : CommittedFiring) : State :=
  let e : ScheduleEntry :=
    { serial := s.schedule.nextSerial, rid := it.rid, owner := { lane := it.lane, tag := it.tag, firing := k }
      output := s.lanes[it.lane].config.stationOutput f.station, widthKind := f.widthKind, width := f.width
      phase := .waiting, onPos := it.entryPos + f.fireOffset }
  State.fileEntry { s with schedule := { s.schedule with nextSerial := s.schedule.nextSerial + 1 } } e

/-- R46: one entry for each firing, in firing-index order; a firing list has at most 4 (R29). -/
def State.createEntries (s : State) (it : Item) (fs : List CommittedFiring) : State :=
  (fs.zip [0, 1, 2, 3]).foldl (fun s p => s.createEntry it p.2 p.1) s

/-- R47: the window of an item joins the list of its confirm input. -/
def State.createWindow (s : State) (it : Item) (c : Option CommittedConfirm) : State :=
  match c with
  | none => s
  | some k =>
    s.mapWindows k.input (insertWindow
      { rid := it.rid, lane := it.lane, tag := it.tag, openPos := it.entryPos + k.openOffset
        closePos := it.entryPos + k.closeOffset, expect := k.expect, phase := .pending })

/-- R45 to R47: the committed disposition is written, its entries and window are created, the item is COMMITTED and its
COMMIT flag is pending; too few free entries leave it skipped. -/
def State.commitDecision (s : State) (it : Item) (d : Decision) : State :=
  let fs := d.firings.map s.lanes[it.lane].config.commitFiring
  let cf := d.confirm.map ConfirmSpec.commit
  if fs.length ≤ s.schedule.free then
    let c : Committed := { source := d.source, index := d.index, substituted := d.substituted, firings := fs, confirm := cf }
    (((s.createEntries it fs).createWindow it cf).mapRecord it.rid
      (fun it => { it with state := .committed, committed := some c })).raiseItem it.rid .commit
  else
    let c : Committed := { source := d.source, index := d.index, substituted := d.substituted, firings := [], confirm := none }
    (s.mapRecord it.rid
      (fun it => { it with state := .committed, committed := some c, skipped := true })).raiseItem it.rid .commit

/-- R15, R43: an OPEN item of a lane queue is committed; any other is left alone. -/
def State.commit (s : State) (l : LaneId) (rid : Nat) : State :=
  match s.items.queues[l].find? (fun it => it.rid = rid) with
  | none => s
  | some it => if it.state = .opened then s.commitDecision it (s.decide it) else s

end Sys2Proof.Machine
end

