-- ==== Sys2Proof/Machine/EntryEdges.lean ====
section
/-! DEFINITION. The Item Table's edges and points (01): jam, exit, leading and trailing edges, creation of a record with
the points that HW has already reached. -/

namespace Sys2Proof.Machine

/-! ### Points (R16, R17) -/

/-- R16: the covering item reaches its jam point: overlength, and cause JAM. -/
def State.jamPoint (s : State) (l : LaneId) (rid : Nat) : State :=
  match s.items.queues[l].find? (fun it => it.rid = rid) with
  | none => s
  | some it =>
    if it.covering ∧ ¬ it.overlength then
      (s.mapRecord rid (fun it => { it with overlength := true })).takeCause l .jam
    else s

/-- R17: an item that leaves its lane queue becomes DONE at once, or PASSED. -/
def State.leaveQueue (s : State) (it : Item) : State :=
  let it' := { it with covering := false }
  if it.workDone then
    ((s.dropRecord it.rid).becomeDone it' it'.summary).push [it'.outcomeEvent it'.summary]
  else
    let s1 := s.dropRecord it.rid
    { s1 with items := { s1.items with passed := s1.items.passed ++ [{ it' with state := .passed }] } }

/-- R17: the oldest item of the queue at its exit point leaves the queue, and the count is reported (R107, log 25); no
other item does (R2). -/
def State.exitPoint (s : State) (l : LaneId) (rid : Nat) : State :=
  match s.items.queues[l] with
  | [] => s
  | it :: _ => if it.rid = rid then (s.leaveQueue it).reportCount l else s

/-! ### Points already reached at creation (R11, R48, R93) -/

/-- How far a position lies past the item's entry position. -/
def Item.offsetOf (it : Item) (p : Pos) : Nat :=
  (p - it.entryPos).toNat

/-- R11: the jam point of an item, where HW has reached it and the item is covering it. -/
def State.dueJam (s : State) (it : Item) : List (Nat × Event) :=
  let c := s.lanes[it.lane].config
  if it.covering ∧ ¬ it.overlength ∧ reached s.position.hw (it.point c.l) then [(c.l, .jam it.lane it.rid)] else []

/-- R11: the decision point of an OPEN item, where HW has reached it. -/
def State.dueDecision (s : State) (it : Item) : List (Nat × Event) :=
  let c := s.lanes[it.lane].config
  if it.state = .opened ∧ reached s.position.hw (it.point c.d) then [(c.d, .decision it.lane it.rid)] else []

/-- R48: the schedule positions of an item that HW has reached. -/
def State.dueSchedule (s : State) (it : Item) : List (Nat × Event) :=
  (s.schedule.positionList.filter (fun e => e.rid = it.rid ∧ reached s.position.hw e.filing)).map
    (fun e => (it.offsetOf e.filing, .schedulePoint e.serial))

/-- R48, R93: the open position or close event of an item's window that HW has reached. -/
def State.dueWindow (s : State) (it : Item) : List (Nat × Event) :=
  allInputs.flatMap (fun i =>
    (s.windows[i].filter (fun w => w.rid = it.rid)).flatMap (fun w =>
      match w.phase with
      | .pending => if reached s.position.hw w.openPos then [(it.offsetOf w.openPos, .windowOpen i w.rid)] else []
      | .opened => if reached s.position.hw w.closeEvent then [(it.offsetOf w.closeEvent, .windowClose i w.rid)] else []
      | .holding => []))

/-- R11: the points of an item that HW has reached and that are still to be taken, but for the exit point. -/
def State.duePoints (s : State) (it : Item) : List (Nat × Event) :=
  s.dueJam it ++ s.dueDecision it ++ s.dueSchedule it ++ s.dueWindow it

/-- The points at the smallest offset: those that may be taken next (R11, R48). -/
def nearest (ps : List (Nat × Event)) : List Event :=
  (ps.filter (fun p => ps.all (fun q => p.1 ≤ q.1))).map (·.2)

/-- What a point taken at creation does. -/
def State.takeCreated (s : State) (e : Event) : State :=
  match e with
  | .jam l rid => s.jamPoint l rid
  | .decision l rid => s.commit l rid
  | .schedulePoint serial => s.schedulePoint serial
  | .windowOpen i rid => s.openWindow i rid
  | .windowClose i rid => s.closeWindow i rid
  | _ => s

/-- R11, R48: the points already reached are taken in ascending order of their offsets, those of equal offset in either
order, the exit point last. An item has at most 13 of them: jam, decision, 4 ON, 4 OFF, open, close, exit. -/
def State.takeReached : Nat → LaneId → Nat → State → State
  | 0, _, _, s => s
  | n + 1, l, rid, s =>
    match s.items.queues[l].find? (fun it => it.rid = rid) with
    | none => s
    | some it =>
      let due := nearest (s.duePoints it)
      let (k, s1) := s.choose due.length
      match due[k]? with
      | some e => State.takeReached n l rid (s1.takeCreated e)
      | none => if reached s.position.hw (it.point s.lanes[l].config.x) then s.exitPoint l rid else s

/-! ### Creation (R5, R10) -/

/-- R5: the entry position: the captured BP, or the newest item's where the capture lies behind it. -/
def State.entryPosition (s : State) (l : LaneId) (c : Capture) : Pos :=
  match s.items.queues[l].getLast? with
  | none => c.bp
  | some it => if before c.bp it.entryPos then it.entryPos else c.bp

/-- R42: the stored verdict a new item takes from the Advance Verdict list. -/
def State.boundVerdict (s : State) (l : LaneId) : Option StoredVerdict :=
  (s.advanceFor l s.lanes[l].nextTag).map (fun e => { index := e.index, source := .advance })

/-- R5: the new record. -/
def State.newItem (s : State) (l : LaneId) (c : Capture) : Item :=
  { rid := s.items.nextRid, lane := l, tag := s.lanes[l].nextTag, state := .opened
    entryPos := s.entryPosition l c, entryTime := c.ts, covering := true, length := none, overlength := false
    stored := s.boundVerdict l, amend := 0, committed := none, skipped := false, result := none
    entryFlag := .notDue, commitFlag := .notDue, outcomeFlag := .notDue }

/-- R10, R42: the record joins the newest end of the queue, an older covering item stops covering, the next tag
advances, an advance verdict is bound and leaves its list. -/
def State.addItem (s : State) (l : LaneId) (it : Item) : State :=
  let q := s.items.queues[l].map (fun it => { it with covering := false }) ++ [it]
  State.mapLane
    (State.dropAdvance
      { s with items := { s.items with queues := tset s.items.queues l q, nextRid := s.items.nextRid + 1 } }
      l it.tag)
    l (fun lane => { lane with nextTag := lane.nextTag + 1 })

/-- R10, R11: a record is created, its ENTRY flag is raised, and its points already reached are taken. -/
def State.createItem (s : State) (l : LaneId) (c : Capture) : State :=
  let it := s.newItem l c
  State.takeReached 16 l it.rid ((s.addItem l it).raiseItem it.rid .entry)

/-! ### Edges (R9, R12, R13) -/

/-- R13: an overrun is counted and offered. -/
def State.overrun (s : State) (l : LaneId) : State :=
  (s.countUntracked l).takeCause l .overrun

/-- R9: a leading edge on a lane's entry input. One in FAULT is counted, and may be an overrun offered in RUN at the moment
of another cause (R112, R117, log 32). -/
def State.leadingEdge (s : State) (l : LaneId) (c : Capture) : State :=
  match s.lanes[l].state with
  | .off => s
  | .run =>
    if !c.fresh then s
    else if s.noRoom l then s.overrun l
    else s.createItem l c
  | .drain => if c.fresh then s.countUntracked l else s
  | .fault => if c.fresh then (s.countUntracked l).overrunSecond l else s

/-- R12: the length a trailing edge gives, a negative difference as 0. -/
def Item.lengthAt (it : Item) (bp : Pos) : Pos :=
  if (bp - it.entryPos).toInt < 0 then 0 else bp - it.entryPos

/-- R12: a trailing edge on a lane's entry input. -/
def State.trailingEdge (s : State) (l : LaneId) (c : Capture) : State :=
  if s.lanes[l].live ∧ c.fresh then
    s.setQueue l (s.items.queues[l].map (fun it =>
      if it.covering then { it with covering := false, length := some (it.lengthAt c.bp) } else it))
  else s

/-- R102: an activation delivered to a lane. -/
def State.laneActivation (s : State) (l : LaneId) (c : Capture) : State :=
  s.leadingEdge l c

/-- R102: a deactivation delivered to a lane clears the entry-blanked flag, or is a trailing edge. -/
def State.laneDeactivation (s : State) (l : LaneId) (c : Capture) : State :=
  if s.lanes[l].blanked then s.mapLane l (fun lane => { lane with blanked := false }) else s.trailingEdge l c

end Sys2Proof.Machine
end

