-- ==== Sys2Proof/Machine/TimerUnit.lean ====
section
/-! DEFINITION. The Timer Unit and the Reaction Table (09): starts, stops, expiries, matching, closures and actions. -/

namespace Sys2Proof.Machine

/-! ### Timers (R145 to R147) -/

/-- R146: a start, or a restart. -/
def Timer.start (t : Timer) : Timer :=
  { t with running := true, remaining := t.period }

/-- R146: a stop. -/
def Timer.stop (t : Timer) : Timer :=
  { t with running := false, remaining := 0 }

/-- R147: what an expiry does to the timer. -/
def Timer.expired (t : Timer) : Timer :=
  match t.mode with
  | .periodic => { t with remaining := t.period }
  | .oneShot => t.stop

/-- R147: the timer's count reaches 0 at a tick taken now. DESIGN CHOICE (log 33): so does the count of a timer of
period 1 ms that was due at this tick and restarted just before it. -/
def Timer.expires (t : Timer) : Bool :=
  t.running && t.remaining ≤ 1

/-- R147, R148: what a tick does to one timer. DESIGN CHOICE, unsafe (log 33): a timer of period 1 ms that was due at
this tick and restarted just before it expires at it, as R147 (a period of 1 ms expires at the first tick after its
start) and R148 (period − 1 ms later) have it, though R148 also says that such a restart leaves no expiry at this
tick. -/
def Timer.ticked (t : Timer) : Timer :=
  if t.expires then t.expired
  else if t.running then { t with remaining := t.remaining - 1 }
  else t

/-- R147: the notice, then the trigger, of a timer that an expiry has updated. -/
def State.reportExpiry (s : State) (t : TimerId) : State :=
  let s1 :=
    if s.notices.settings.timersOn.getLsbD t then s.produce .timer (natByte t :: wordBytes s.position.ts) else s
  s1.push [.trigger (.timer t)]

/-- R147: the Timer Unit takes the tick against all four timers; the timers that expire are reported after that, in
either order (R155). -/
def State.tickTimers (s : State) : State :=
  State.pushEach { s with timers := tmap Timer.ticked s.timers }
    ((allTimers.filter (fun t => s.timers[t].expires)).map (fun t => .expired t))

/-! ### Reactions (R152 to R155) -/

/-- R152: whether a trigger event matches a trigger. -/
def Trigger.matchedBy (t : Trigger) (e : TriggerEvent) : Bool :=
  match t, e with
  | .input i, .input j _ => i = j
  | .timer t, .timer u => t = u
  | .outcome lane r, .outcome l q => r = q && (lane = Option.none || lane = some l)
  | .laneFault l, .laneFault m => l = m
  | _, _ => false

/-- R153: the starting set, every enabled reaction whose trigger matches. -/
def State.matching (s : State) (e : TriggerEvent) : List ReactionId :=
  allReactions.filter (fun r => s.reactions[r].enabled && s.reactions[r].trigger.matchedBy e)

/-- R153: the enabled reactions that stand in a set or in the chain set of one of its members. -/
def State.chained (s : State) (set : List ReactionId) : List ReactionId :=
  allReactions.filter (fun r =>
    s.reactions[r].enabled && (set.contains r || set.any (fun m => s.reactions[m].chain.getLsbD r)))

/-- R153: a set closed over the chain sets; 12 rounds reach every one of the 12 reactions that can be added. -/
def State.closeOver : Nat → State → List ReactionId → List ReactionId
  | 0, _, set => set
  | n + 1, s, set => State.closeOver n s (s.chained set)

/-- R153: the closure that starts from a set, in ascending index. -/
def State.closure (s : State) (start : List ReactionId) : List ReactionId :=
  State.closeOver 12 s start

/-- R154: a REACTION notice of CAPTURE. -/
def State.captureNotice (s : State) (r : ReactionId) : List Byte :=
  natByte r :: 1 :: (wordBytes s.position.bp ++ wordBytes s.position.hw ++ wordBytes s.position.ts)

/-- R154: a REACTION notice of NOTIFY, the three fields sent as 0 (section 12.3). -/
def notifyNotice (r : ReactionId) : List Byte :=
  natByte r :: 0 :: (wordBytes 0 ++ wordBytes 0 ++ wordBytes 0)

/-- R154: reaction `r` performs its action. -/
def State.perform (s : State) (r : ReactionId) : State :=
  match s.reactions[r].action with
  | .none => s
  | .outSet o => s.outSet o
  | .outClear o => s.outClear o
  | .outPulse o ms => s.outPulse o ms
  | .timerStart t => s.mapTimer t Timer.start
  | .timerStop t => s.mapTimer t Timer.stop
  | .laneHold l => s.laneHold l
  | .capture => s.produce .reaction (s.captureNotice r)
  | .notify => s.produce .reaction (notifyNotice r)

/-- R153: a ONCE reaction that has acted becomes disabled. -/
def State.disableOnce (s : State) (r : ReactionId) : State :=
  s.mapReaction r (fun x => if x.mode = .once then { x with enabled := false } else x)

/-- R153: the reactions of a closure act in ascending index; its ONCE reactions then become disabled. -/
def State.performAll (s : State) (closure : List ReactionId) : State :=
  closure.foldl State.disableOnce (closure.foldl State.perform s)

/-- R152, R153: a trigger event is taken. -/
def State.takeTrigger (s : State) (e : TriggerEvent) : State :=
  s.performAll (s.closure (s.matching e))

end Sys2Proof.Machine
end

