-- ==== Sys2Proof/Machine/InputConditioner.lean ====
section
/-! DEFINITION. The Input Conditioner (08): comparisons, runs, samples, accepted transitions and their delivery. -/

namespace Sys2Proof.Machine

/-- R134: the edge of a change to a level. -/
def Input.edgeTo (x : Input) (level : Level) : Edge :=
  if level = x.active then .activation else .deactivation

/-- R102, R138: the lane an ENTRY input is delivered to: one outside OFF whose configuration names it, as the lanes stand
when the transition is accepted. So a run that a SET_POSITION found in progress, and that is accepted after an ARM in
between, reaches the armed lane with the old BP (log 29); R128 has its edge reach no lane, all lanes being OFF. -/
def State.entryLane (s : State) (i : InputId) : Option LaneId :=
  allLanes.find? (fun l => s.lanes[l].live && s.lanes[l].config.entryInput = some i)

/-- R138: an accepted transition of an ENTRY input. -/
def State.deliverEntry (s : State) (i : InputId) (e : Edge) (c : Capture) : State :=
  match s.entryLane i, e with
  | none, _ => s
  | some l, .activation => s.laneActivation l c
  | some l, .deactivation => s.laneDeactivation l c

/-- R86, R139: an accepted transition of a CONFIRM input; a fresh activation is a confirmation edge. -/
def State.deliverConfirm (s : State) (i : InputId) (e : Edge) (c : Capture) : State :=
  s.endRun i (if e = .activation ∧ c.fresh then some c else none)

/-- R141: an accepted transition of a GENERAL input: the INPUT notice, then the trigger. -/
def State.deliverGeneral (s : State) (i : InputId) (e : Edge) (c : Capture) : State :=
  if s.inputs[i].edge.takes e then
    let s1 :=
      if s.notices.settings.inputsOn.getLsbD i then
        s.produce .input (natByte i :: e.code :: (wordBytes c.bp ++ wordBytes c.ts))
      else s
    s1.push [.trigger (.input i e)]
  else s

/-- R134, R138 to R141: an accepted transition to `level` with its capture: the run ends, the accepted level changes, and
the transition is delivered by the input's role. -/
def State.accept (s : State) (i : InputId) (level : Level) (c : Capture) : State :=
  let e := s.inputs[i].edgeTo level
  let s1 := s.mapInput i (fun x => { x with accepted := level, run := none, mark := .taken })
  match s.inputs[i].role with
  | .unused => s1
  | .entry => s1.deliverEntry i e c
  | .confirm => s1.deliverConfirm i e c
  | .inhibit => s1.reportInhibit s.inhibit
  | .general => s1.deliverGeneral i e c

/-- R133: the first comparison after a reset takes the raw level without a transition (log 10). -/
def State.settleInput (s : State) (i : InputId) : State :=
  if s.inputs[i].awaiting then
    s.mapInput i (fun x => { x with accepted := s.pins[i], awaiting := false, mark := .taken })
  else s

/-- R143, R144: the raw level that a SET_INPUT of this moment has taken, shown after it: the accepted level is that level
without a transition, and the combined INHIBIT state is worked out anew. -/
def State.takeRequested (s : State) (i : InputId) (raw : Level) : State :=
  (s.mapInput i (fun x => { x with accepted := raw })).reportInhibit s.inhibit

/-- R135, R137: a comparison of an input's raw level with its accepted level, one at each advance of TS; none while a run
is in progress. -/
def State.compare (s : State) (i : InputId) (raw : Level) : State :=
  let s1 := s.showPin i raw
  let x := s.inputs[i]
  if x.awaiting then s1.settleInput i
  else if x.run.isSome then s1
  else
    match x.mark with
    | .taken => s1
    | .requested => s1.takeRequested i raw
    | .due =>
      if raw = x.accepted then s1.mapInput i (fun x => { x with mark := .taken })
      else if x.filterOn then
        s1.mapInput i (fun x => { x with
          mark := .taken, run := some { candidate := raw, count := 1, capture := s.position.capture } })
      else s1.accept i raw s.position.capture

/-- R136: a run is abandoned, which is reported for a CONFIRM input. -/
def State.abandonRun (s : State) (i : InputId) : State :=
  let s1 := s.mapInput i (fun x => { x with run := none, mark := .taken })
  if s.inputs[i].role = .confirm then s1.endRun i none else s1

/-- R136: a sample of a run in progress that shows a level. -/
def State.sample (s : State) (i : InputId) (r : Run) (level : Level) : State :=
  let s1 := s.showPin i level
  if level = r.candidate then
    if s.inputs[i].stable ≤ r.count + 1 then s1.accept i r.candidate r.capture
    else s1.mapInput i (fun x => { x with run := some { r with count := r.count + 1 }, mark := .taken })
  else s1.abandonRun i

/-- R136: the run of an input whose next sample falls at the present advance of TS. -/
def State.runDue (s : State) (i : InputId) : Option Run :=
  match s.inputs[i].run with
  | none => none
  | some r => if s.inputs[i].sampleDue s.position.ts r then some r else none

/-- R136: a sample that shows the candidate level; nothing where none is due. -/
def State.sampleCandidate (s : State) (i : InputId) : State :=
  match s.runDue i with
  | none => s
  | some r => s.sample i r r.candidate

/-- R136: a sample that shows the accepted level; nothing where none is due. -/
def State.sampleAccepted (s : State) (i : InputId) : State :=
  match s.runDue i with
  | none => s
  | some r => s.sample i r r.candidate.flip

/-- R136, R137: the acceptance of a run, or of an unfiltered change. An input with its filter ON and no run has nothing
to accept, and neither has one whose level of this moment has been taken. -/
def State.transition (s : State) (i : InputId) : State :=
  if s.inputs[i].run.isSome then s.sampleCandidate i
  else if s.inputs[i].filterOn ∨ s.inputs[i].mark ≠ .due then s
  else s.compare i s.inputs[i].accepted.flip

/-- R135 to R137: whether a comparison or sample with the level at the pin is still due and does something. -/
def State.sampleStirs (s : State) (i : InputId) : Bool :=
  if s.inputs[i].run.isSome then (s.runDue i).isSome
  else s.inputs[i].mark = .due && s.inputs[i].accepted != s.pins[i]

/-- R135 to R137: the comparison or sample that is due, with the level at the pin. -/
def State.takeSample (s : State) (i : InputId) : State :=
  match s.runDue i with
  | none => s.compare i s.pins[i]
  | some r => s.sample i r s.pins[i]

end Sys2Proof.Machine
end

