-- ==== Sys2Proof/Machine/PositionUnit.lean ====
section
/-! DEFINITION. The Position Unit (07): steps, what a step on new ground reaches, decoding of the channels, the tick and
the shares of it that the blocks take. -/

namespace Sys2Proof.Machine

/-! ### Steps (R123, R126) -/

/-- R123: the step is on new ground. -/
def Position.atHighWater (p : Position) : Bool :=
  p.bp = p.hw

/-- R123: a forward step. -/
def Position.forward (p : Position) : Position :=
  { p with bp := p.bp + 1, hw := if p.atHighWater then p.hw + 1 else p.hw, direction := .forward }

/-- R123: the largest reverse depth. -/
def deepest : Pos := 0x7FFFFFFF

/-- R123: a reverse step; at the largest depth HW moves back with BP. -/
def Position.back (p : Position) : Position :=
  { p with bp := p.bp - 1, hw := if p.rd = deepest then p.hw - 1 else p.hw, direction := .reverse }

/-- R126: a reverse step takes RD from RL to RL + 1. -/
def Position.crossesLimit (p : Position) : Bool :=
  p.rd = p.rl.setWidth 32 && p.rd ≠ deepest

/-! ### What a step on new ground reaches (R124) -/

/-- R14, R18: the decision points of a lane's OPEN items that HW has reached, oldest first. -/
def State.decisionsDue (s : State) (l : LaneId) : List Event :=
  (s.items.queues[l].filter (fun it =>
    it.state = .opened ∧ reached s.position.hw (it.point s.lanes[l].config.d))).map (fun it => .decision l it.rid)

/-- R14, R18: the exit points of a lane's items that HW has reached, oldest first. -/
def State.exitsDue (s : State) (l : LaneId) : List Event :=
  (s.items.queues[l].filter (fun it => reached s.position.hw (it.point s.lanes[l].config.x))).map
    (fun it => .exitPoint l it.rid)

/-- R14, R16: the jam point of a lane's covering item, where HW has reached it. -/
def State.jamsDue (s : State) (l : LaneId) : List Event :=
  (s.items.queues[l].filter (fun it =>
    it.covering ∧ ¬ it.overlength ∧ reached s.position.hw (it.point s.lanes[l].config.l))).map (fun it => .jam l it.rid)

/-- R55: the schedule positions that HW has reached. -/
def State.scheduleDue (s : State) : List Event :=
  (s.schedule.positionList.filter (fun e => reached s.position.hw e.filing)).map (fun e => .schedulePoint e.serial)

/-- R85: the open positions and close events of an input's windows that HW has reached. -/
def State.windowsDue (s : State) (i : InputId) : List Event :=
  (s.windows[i].filter (fun w => w.phase = .pending ∧ reached s.position.hw w.openPos)).map
      (fun w => .windowOpen i w.rid) ++
    (s.windows[i].filter (fun w => w.phase = .opened ∧ reached s.position.hw w.closeEvent)).map
      (fun w => .windowClose i w.rid)

/-- R18, R124: a step on new ground is offered: the points of a lane of one kind in tag order, all else in either
order. -/
def State.offerStep (s : State) : State :=
  let s1 := allLanes.foldl (fun acc l =>
    ((acc.push (s.decisionsDue l)).push (s.exitsDue l)).pushEach (s.jamsDue l)) s
  (s1.pushEach s.scheduleDue).pushEach (allInputs.flatMap s.windowsDue)

/-- R123, R124: one forward step. -/
def State.stepForward (s : State) : State :=
  let s1 := { s with position := s.position.forward }
  if s.position.atHighWater then s1.offerStep else s1

/-- R123, R126: one reverse step; REVERSE is offered when it crosses the reverse limit. -/
def State.stepReverse (s : State) : State :=
  let s1 := { s with position := s.position.back }
  if s.position.crossesLimit then s1.offerAll .reverse else s1

/-! ### Decoding (R119 to R122) -/

/-- R120: the state after EA, EB in the cycle 00, 10, 11, 01 of forward travel. -/
def cycleNext : Level → Level → Level × Level
  | .low, .low => (.high, .low)
  | .high, .low => (.high, .high)
  | .high, .high => (.low, .high)
  | .low, .high => (.low, .low)

/-- R120: the state before EA, EB in the cycle. -/
def cyclePrev : Level → Level → Level × Level
  | .high, .low => (.low, .low)
  | .high, .high => (.high, .low)
  | .low, .high => (.high, .high)
  | .low, .low => (.low, .high)

/-- R119: the decoder's reference becomes a pair of levels. -/
def State.setReference (s : State) (r : Level × Level) : State :=
  { s with position := { s.position with ea := r.1, eb := r.2 } }

/-- The pins EA and EB have shown a pair of levels for as long as the filters need (log 6, log 7). -/
def State.setPins (s : State) (r : Level × Level) : State :=
  { s with position := { s.position with eaPin := r.1, ebPin := r.2, eaRun := 0, ebRun := 0 } }

/-- A step row: pins and filtered levels become a pair of levels without a transition (log 6). -/
def State.setChannels (s : State) (r : Level × Level) : State :=
  (s.setPins r).setReference r

/-- R122: an illegal transition sets the encoder fault flag and offers ENCODER. -/
def State.illegal (s : State) : State :=
  State.offerAll { s with position := { s.position with encoderFault := true } } .encoder

/-- R120: a transition of the pair in the quadrature modes, `old` the pair before it. -/
def State.quadrature (s : State) (old : Level × Level) : State :=
  let new := (s.position.ea, s.position.eb)
  if old.1 ≠ new.1 ∧ old.2 ≠ new.2 then s.illegal
  else
    match s.position.mode with
    | .quad1 =>
      if old = (.low, .high) ∧ new = (.low, .low) then s.stepForward
      else if old = (.low, .low) ∧ new = (.low, .high) then s.stepReverse
      else s
    | _ =>
      if new = cycleNext old.1 old.2 then s.stepForward
      else if new = cyclePrev old.1 old.2 then s.stepReverse
      else s

/-- R121: a rising transition of EA is one step in modes STEP and COUNT. -/
def State.pulseStep (s : State) (old : Level × Level) : State :=
  if old.1 = .low ∧ s.position.ea = .high then
    if s.position.mode = .step ∧ s.position.eb = .high then s.stepReverse else s.stepForward
  else s

/-- R119 to R122: the filtered levels of the channels become a pair. -/
def State.decode (s : State) (new : Level × Level) : State :=
  let old := (s.position.ea, s.position.eb)
  let s1 := s.setReference new
  match s.position.mode with
  | .quad4 => s1.quadrature old
  | .quad1 => s1.quadrature old
  | .step => s1.pulseStep old
  | .count => s1.pulseStep old

/-! ### The filters of the channels (R119) -/

/-- R119: one sample of a channel, the filtered level and the count of samples that showed another one: the third in a
row is accepted, and the filtered level shown again discards those before it. -/
def filterSample (level pin : Level) (run : Nat) : Level × Nat :=
  if pin = level then (level, 0)
  else if run + 1 < Config.channelSamples then (level, run + 1)
  else (pin, 0)

/-- R119: the two channels are sampled at one cycle of CLKIN; changes accepted at one sample reach the decoder as one
transition. -/
def State.sampleChannels (s : State) : State :=
  let a := filterSample s.position.ea s.position.eaPin s.position.eaRun
  let b := filterSample s.position.eb s.position.ebPin s.position.ebRun
  let s1 := { s with position := { s.position with eaRun := a.2, ebRun := b.2 } }
  if (a.1, b.1) = (s.position.ea, s.position.eb) then s1 else s1.decode (a.1, b.1)

/-- The level at the pin of a channel changes. -/
def State.flipChannel (s : State) (c : Channel) : State :=
  match c with
  | .ea => { s with position := { s.position with eaPin := s.position.eaPin.flip } }
  | .eb => { s with position := { s.position with ebPin := s.position.ebPin.flip } }

/-- The levels of the channels after a forward step, in the mode (R120, R121, log 6). -/
def Position.forwardLevels (p : Position) : Level × Level :=
  match p.mode with
  | .quad4 => cycleNext p.ea p.eb
  | .quad1 => (.low, .low)
  | .step => (.high, .low)
  | .count => (.high, p.eb)

/-- The levels of the channels after a reverse step, in the mode; COUNT has none (R120, R121, log 6). -/
def Position.reverseLevels (p : Position) : Option (Level × Level) :=
  match p.mode with
  | .quad4 => some (cyclePrev p.ea p.eb)
  | .quad1 => some (.low, .high)
  | .step => some (.high, .high)
  | .count => none

/-! ### The tick (R131) -/

/-- R60: the TIME entries whose OFF time TS has reached. -/
def State.offTimesDue (s : State) : List Event :=
  (s.schedule.timeList.filter (fun e => reached s.position.ts e.filing)).map (fun e => .offTime e.serial)

/-- R78: the pulses whose end time TS has reached. -/
def State.pulsesDue (s : State) : List Event :=
  (allOutputs.filter s.pulseDue).map (fun o => .pulseEnd o)

/-- R131, R147: the Timer Unit's share of the tick, when a timer runs or an item that ends at this tick may start one
(R148); none when it has taken this tick already (log 12). -/
def State.timersDue (s : State) : List Event :=
  if s.position.timersTaken then []
  else if allTimers.any (fun t => s.timers[t].running) || !s.offTimesDue.isEmpty then [.timersTick]
  else []

/-- R168: the acknowledgement timer's share of the tick, when it runs or took the tick early. -/
def State.ackDue (s : State) : List Event :=
  if s.notices.ackTimer.isSome || s.notices.ackEarly then [.ackTick] else []

/-- R131: the tick is handed to the four blocks, in either order. -/
def State.tick (s : State) : State :=
  State.pushEach { s with position := { s.position with tickDue := false, timersTaken := false } }
    (s.offTimesDue ++ s.pulsesDue ++ s.timersDue ++ s.ackDue)

/-- R130, R131: TS and the sub-millisecond count advance; a roll-over makes the tick due. -/
def Position.advance (p : Position) : Position :=
  if p.subMs < 999 then { p with ts := p.ts + 1, subMs := p.subMs + 1 }
  else { p with ts := p.ts + 1, subMs := 0, tickDue := true }

/-- R168: the acknowledgement timer takes its share of the tick. -/
def State.ackTick (s : State) : State :=
  { s with notices := s.notices.tick }

end Sys2Proof.Machine
end

