-- ==== Sys2Proof/Machine/Events.lean ====
section
/-! DEFINITION. The events of one moment: what each does when it is taken, how they are taken one after the other, the
grant of the transmitter at the end, and what a µs has left when it ends. -/

namespace Sys2Proof.Machine

/-- An event is taken. -/
def State.handle (s : State) (e : Event) : State :=
  match e with
  | .decision l rid => s.commit l rid
  | .jam l rid => s.jamPoint l rid
  | .exitPoint l rid => s.exitPoint l rid
  | .schedulePoint serial => s.schedulePoint serial
  | .windowOpen i rid => s.openWindow i rid
  | .windowClose i rid => s.closeWindow i rid
  | .offTime serial => s.offTime serial
  | .pulseEnd o => s.endPulse o
  | .timersTick => s.tickTimers
  | .expired t => s.reportExpiry t
  | .ackTick => s.ackTick
  | .cut serial => s.cutEntry serial
  | .inhibitOutputs => s.inhibitOutputs
  | .offer l c => s.takeCause l c
  | .trigger t => s.takeTrigger t

/-- The first event of chain `k`, and the agenda without it; a chain leaves the agenda with its last event. -/
def takeEvent : Nat → List (List Event) → Option (Event × List (List Event))
  | _, [] => none
  | 0, [] :: _ => none
  | 0, [e] :: rest => some (e, rest)
  | 0, (e :: e' :: es) :: rest => some (e, (e' :: es) :: rest)
  | k + 1, c :: rest => (takeEvent k rest).map (fun p => (p.1, c :: p.2))

/-- One event of the agenda, freely chosen among the chains' first events (log 2), is taken. -/
def State.takeOne (s : State) : State :=
  let (k, s1) := s.choose s.agenda.length
  match takeEvent k s1.agenda with
  | none => { s1 with agenda := [] }
  | some (e, rest) => State.handle { s1 with agenda := rest } e

/-- The events of a moment are taken one after the other, with those they give, until none is left (log 3). -/
def State.settle : Nat → State → State
  | 0, s => s
  | n + 1, s =>
    match s.agenda with
    | [] => s
    | _ :: _ => State.settle n s.takeOne

/-- R184: whether a reply waits for the transmitter. -/
def Link.replyWaits (l : Link) : Bool :=
  match l.slot with
  | none => false
  | some r => !r.begun

/-- R184: the reply in the slot begins to be sent. -/
def Link.beginReply (l : Link) : Link :=
  match l.slot with
  | none => l
  | some r => { l with slot := some { r with begun := true }, transmitter := .reply r.frame }

/-- R184: the arbiter's grant: when the transmitter is IDLE, a waiting reply first, else the Notice Queue. -/
def State.grant (s : State) : State :=
  if s.link.transmitter ≠ .idle then s
  else if s.link.replyWaits then { s with link := s.link.beginReply }
  else s.sendNotice

/-- The end of an event that comes from outside a moment: the events it hands on, then the grant (R184, log 31). -/
def State.finish (s : State) : State :=
  (State.settle Config.momentBound s).grant

/-- R117, R119: an event taken at `s` has ended in `t`; it may have been a transition of the channels, and no two of them
fall at one sample (log 32). -/
def State.ended (s t : State) : State :=
  if t.position.ea = s.position.ea ∧ t.position.eb = s.position.eb then t else t.stepEnded

/-- R119: samples of the channels, one after the other, each with the events of its moment and the grant at their
end. -/
def State.runChannels : Nat → State → State
  | 0, s => s
  | n + 1, s => State.runChannels n (s.ended s.sampleChannels.finish)

/-! ### What TS_ADVANCE finds left of a µs -/

/-- What may be left of a µs when it ends: a sample of the channels (R119), the tick (R131), and the comparison or
sample of an input (R135 to R137). -/
inductive Leftover
  | channels
  | tick
  | input (i : InputId)
  deriving DecidableEq, Repr

/-- What is left of the present µs: a sample of the channels while one does something, the tick when it is due, and the
inputs whose comparison or sample is due and does something with the levels at the pins (log 7, log 11, log 12). -/
def State.leftovers (s : State) : List Leftover :=
  (if s.position.atRest then [] else [.channels]) ++ (if s.position.tickDue then [.tick] else []) ++
    (allInputs.filter s.sampleStirs).map .input

/-- One of them is taken. -/
def State.takeLeftover (s : State) : Leftover → State
  | .channels => s.sampleChannels
  | .tick => s.tick
  | .input i => s.takeSample i

/-- R61, R62, R92, R125, R131, R135, R144: what is left of a µs is taken one after the other in either order, which is a
free value (log 2): a sample of the channels with its step, the tick, and each input's comparison or sample. Each is an
event with those it hands on and the grant at their end (R184, log 31). -/
def State.takeLeftovers : Nat → State → State
  | 0, s => s
  | n + 1, s =>
    let (k, s1) := s.choose s.leftovers.length
    match s.leftovers[k]? with
    | none => s
    | some e => State.takeLeftovers n (s1.ended (s1.takeLeftover e).finish)

end Sys2Proof.Machine
end

