-- ==== Sys2Proof/Machine/Requests.lean ====
section
/-! DEFINITION. The requests of the blocks: for each its checks in the order its rule gives, its effect, and its reply's
payload, the status byte first (R183, section 12.3). -/

namespace Sys2Proof.Machine

/-- The status of a reply (R183). -/
inductive Status
  | ok
  | unknownKind
  | badLength
  | badValue
  | wrongState
  | unknownItem
  | late
  | full
  | inUse
  | geometry
  deriving DecidableEq, Repr

/-- R183: the codes. -/
def Status.code : Status → Byte
  | .ok => 0
  | .unknownKind => 1
  | .badLength => 2
  | .badValue => 3
  | .wrongState => 4
  | .unknownItem => 5
  | .late => 6
  | .full => 7
  | .inUse => 8
  | .geometry => 9

/-- A reply's payload and the state after the request. -/
abbrev Answer := List Byte × State

/-- R182, R192: a refused request changes nothing and is answered with its status alone. -/
def State.refuse (s : State) (st : Status) : Answer :=
  ([st.code], s)

/-- A request on a thing named by a byte, refused with BAD_VALUE when the byte names none. -/
def State.named (s : State) (n : Nat) (b : Byte) (f : Fin n → Answer) : Answer :=
  match finOf n b with
  | none => s.refuse .badValue
  | some i => f i

/-! ### Notice Queue (R169, R173) -/

/-- R169: ACK_NOTICE. -/
def State.reqAckNotice (s : State) (number : Byte) : Answer :=
  let k := s.notices.covered number
  let s' := s.ackNotice number
  ([Status.ok.code, natByte k, natByte ((s.notices.sent.take k).filter (·.frees)).length,
    natByte (s.notices.sent.length - k)], s')

/-- R173: the settings a SET_NOTICE payload writes, none when a field is out of range (log 18, log 19). -/
def noticeSettingsOf (f : NoticeFields) : Option NoticeSettings :=
  match finOf 4 f.levelItem, finOf 4 f.levelLane, finOf 4 f.levelInput, finOf 4 f.levelTimer, finOf 4 f.levelReaction,
    finOf 4 f.levelConfirm with
  | some item, some lane, some input, some timer, some reaction, some confirm =>
    if 1 ≤ f.window.toNat ∧ f.window.toNat ≤ 8 ∧ 10 ≤ f.timeout.toNat ∧ f.timeout.toNat ≤ 2000 ∧
        1 ≤ f.retryLimit.toNat ∧ f.retryLimit.toNat ≤ 15 ∧ f.confirm.toNat ≤ 1 then
      some
        { entryOn := f.subKinds.getLsbD 0, commitOn := f.subKinds.getLsbD 1, outcomeOn := f.subKinds.getLsbD 2
          inputsOn := f.inputs, timersOn := f.timers.setWidth 4, confirmOn := f.confirm = 1
          levelItem := item, levelLane := lane, levelInput := input, levelTimer := timer, levelReaction := reaction
          levelConfirm := confirm, window := f.window.toNat, timeout := f.timeout.toNat
          retryLimit := f.retryLimit.toNat }
    else none
  | _, _, _, _, _, _ => none

/-- R173: SET_NOTICE; admission then runs. -/
def State.reqSetNotice (s : State) (f : NoticeFields) : Answer :=
  match noticeSettingsOf f with
  | none => s.refuse .badValue
  | some n => ([Status.ok.code], State.admitAll { s with notices := { s.notices with settings := n } })

/-! ### Lane Controller (R99 to R110) -/

/-- R98: the largest offset. -/
def maxOffset : Nat := 1048575

/-- R98, R190: an absent or named input or output; none when the byte is neither. -/
def absentOr (n : Nat) (b : Byte) : Option (Option (Fin n)) :=
  if b = absentByte then some none else (finOf n b).map some

/-- R99, section 12.3: a station; none when a present one is out of range. -/
def stationOf (f : StationField) : Option (Option Station) :=
  if f.offset = absentWord then some none
  else
    match finOf 16 f.output with
    | none => none
    | some o =>
      if 1 ≤ f.offset.toNat ∧ f.offset.toNat ≤ maxOffset then some (some { offset := f.offset.toNat, output := o })
      else none

/-- R99: the configuration a SET_LANE payload writes, none when a field is out of range. -/
def laneConfigOf (f : LaneFields) : Option LaneConfig :=
  match absentOr 16 f.entryInput, stationOf f.station0, stationOf f.station1, stationOf f.station2, stationOf f.station3,
    finOf 16 f.default, absentOr 16 f.holdOutput with
  | some entry, some s0, some s1, some s2, some s3, some dflt, some hold =>
    if f.d.toNat ≤ maxOffset ∧ f.x.toNat ≤ maxOffset ∧ f.l.toNat ≤ maxOffset ∧ 1 ≤ f.limit.toNat ∧
        f.limit.toNat ≤ 192 ∧ f.holdMark.toNat ≤ 192 then
      some
        { entryInput := entry, d := f.d.toNat, x := f.x.toNat, l := f.l.toNat, stations := #v[s0, s1, s2, s3]
          default := dflt, limit := f.limit.toNat, holdOutput := hold, holdMark := f.holdMark.toNat }
    else none
  | _, _, _, _, _, _, _ => none

/-- R99: SET_LANE. -/
def State.reqSetLane (s : State) (lane : Byte) (f : LaneFields) : Answer :=
  s.named 4 lane (fun l =>
    match laneConfigOf f with
    | none => s.refuse .badValue
    | some c =>
      if s.lanes[l].live then s.refuse .wrongState
      else ([Status.ok.code], s.mapLane l (fun x => { x with config := c })))

/-- R100: the records of a lane in the retired list. -/
def State.retiredCount (s : State) (l : LaneId) : Nat :=
  (s.items.retired.filter (fun it => it.lane = l)).length

/-- R100: the state part of the GET_LANE reply. -/
def State.laneStateBytes (s : State) (l : LaneId) : List Byte :=
  [s.lanes[l].state.code, s.lanes[l].causes.code, firstCauseCode s.lanes[l].first,
    flagByte [s.lanes[l].blanked, s.holdCondition l]] ++
    natHalf s.lanes[l].untracked ++ halfBytes s.lanes[l].nextTag ++
    [natByte (s.queueCount l), natByte (s.retiredCount l), natByte s.verdicts.advance[l].length]

/-- R100: GET_LANE. -/
def State.reqGetLane (s : State) (lane : Byte) : Answer :=
  s.named 4 lane (fun l =>
    ([Status.ok.code, natByte l] ++ s.lanes[l].config.bytes ++ s.laneStateBytes l, s))

/-- R103: the entry input is set and has role ENTRY. -/
def State.armEntry (s : State) (c : LaneConfig) : Bool :=
  match c.entryInput with
  | none => false
  | some i => s.inputs[i].role = .entry

/-- R103: no other lane in RUN, DRAIN or FAULT names the same entry input. -/
def State.armEntryFree (s : State) (l : LaneId) : Bool :=
  allLanes.all (fun m => m = l || !s.lanes[m].live || s.lanes[m].config.entryInput ≠ s.lanes[l].config.entryInput)

/-- R103: every present station meets a condition. -/
def LaneConfig.allStations (c : LaneConfig) (p : Station → Bool) : Bool :=
  c.stations.toList.all (fun st => st.all p)

/-- R103: the hold output, if present, has role HOLD for this lane. -/
def State.armHold (s : State) (l : LaneId) : Bool :=
  match s.lanes[l].config.holdOutput with
  | none => true
  | some o => s.outputs[o].role = .hold && s.outputs[o].lane = natByte l

/-- R103: the nine checks in order, each with the status of its failure. -/
def State.armChecks (s : State) (l : LaneId) : List (Status × Bool) :=
  let c := s.lanes[l].config
  [(.geometry, s.armEntry c),
   (.inUse, s.armEntryFree l),
   (.geometry, c.d ≠ 0 && c.x ≠ 0 && c.l ≠ 0 && c.d < c.x && c.l < c.x),
   (.geometry, c.allStations (fun st => c.d < st.offset && st.offset < c.x)),
   (.geometry, c.allStations (fun st => s.outputs[st.output].role = .actuator)),
   (.inUse, c.allStations (fun st => !s.outputs[st.output].testHold)),
   (.geometry, s.armHold l),
   (.geometry, s.valid l s.verdicts.dispositions[c.default]),
   (.wrongState, !s.position.beyondLimit)]

/-- The first failing check with its number, counted from `n`. -/
def firstFailing (n : Nat) : List (Status × Bool) → Option (Status × Nat)
  | [] => none
  | (st, ok) :: rest => if ok then firstFailing (n + 1) rest else some (st, n)

/-- R105: the entry-blanked flag a successful ARM leaves. -/
def State.armBlanked (s : State) (l : LaneId) : Bool :=
  match s.lanes[l].config.entryInput with
  | none => false
  | some i => s.inputs[i].acceptedActive && !s.items.queues[l].any (·.covering)

/-- R104: an ARM that passes its checks. -/
def State.armLane (s : State) (l : LaneId) : State :=
  let blanked := s.armBlanked l
  State.toLaneState
    (State.mapLane { s with position := { s.position with encoderFault := false } } l
      (fun lane => { lane with causes := .empty, first := none, untracked := 0, blanked := blanked }))
    l .run

/-- R104: the OK reply of ARM. -/
def State.armReply (s : State) (l : LaneId) : List Byte :=
  [Status.ok.code, s.lanes[l].state.code, flagByte [s.lanes[l].blanked]]

/-- R103, R104: ARM; one refused before its checks has no check number (log 28). -/
def State.reqArm (s : State) (lane : Byte) : Answer :=
  s.named 4 lane (fun l =>
    if s.lanes[l].state = .run then (s.armReply l, s)
    else
      match firstFailing 1 (s.armChecks l) with
      | some (st, k) => ([st.code, natByte k], s)
      | none => ((s.armLane l).armReply l, s.armLane l))

/-- R106: the reply of DISARM with the state of the lane. -/
def State.disarmReply (s : State) (l : LaneId) : Answer :=
  ([Status.ok.code, s.lanes[l].state.code], s)

/-- R106: DISARM. -/
def State.reqDisarm (s : State) (lane : Byte) : Answer :=
  s.named 4 lane (fun l =>
    match s.lanes[l].state with
    | .off => s.disarmReply l
    | .drain => s.disarmReply l
    | .run =>
      if s.queueCount l = 0 then (s.enterOff l).disarmReply l else (s.toLaneState l .drain).disarmReply l
    | .fault =>
      if s.queueCount l = 0 then (s.enterOff l).disarmReply l
      else if s.position.beyondLimit then s.refuse .wrongState
      else (s.toLaneState l .drain).disarmReply l)

/-- R110: CLEAR. -/
def State.reqClear (s : State) (lane : Byte) : Answer :=
  s.named 4 lane (fun l =>
    ([Status.ok.code, natByte (s.items.ofLane l).length], (s.discardLane l).enterOff l))

/-! ### Verdict Unit (R30 to R39) -/

/-- R29, R30: a firing, none when a field is out of range. -/
def firingOf (f : FiringField) : Option Firing :=
  match finOf 4 f.station, widthKindOf f.widthKind with
  | some st, some k =>
    if -4096 ≤ f.adjust.toInt ∧ f.adjust.toInt ≤ 4095 ∧ 1 ≤ f.width.toNat ∧ (k = .time → f.width.toNat ≤ 2000) then
      some { station := st, adjust := f.adjust, widthKind := k, width := f.width }
    else none
  | _, _ => none

/-- R29, R30: a confirm spec, none when a field is out of range. -/
def confirmOf (f : ConfirmField) : Option ConfirmSpec :=
  match finOf 16 f.input, expectOf f.expect with
  | some i, some e =>
    if 1 ≤ f.openOffset.toNat ∧ f.openOffset.toNat ≤ maxOffset ∧ 1 ≤ f.closeOffset.toNat ∧
        f.closeOffset.toNat ≤ maxOffset then
      some { input := i, openOffset := f.openOffset, closeOffset := f.closeOffset, expect := e }
    else none
  | _, _ => none

/-- Every firing of a list, none when one is out of range. -/
def firingsOf : List FiringField → Option (List Firing)
  | [] => some []
  | f :: fs =>
    match firingOf f, firingsOf fs with
    | some x, some xs => some (x :: xs)
    | _, _ => none

/-- R30: the disposition a payload declares, none when the count or a field is out of range. -/
def dispositionOf (fs : List FiringField) (c : Option ConfirmField) : Option Disposition :=
  if 4 < fs.length then none
  else
    match firingsOf fs, c with
    | some xs, none => some { firings := xs, confirm := none }
    | some xs, some k => (confirmOf k).map (fun k => { firings := xs, confirm := some k })
    | none, _ => none

/-- R31: the contents are valid for every lane outside OFF whose default is the index. -/
def State.defaultsAccept (s : State) (i : Fin 16) (d : Disposition) : Bool :=
  allLanes.all (fun l => !s.lanes[l].live || s.lanes[l].config.default ≠ i || s.valid l d)

/-- R30, R31: SET_DISPOSITION; `present` is the confirm-present byte, above 1 out of range (R192). -/
def State.reqSetDisposition (s : State) (index : Byte) (fs : List FiringField) (present : Byte)
    (c : Option ConfirmField) : Answer :=
  s.named 16 index (fun i =>
    if 1 < present.toNat then s.refuse .badValue
    else
      match dispositionOf fs c with
      | none => s.refuse .badValue
      | some d =>
        if s.defaultsAccept i d then
          ([Status.ok.code],
            { s with verdicts := { s.verdicts with dispositions := tset s.verdicts.dispositions i d } })
        else s.refuse .geometry)

/-- R36: the record with the new stored verdict. -/
def Item.bind (it : Item) (k : Fin 16) : Item :=
  match it.stored with
  | none => { it with stored := some { index := k, source := .host } }
  | some _ => { it with stored := some { index := k, source := .host }, amend := satInc 15 it.amend }

/-- R36, R39: a verdict stored or amended. -/
def State.bindVerdict (s : State) (it : Item) (k : Fin 16) : Answer :=
  ([Status.ok.code, if it.stored.isSome then 1 else 0, natByte (it.bind k).amend],
    s.mapRecord it.rid (fun it => it.bind k))

/-- R38, R39: an advance verdict entered or replaced. -/
def State.adviseVerdict (s : State) (l : LaneId) (tag : Half) (k : Fin 16) : Answer :=
  let list := insertAdvance s.lanes[l].nextTag { tag := tag, index := k } s.verdicts.advance[l]
  ([Status.ok.code, if (s.advanceFor l tag).isSome then 3 else 2, natByte list.length],
    { s with verdicts := { s.verdicts with advance := tset s.verdicts.advance l list } })

/-- R35: a VERDICT for a lane outside OFF. -/
def State.verdictFor (s : State) (l : LaneId) (tag : Half) (k : Fin 16) : Answer :=
  match s.items.queues[l].find? (fun it => it.tag = tag) with
  | some it => if it.state = .opened then s.bindVerdict it k else s.refuse .late
  | none =>
    if s.items.retired.any (fun it => it.lane = l && it.tag = tag) then s.refuse .late
    else if (tag - s.lanes[l].nextTag).toNat ≤ 7 then s.adviseVerdict l tag k
    else s.refuse .unknownItem

/-- R35: VERDICT. -/
def State.reqVerdict (s : State) (lane : Byte) (tag : Half) (index : Byte) : Answer :=
  s.named 4 lane (fun l => s.named 16 index (fun k =>
    if s.lanes[l].live then s.verdictFor l tag k else s.refuse .wrongState))

/-! ### Item Table (R26, R27) -/

/-- The record of a list with the largest serial number: the one that was created, and so left its queue, last. -/
def newest : List Item → Option Item
  | [] => none
  | it :: its =>
    match newest its with
    | none => some it
    | some other => if other.rid < it.rid then some it else some other

/-- R26: the record of a lane and tag: in the lane's queue, else the one that entered the retired list last (log 16). -/
def State.itemOf (s : State) (l : LaneId) (tag : Half) : Option Item :=
  match s.items.queues[l].find? (fun it => it.tag = tag) with
  | some it => some it
  | none => newest (s.items.retired.filter (fun it => it.lane = l ∧ it.tag = tag))

/-- R26: GET_ITEM. -/
def State.reqGetItem (s : State) (lane : Byte) (tag : Half) : Answer :=
  s.named 4 lane (fun l =>
    match s.itemOf l tag with
    | none => s.refuse .unknownItem
    | some it => (Status.ok.code :: it.replyBytes, s))

/-- R27: LIST_ITEMS. -/
def State.reqListItems (s : State) (lane start : Byte) : Answer :=
  s.named 4 lane (fun l =>
    let seq := s.items.ofLane l
    if seq.length < start.toNat then s.refuse .full
    else
      let page := (seq.drop start.toNat).take 8
      ([Status.ok.code, natByte seq.length, start, natByte page.length] ++ page.flatMap (·.summaryBytes), s))

/-! ### Output Driver (R75 to R77, R82) -/

/-- R82: SET_OUTPUT. -/
def State.reqSetOutput (s : State) (output role polarity lane : Byte) : Answer :=
  s.named 16 output (fun o =>
    match outputRoleOf role, polarityOf polarity with
    | some r, some p =>
      if r = .hold ∧ 3 < lane.toNat then s.refuse .badValue
      else if s.stationInUse o || s.holdOutputInUse o || !s.outputs[o].holders.isEmpty then s.refuse .inUse
      else
        ([Status.ok.code], s.mapOutput o (fun _ =>
          { role := r, polarity := p, lane := lane, holders := [], latch := false, pulse := none }))
    | _, _ => s.refuse .badValue)

/-- R75: the reply of a FORCE_OUTPUT that is taken. -/
def State.forceReply (s : State) (o : OutputId) : Answer :=
  ([Status.ok.code, s.outputs[o].role.code,
    flagByte [s.pinActive o, s.outputs[o].testHold, s.outputs[o].latch], natByte s.outputs[o].holders.length] ++
    natHalf (s.outputs[o].remainingMs s.position.ts), s)

/-- R76: FORCE_OUTPUT on an ACTUATOR output. -/
def State.forceActuator (s : State) (o : OutputId) (active : Bool) (pulse : Half) : Answer :=
  if pulse ≠ 0 then s.refuse .badValue
  else if s.stationInUse o then s.refuse .inUse
  else if s.inhibit then s.refuse .wrongState
  else if active && !s.outputs[o].testHold && !s.outputs[o].hasRoom then s.refuse .inUse
  else if active then
    (if s.outputs[o].testHold then s else s.addHolder o .test).forceReply o
  else (s.release o .test).forceReply o

/-- R77: FORCE_OUTPUT on a GENERAL output. -/
def State.forceGeneral (s : State) (o : OutputId) (active : Bool) (pulse : Half) : Answer :=
  if !active then (s.mapOutput o (fun out => { out with latch := false, pulse := none })).forceReply o
  else if pulse = 0 then (s.mapOutput o (fun out => { out with latch := true })).forceReply o
  else if s.inhibit then s.refuse .wrongState
  else
    let t := s.endTime pulse
    (s.mapOutput o (fun out => { out with pulse := some t })).forceReply o

/-- R75: FORCE_OUTPUT. -/
def State.reqForceOutput (s : State) (output level : Byte) (pulse : Half) : Answer :=
  s.named 16 output (fun o =>
    match levelOf level with
    | none => s.refuse .badValue
    | some lv =>
      if lv = .low ∧ pulse ≠ 0 then s.refuse .badValue
      else
        match s.outputs[o].role with
        | .unused => s.refuse .wrongState
        | .hold => s.refuse .wrongState
        | .actuator => s.forceActuator o (lv = .high) pulse
        | .general => s.forceGeneral o (lv = .high) pulse)

/-! ### Input Conditioner (R142, R143) -/

/-- R142: the input is the entry input named by a lane in RUN, DRAIN or FAULT. -/
def State.entryInUse (s : State) (i : InputId) : Bool :=
  allLanes.any (fun l => s.lanes[l].live && s.lanes[l].config.entryInput = some i)

/-- R143: the input as a SET_INPUT that is taken leaves it; `raw` is its raw level. -/
def Input.configured (x : Input) (role : InputRole) (active : Level) (filterOn : Bool) (period : Fin 8) (stable : Nat)
    (edge : EdgeSelect) (raw : Level) : Input :=
  { x with role := role, active := active, filterOn := filterOn, period := period, stable := stable, edge := edge
           accepted := raw, awaiting := false, mark := .requested, run := none }

/-- R143: the reply of SET_INPUT. -/
def State.inputReply (s : State) (i : InputId) : Answer :=
  ([Status.ok.code, levelCode s.inputs[i].accepted, boolCode s.inputs[i].acceptedActive], s)

/-- R142, R143: SET_INPUT. -/
def State.reqSetInput (s : State) (input role active filter period stable edge : Byte) : Answer :=
  s.named 16 input (fun i =>
    match inputRoleOf role, levelOf active, levelOf filter, finOf 8 period, edgeSelectOf edge with
    | some r, some a, some f, some p, some e =>
      if stable.toNat < 2 ∨ 16 < stable.toNat then s.refuse .badValue
      else if s.entryInUse i then s.refuse .inUse
      else if s.inputs[i].role = .confirm ∧ ¬ s.windows[i].isEmpty then s.refuse .inUse
      else
        ((s.mapInput i (fun x => x.configured r a (f = .high) p stable.toNat e s.pins[i])).reportInhibit
          s.inhibit).inputReply i
    | _, _, _, _, _ => s.refuse .badValue)

/-! ### Position Unit (R127 to R129) -/

/-- R127: SET_ENCODER. -/
def State.reqSetEncoder (s : State) (mode : Byte) (rl : Half) (ft : Byte) : Answer :=
  match encoderModeOf mode with
  | none => s.refuse .badValue
  | some m =>
    if s.allOff then
      ([Status.ok.code],
        { s with position := { s.position with
            mode := m, rl := rl, ft := ft, encoderFault := false, direction := .none } })
    else s.refuse .wrongState

/-- R128: SET_POSITION. -/
def State.reqSetPosition (s : State) (value : Pos) : Answer :=
  if s.allOff then
    ([Status.ok.code], { s with position := { s.position with bp := value, hw := value, direction := .none } })
  else s.refuse .wrongState

/-- R129: GET_POSITION. -/
def State.reqGetPosition (s : State) : Answer :=
  ([Status.ok.code] ++ wordBytes s.position.bp ++ wordBytes s.position.hw ++ wordBytes s.position.rd ++
    [s.position.direction.code] ++ wordBytes s.position.ts, s)

/-! ### Timer Unit (R149, R150) -/

/-- The reply of the timer requests. -/
def timerReply (running : Bool) (remaining : Nat) : List Byte :=
  [Status.ok.code, boolCode running] ++ natHalf remaining

/-- R149: SET_TIMER. -/
def State.reqSetTimer (s : State) (timer : Byte) (period : Half) (mode : Byte) : Answer :=
  s.named 4 timer (fun t =>
    match timerModeOf mode with
    | none => s.refuse .badValue
    | some m =>
      if period = 0 then s.refuse .badValue
      else
        (timerReply false 0,
          s.mapTimer t (fun x => Timer.stop { x with period := period.toNat, mode := m })))

/-- R150: START_TIMER. -/
def State.reqStartTimer (s : State) (timer : Byte) : Answer :=
  s.named 4 timer (fun t => (timerReply true s.timers[t].period, s.mapTimer t Timer.start))

/-- R150: STOP_TIMER. -/
def State.reqStopTimer (s : State) (timer : Byte) : Answer :=
  s.named 4 timer (fun t => (timerReply false s.timers[t].remaining, s.mapTimer t Timer.stop))

/-! ### Reaction Table (R156 to R158) -/

/-- R156: SET_REACTION. -/
def State.reqSetReaction (s : State) (reaction : Byte) (f : ReactionFields) : Answer :=
  s.named 12 reaction (fun r =>
    match triggerOf f.triggerKind f.triggerParam f.triggerResult, actionOf f.actionKind f.actionParam f.actionWidth,
      reactionModeOf f.mode, reactionSetOf f.chain with
    | some t, some a, some m, some c =>
      if s.reactions[r].enabled then s.refuse .wrongState
      else
        ([Status.ok.code], s.mapReaction r (fun x => { x with trigger := t, action := a, mode := m, chain := c }))
    | _, _, _, _ => s.refuse .badValue)

/-- The set of enabled reactions. -/
def State.enabledSet (s : State) : BitVec 12 :=
  allReactions.foldl (fun acc r => if s.reactions[r].enabled then acc ||| (1 <<< r.val) else acc) 0

/-- R157: the enabled flag of one reaction under two masks. -/
def Reaction.masked (x : Reaction) (r : ReactionId) (enable disable : BitVec 12) : Reaction :=
  if enable.getLsbD r then { x with enabled := true }
  else if disable.getLsbD r then { x with enabled := false }
  else x

/-- R157: ENABLE_REACTION. -/
def State.reqEnableReaction (s : State) (enable disable : Half) : Answer :=
  match reactionSetOf enable, reactionSetOf disable with
  | some on, some off =>
    if on &&& off ≠ 0 then s.refuse .badValue
    else if allReactions.any (fun r => on.getLsbD r && s.reactions[r].trigger = .none) then s.refuse .wrongState
    else
      let s' := allReactions.foldl (fun acc r => acc.mapReaction r (fun x => x.masked r on off)) s
      (Status.ok.code :: reactionSetBytes s'.enabledSet, s')
  | _, _ => s.refuse .badValue

/-- A list of reactions as a set. -/
def reactionSet (rs : List ReactionId) : BitVec 12 :=
  rs.foldl (fun acc r => acc ||| (1 <<< r.val)) 0

/-- R158: FIRE_REACTION. -/
def State.reqFireReaction (s : State) (reaction : Byte) : Answer :=
  s.named 12 reaction (fun r =>
    if s.reactions[r].enabled then
      let c := s.closure [r]
      ([Status.ok.code, 1] ++ reactionSetBytes (reactionSet c), s.performAll c)
    else ([Status.ok.code, 0] ++ reactionSetBytes 0, s))

/-! ### Link Controller (R185 to R187) -/

/-- R185: GET_STATUS. -/
def State.reqGetStatus (s : State) : Answer :=
  ([Status.ok.code] ++ allLanes.map (fun l => s.lanes[l].state.code) ++ allLanes.map (fun l => s.lanes[l].causes.code) ++
    [natByte s.items.free, natByte s.schedule.free, natByte s.notices.depth, natByte s.notices.sent.length,
      flagByte [s.notices.stalled, s.inhibit, s.position.encoderFault]] ++
    natHalf s.link.badFrames ++ natHalf s.link.overruns ++
    wordBytes s.position.bp ++ wordBytes s.position.hw ++ wordBytes s.position.ts ++
    [natByte s.notices.missed.input, natByte s.notices.missed.timer, natByte s.notices.missed.reaction,
      natByte s.notices.missed.confirm, Config.revision], s)

/-- R186: the configuration record of a kind and index, none when there is none. -/
def State.configRecord (s : State) (kind index : Byte) : Option (List Byte) :=
  if kind = 0 then (finOf 16 index).map (fun i => s.verdicts.dispositions[i].bytes)
  else if kind = 1 then (finOf 4 index).map (fun l => s.lanes[l].config.bytes)
  else if kind = 2 then (finOf 16 index).map (fun o => s.outputs[o].configBytes)
  else if kind = 3 then (finOf 16 index).map (fun i => s.inputs[i].configBytes)
  else if kind = 4 then some s.position.configBytes
  else if kind = 5 then (finOf 4 index).map (fun t => s.timers[t].configBytes)
  else if kind = 6 then (finOf 12 index).map (fun r => s.reactions[r].configBytes)
  else if kind = 7 then some s.notices.settings.bytes
  else none

/-- R186: GET_CONFIG; a kind with one record ignores the index. -/
def State.reqGetConfig (s : State) (kind index : Byte) : Answer :=
  match s.configRecord kind index with
  | none => s.refuse .badValue
  | some bs => ([Status.ok.code, kind, index] ++ bs, s)

end Sys2Proof.Machine
end

