-- ==== Sys2Proof/WellFormed.lean ====
section
/-! DEFINITION. Which commands can come: a frame's payload fits LEN (R176), and UNKNOWN_KIND names a request kind to
which no request is assigned (R182, R191). The machine answers an ill-formed command too; this check says which
commands a sender can produce. -/

namespace Sys2Proof

/-- The kinds to which a request is assigned (R191). -/
def assignedKinds : List Byte :=
  [0x01, 0x02, 0x03, 0x04, 0x05, 0x08, 0x09, 0x0A, 0x0B, 0x0C, 0x10, 0x11, 0x12, 0x13, 0x18, 0x19, 0x1C,
   0x20, 0x21, 0x22, 0x28, 0x29, 0x2A, 0x2C, 0x2D, 0x2E]

/-- R176: request kinds are 0x01 to 0x3F. -/
def isRequestKind (kind : Byte) : Bool :=
  0x01 ≤ kind.toNat && kind.toNat ≤ 0x3F

/-- R176: LEN lies from 2 to 130, so a payload has at most 128 bytes. -/
def payloadFits (payload : List Byte) : Bool :=
  payload.length ≤ 128

/-- The well-formed commands. -/
def Instr.wellFormed : Instr → Bool
  | .unknownKind kind _ payload =>
    isRequestKind kind && !assignedKinds.contains kind && payloadFits payload
  | .frameReceived _ _ payload _ => payloadFits payload
  | .setDisposition _ _ firings confirm =>
    3 + 6 * firings.length + (if confirm.isSome then 10 else 0) ≤ 128
  | .powerOnReset .. | .softReset | .getStatus .. | .reset .. | .getConfig .. | .ackNotice .. | .setNotice ..
  | .setLane .. | .getLane .. | .arm .. | .disarm .. | .clear .. | .verdict .. | .getItem .. | .listItems ..
  | .setOutput .. | .forceOutput .. | .setInput .. | .setEncoder .. | .setPosition .. | .getPosition ..
  | .setTimer .. | .startTimer .. | .stopTimer .. | .setReaction .. | .enableReaction .. | .fireReaction ..
  | .interByteGap | .framingError | .replyEnd | .noticeFrameEnd | .noticeSend | .noticeAdmission | .forwardStep
  | .reverseStep | .illegalTransition | .msTick | .offTime .. | .pulseEnd .. | .timerExpiry .. | .ackTimeout
  | .acceptedTransition .. | .runAbandoned .. | .byteReceived .. | .firstSample .. | .runSample ..
  | .channelLevelChange .. | .tsAdvance => true

end Sys2Proof
end

