-- ==== Sys2Proof/Machine/LinkController.lean ====
section
/-! DEFINITION. The Link Controller (11): the receiver, the request queue, taking and answering requests, the ends of
frames, and the two resets of the part. -/

namespace Sys2Proof.Machine

/-! ### Resets (R187, R188) -/

/-- R119, R132: the Position Unit after a reset; the filtered levels and the reference are the levels at the pins, which
are the plant's and stay (log 8). -/
def Position.afterReset (p : Position) : Position :=
  { Position.reset with ea := p.eaPin, eb := p.ebPin, eaPin := p.eaPin, ebPin := p.ebPin }

/-- The Item Table after a reset; the model's own serial number goes on (R25, log 16). -/
def Items.afterReset (t : Items) : Items :=
  { Items.reset with nextRid := t.nextRid }

/-- The Firing Scheduler after a reset; the model's own serial number goes on (R64, log 16). -/
def Schedule.afterReset (t : Schedule) : Schedule :=
  { Schedule.reset with nextSerial := t.nextSerial }

/-- What both resets set in every block but the Notice Queue and the Link Controller (R25, R29, R41, R64, R70, R83, R118,
R132, R133, R145, R151); the pins are the plant's and stay. -/
def State.resetBlocks (s : State) : State :=
  { s with
    items := s.items.afterReset
    verdicts := .reset
    schedule := s.schedule.afterReset
    outputs := Vector.replicate 16 .reset
    windows := Vector.replicate 16 []
    lanes := Vector.replicate 4 .reset
    position := s.position.afterReset
    inputs := Vector.replicate 16 .reset
    timers := Vector.replicate 4 .reset
    reactions := Vector.replicate 12 .reset
    agenda := [] }

/-- R160, R172: the Notice Queue after soft reset keeps W, the timeout and the retry limit. -/
def Notices.afterSoftReset (n : Notices) : Notices :=
  { Notices.reset with
    settings := { NoticeSettings.reset with
      window := n.settings.window, timeout := n.settings.timeout, retryLimit := n.settings.retryLimit } }

/-- R187: the Link Controller after soft reset keeps the baud rate, the counts, and the last-request record and store. -/
def Link.afterSoftReset (l : Link) : Link :=
  { l with receiver := .hunting, requests := [], slot := none, transmitter := .idle }

/-- R187: the soft reset. -/
def State.softReset (s : State) : State :=
  { s.resetBlocks with notices := s.notices.afterSoftReset, link := s.link.afterSoftReset }

/-- R175: the baud rate of the straps. -/
def baudOf : Level → Level → Baud
  | .low, .low => .b115200
  | .low, .high => .b460800
  | .high, .low => .b921600
  | .high, .high => .b1000000

/-- R188: the power-on reset, the straps read at its end. -/
def State.powerOnReset (s : State) (baud1 baud0 : Level) : State :=
  { s.resetBlocks with notices := .reset, link := { Link.reset with baud := baudOf baud1 baud0 } }

/-- R193: whether a cause takes a power-on reset; a pulse from 200 ns to 1 µs may or may not (log 15). -/
def State.resetTaken (s : State) : ResetCause → Bool × State
  | .powerUp => (true, s)
  | .lowPulse ns =>
    if ns < 200 then (false, s)
    else if 1000 ≤ ns then (true, s)
    else ((s.choose 2).1 = 1, (s.choose 2).2)

/-! ### Taking a request (R180 to R183) -/

/-- R182: a request whose payload has the length its kind requires is handed on. -/
def State.sized (s : State) (p : List Byte) (n : Nat) (a : Answer) : Answer :=
  if p.length = n then a else s.refuse .badLength

/-- R192: the length of a SET_DISPOSITION payload that declares `n` firings and a confirm-present byte. -/
def dispositionLength (n present : Byte) : Nat :=
  3 + 6 * n.toNat + (if present = 0 then 0 else 10)

/-- R192: SET_DISPOSITION as a payload. -/
def State.takeDisposition (s : State) (p : List Byte) : Answer :=
  if p.length < 3 then s.refuse .badLength
  else
    let n := byteAt p 1
    let c := byteAt p 2
    s.sized p (dispositionLength n c)
      (s.reqSetDisposition (byteAt p 0) (firingFieldsOf p 3 n.toNat) c
        (if c = 0 then none else some (confirmFieldOf p (3 + 6 * n.toNat))))

/-- R182, R191: a request that is no duplicate, by its kind. -/
def State.dispatch (s : State) (kind : Byte) (p : List Byte) : Answer :=
  if kind = 0x01 then s.sized p 0 s.reqGetStatus
  else if kind = 0x02 then s.sized p 0 ([Status.ok.code], s)
  else if kind = 0x03 then s.sized p 2 (s.reqGetConfig (byteAt p 0) (byteAt p 1))
  else if kind = 0x04 then s.sized p 1 (s.reqAckNotice (byteAt p 0))
  else if kind = 0x05 then s.sized p 15 (s.reqSetNotice (noticeFieldsOf p))
  else if kind = 0x08 then s.sized p 38 (s.reqSetLane (byteAt p 0) (laneFieldsOf p))
  else if kind = 0x09 then s.sized p 1 (s.reqGetLane (byteAt p 0))
  else if kind = 0x0A then s.sized p 1 (s.reqArm (byteAt p 0))
  else if kind = 0x0B then s.sized p 1 (s.reqDisarm (byteAt p 0))
  else if kind = 0x0C then s.sized p 1 (s.reqClear (byteAt p 0))
  else if kind = 0x10 then s.takeDisposition p
  else if kind = 0x11 then s.sized p 4 (s.reqVerdict (byteAt p 0) (halfAt p 1) (byteAt p 3))
  else if kind = 0x12 then s.sized p 3 (s.reqGetItem (byteAt p 0) (halfAt p 1))
  else if kind = 0x13 then s.sized p 2 (s.reqListItems (byteAt p 0) (byteAt p 1))
  else if kind = 0x18 then s.sized p 4 (s.reqSetOutput (byteAt p 0) (byteAt p 1) (byteAt p 2) (byteAt p 3))
  else if kind = 0x19 then s.sized p 4 (s.reqForceOutput (byteAt p 0) (byteAt p 1) (halfAt p 2))
  else if kind = 0x1C then
    s.sized p 7 (s.reqSetInput (byteAt p 0) (byteAt p 1) (byteAt p 2) (byteAt p 3) (byteAt p 4) (byteAt p 5) (byteAt p 6))
  else if kind = 0x20 then s.sized p 4 (s.reqSetEncoder (byteAt p 0) (halfAt p 1) (byteAt p 3))
  else if kind = 0x21 then s.sized p 4 (s.reqSetPosition (wordAt p 0))
  else if kind = 0x22 then s.sized p 0 s.reqGetPosition
  else if kind = 0x28 then s.sized p 4 (s.reqSetTimer (byteAt p 0) (halfAt p 1) (byteAt p 3))
  else if kind = 0x29 then s.sized p 1 (s.reqStartTimer (byteAt p 0))
  else if kind = 0x2A then s.sized p 1 (s.reqStopTimer (byteAt p 0))
  else if kind = 0x2C then s.sized p 11 (s.reqSetReaction (byteAt p 0) (reactionFieldsOf p))
  else if kind = 0x2D then s.sized p 4 (s.reqEnableReaction (halfAt p 0) (halfAt p 2))
  else if kind = 0x2E then s.sized p 1 (s.reqFireReaction (byteAt p 0))
  else s.refuse .unknownKind

/-- R183: the frame that answers a request. -/
def Frame.answer (f : Frame) (payload : List Byte) : Frame :=
  { kind := f.kind + 0x40, seq := f.seq, payload := payload }

/-- R181: the request is a duplicate of the last one. -/
def Link.isDuplicate (l : Link) (f : Frame) : Bool :=
  match l.last with
  | none => false
  | some r => f.kind ≠ 0x04 && r.kind = f.kind && r.seq = f.seq

/-- R181: the duplicate is answered from the store. -/
def Link.replay (l : Link) : Link :=
  match l.last with
  | none => l
  | some r => { l with slot := some { frame := r.reply, begun := false, resets := false } }

/-- R180, R181, R187: the reply is placed in the slot; for any kind but ACK_NOTICE the request becomes the record and the
reply the store. `resets` says that it is the reply of an executed RESET. -/
def Link.place (l : Link) (f reply : Frame) (resets : Bool) : Link :=
  { l with
    slot := some { frame := reply, begun := false, resets := resets }
    last := if f.kind = 0x04 then l.last else some { kind := f.kind, seq := f.seq, reply := reply } }

/-- R180 to R182, R187: a request is taken whole: a duplicate is answered from the store, any other is executed. -/
def State.takeRequest (s : State) (f : Frame) : State :=
  if s.link.isDuplicate f then { s with link := s.link.replay }
  else
    let a := s.dispatch f.kind f.payload
    { a.2 with link := a.2.link.place f (f.answer a.1) (f.kind = 0x02 && f.payload.isEmpty) }

/-- R180: the head of the request queue is taken when the slot is empty. -/
def State.takeNext (s : State) : State :=
  match s.link.requests, s.link.slot with
  | f :: rest, none => State.takeRequest { s with link := { s.link with requests := rest } } f
  | _ :: _, some _ => s
  | [], _ => s

/-! ### Receiving (R177 to R179) -/

/-- R178: a frame is discarded: the bad-frame count rises and the receiver hunts. -/
def State.badFrame (s : State) : State :=
  { s with link := { s.link with receiver := .hunting, badFrames := satInc 65535 s.link.badFrames } }

/-- R178, R179: a good request frame is accepted: STALLED ends, the frame joins the request queue or is an overrun, and
the head is taken when it can be. -/
def State.acceptFrame (s : State) (f : Frame) : State :=
  let s1 := { s with notices := s.notices.endStall, link := { s.link with receiver := .hunting } }
  if s1.link.requests.length < Config.requestSize then
    State.takeNext { s1 with link := { s1.link with requests := s1.link.requests ++ [f] } }
  else { s1 with link := { s1.link with overruns := satInc 65535 s1.link.overruns } }

/-- R178: a complete frame is checked for its CRC and then for its kind. -/
def State.receive (s : State) (f : Frame) (crc : Half) : State :=
  if crc16 f.covered = crc ∧ isRequestKind f.kind then s.acceptFrame f else s.badFrame

/-- R176: the frame that LEN, KIND, SEQ, payload and CRC bytes spell, with its CRC field. -/
def frameOf (bytes : List Byte) : Frame × Half :=
  let len := (byteAt bytes 0).toNat
  ({ kind := byteAt bytes 1, seq := byteAt bytes 2, payload := (bytes.drop 3).take (len - 2) },
    byteAt bytes (len + 1) ++ byteAt bytes (len + 2))

/-- R177: a byte in ASSEMBLING, after the bytes already taken. -/
def State.assemble (s : State) (bytes : List Byte) : State :=
  let len := (byteAt bytes 0).toNat
  if len < 2 ∨ 130 < len then s.badFrame
  else if bytes.length = len + 3 then s.receive (frameOf bytes).1 (frameOf bytes).2
  else { s with link := { s.link with receiver := .assembling bytes } }

/-- R177: a byte is received. -/
def State.receiveByte (s : State) (b : Byte) : State :=
  match s.link.receiver with
  | .hunting => if b = 0xD5 then { s with link := { s.link with receiver := .assembling [] } } else s
  | .assembling bytes => s.assemble (bytes ++ [b])

/-- R177: a gap or a framing error ends a frame in assembly. -/
def State.breakFrame (s : State) : State :=
  match s.link.receiver with
  | .hunting => s
  | .assembling _ => s.badFrame

/-! ### Ends of frames (R180, R184, R187) -/

/-- R180, R187: a reply ends: the slot empties; after the reply of a RESET the soft reset is taken, and otherwise the next
request. -/
def State.endReply (s : State) : State :=
  match s.link.transmitter with
  | .reply _ =>
    let s1 := { s with link := { s.link with transmitter := .idle, slot := none } }
    match s.link.slot with
    | some r => if r.resets then s1.softReset else s1.takeNext
    | none => s1.takeNext
  | .notice _ => s
  | .idle => s

/-- R184: a notice frame ends. -/
def State.endNotice (s : State) : State :=
  match s.link.transmitter with
  | .notice _ => { s with link := { s.link with transmitter := .idle } }
  | .reply _ => s
  | .idle => s

end Sys2Proof.Machine
end

