-- ==== Sys2Proof/Machine/RequestCommands.lean ====
section
/-! DEFINITION. The meanings of the request rows: the good frame that carries the request is accepted (R178 to R180), and
the events of its moment and the grant follow. A request that finds the reply slot full waits in the request queue or is
an overrun (log 5). -/

namespace Sys2Proof.Machine

/-- What every meaning answers with: the state at the end of the command's moment. -/
abbrev Result := Host.Outcome State Fault Refusal

/-- The end of a command. -/
def State.done (s : State) : Result :=
  .next s.finish

/-- A good frame with this request is accepted. -/
def State.request (s : State) (kind seq : Byte) (payload : List Byte) : Result :=
  (s.acceptFrame { kind := kind, seq := seq, payload := payload }).done

/-- GET_STATUS (R185). -/
def execGetStatus (seq : Byte) (s : State) : Result :=
  s.request 0x01 seq []

/-- RESET (R187). -/
def execReset (seq : Byte) (s : State) : Result :=
  s.request 0x02 seq []

/-- GET_CONFIG (R186). -/
def execGetConfig (seq kind index : Byte) (s : State) : Result :=
  s.request 0x03 seq [kind, index]

/-- ACK_NOTICE (R169). -/
def execAckNotice (seq number : Byte) (s : State) : Result :=
  s.request 0x04 seq [number]

/-- SET_NOTICE (R173). -/
def execSetNotice (seq : Byte) (settings : NoticeFields) (s : State) : Result :=
  s.request 0x05 seq (NoticeFields.bytes settings)

/-- SET_LANE (R99). -/
def execSetLane (seq lane : Byte) (config : LaneFields) (s : State) : Result :=
  s.request 0x08 seq (lane :: LaneFields.bytes config)

/-- GET_LANE (R100). -/
def execGetLane (seq lane : Byte) (s : State) : Result :=
  s.request 0x09 seq [lane]

/-- ARM (R103, R104). -/
def execArm (seq lane : Byte) (s : State) : Result :=
  s.request 0x0A seq [lane]

/-- DISARM (R106). -/
def execDisarm (seq lane : Byte) (s : State) : Result :=
  s.request 0x0B seq [lane]

/-- CLEAR (R110). -/
def execClear (seq lane : Byte) (s : State) : Result :=
  s.request 0x0C seq [lane]

/-- R192: the SET_DISPOSITION payload. -/
def dispositionPayload (index : Byte) (firings : List FiringField) (confirm : Option ConfirmField) : List Byte :=
  [index, natByte firings.length, boolCode confirm.isSome] ++ firings.flatMap FiringField.bytes ++
    (match confirm with
      | none => []
      | some c => ConfirmField.bytes c)

/-- SET_DISPOSITION (R30). -/
def execSetDisposition (seq index : Byte) (firings : List FiringField) (confirm : Option ConfirmField) (s : State) :
    Result :=
  s.request 0x10 seq (dispositionPayload index firings confirm)

/-- VERDICT (R35). -/
def execVerdict (seq lane : Byte) (tag : Half) (index : Byte) (s : State) : Result :=
  s.request 0x11 seq (lane :: (halfBytes tag ++ [index]))

/-- GET_ITEM (R26). -/
def execGetItem (seq lane : Byte) (tag : Half) (s : State) : Result :=
  s.request 0x12 seq (lane :: halfBytes tag)

/-- LIST_ITEMS (R27). -/
def execListItems (seq lane start : Byte) (s : State) : Result :=
  s.request 0x13 seq [lane, start]

/-- SET_OUTPUT (R82). -/
def execSetOutput (seq output role polarity lane : Byte) (s : State) : Result :=
  s.request 0x18 seq [output, role, polarity, lane]

/-- FORCE_OUTPUT (R75). -/
def execForceOutput (seq output level : Byte) (pulse : Half) (s : State) : Result :=
  s.request 0x19 seq (output :: level :: halfBytes pulse)

/-- SET_INPUT (R142). -/
def execSetInput (seq input role active filter period stable edge : Byte) (s : State) : Result :=
  s.request 0x1C seq [input, role, active, filter, period, stable, edge]

/-- SET_ENCODER (R127). -/
def execSetEncoder (seq mode : Byte) (rl : Half) (ft : Byte) (s : State) : Result :=
  s.request 0x20 seq (mode :: (halfBytes rl ++ [ft]))

/-- SET_POSITION (R128). -/
def execSetPosition (seq : Byte) (value : Pos) (s : State) : Result :=
  s.request 0x21 seq (wordBytes value)

/-- GET_POSITION (R129). -/
def execGetPosition (seq : Byte) (s : State) : Result :=
  s.request 0x22 seq []

/-- SET_TIMER (R149). -/
def execSetTimer (seq timer : Byte) (period : Half) (mode : Byte) (s : State) : Result :=
  s.request 0x28 seq (timer :: (halfBytes period ++ [mode]))

/-- START_TIMER (R150). -/
def execStartTimer (seq timer : Byte) (s : State) : Result :=
  s.request 0x29 seq [timer]

/-- STOP_TIMER (R150). -/
def execStopTimer (seq timer : Byte) (s : State) : Result :=
  s.request 0x2A seq [timer]

/-- SET_REACTION (R156). -/
def execSetReaction (seq reaction : Byte) (fields : ReactionFields) (s : State) : Result :=
  s.request 0x2C seq (reaction :: ReactionFields.bytes fields)

/-- ENABLE_REACTION (R157). -/
def execEnableReaction (seq : Byte) (enable disable : Half) (s : State) : Result :=
  s.request 0x2D seq (halfBytes enable ++ halfBytes disable)

/-- FIRE_REACTION (R158). -/
def execFireReaction (seq reaction : Byte) (s : State) : Result :=
  s.request 0x2E seq [reaction]

/-- UNKNOWN_KIND (R182): a frame of a kind with no request assigned; a frame whose kind is no request kind at all is
discarded (R178). -/
def execUnknownKind (kind seq : Byte) (payload : List Byte) (s : State) : Result :=
  if isRequestKind kind then s.request kind seq payload else s.badFrame.done

end Sys2Proof.Machine
end

