-- ==== Sys2Proof/Machine/BeltCommands.lean ====
section
/-! DEFINITION. The meanings of the rows of the belt and its encoder (R119 to R126). -/

namespace Sys2Proof.Machine

/-- R117, R184: the end of a row that is one event of the Position Unit: its events are taken and the line is granted, and
the next transition of the channels is of a later moment (log 31, log 32). -/
def State.stepDone (s : State) : Result :=
  .next s.finish.stepEnded

/-- FORWARD_STEP (R123, R124). -/
def execForwardStep (s : State) : Result :=
  (s.setChannels s.position.forwardLevels).stepForward.stepDone

/-- REVERSE_STEP (R123, R126); mode COUNT gives no reverse step (R121, log 6). -/
def execReverseStep (s : State) : Result :=
  match s.position.reverseLevels with
  | none => s.done
  | some levels => (s.setChannels levels).stepReverse.stepDone

/-- ILLEGAL_TRANSITION (R122): both filtered levels change at one sample; in STEP and COUNT that is not illegal
(R121). -/
def execIllegalTransition (s : State) : Result :=
  let levels := (s.position.ea.flip, s.position.eb.flip)
  ((s.setPins levels).decode levels).stepDone

/-- CHANNEL_LEVEL_CHANGE (R119 to R121): the level at the pin of a channel changes, and so many samples follow with the
pins as they are; after three of them the filters have nothing more to take (log 7). -/
def execChannelLevelChange (channel : ChannelChange) (s : State) : Result :=
  (State.runChannels (min channel.samples Config.channelSamples) (s.flipChannel channel.channel)).done

end Sys2Proof.Machine
end

