-- ==== Sys2Proof/Machine/InputCommands.lean ====
section
/-! DEFINITION. The meanings of the rows of the inputs (R133 to R141). A row has its effect where a comparison
or a sample falls at the present advance of TS and has not been taken (log 11). -/

namespace Sys2Proof.Machine

/-- FIRST_SAMPLE (R135, R137): a comparison at an advance of TS, with the raw level it shows. -/
def execFirstSample (input : InputId) (raw : Level) (s : State) : Result :=
  (s.compare input raw).done

/-- RUN_SAMPLE (R136): a sample of the run in progress that shows the candidate level. -/
def execRunSample (input : InputId) (s : State) : Result :=
  (s.sampleCandidate input).done

/-- ACCEPTED_TRANSITION (R136, R137): the last sample of a run, or an unfiltered change. -/
def execAcceptedTransition (input : InputId) (s : State) : Result :=
  (s.transition input).done

/-- RUN_ABANDONED (R136): a sample of the run in progress that shows the accepted level. -/
def execRunAbandoned (input : InputId) (s : State) : Result :=
  (s.sampleAccepted input).done

end Sys2Proof.Machine
end

