-- ==== Sys2Proof/Machine/LineCommands.lean ====
section
/-! DEFINITION. The meanings of the rows of the serial line and of the resets. A row whose event cannot happen in the
state leaves the state as it is (log 26), but for SOFT_RESET (log 30). -/

namespace Sys2Proof.Machine

/-- POWER_ON_RESET (R188, R193). -/
def execPowerOnReset (cause : ResetCause) (baud1 baud0 : Level) (s : State) : Result :=
  let r := s.resetTaken cause
  if r.1 then (r.2.powerOnReset baud1 baud0).done else .next r.2

/-- SOFT_RESET (R187); taken whenever the row comes, with or without a RESET reply that ends (log 30). -/
def execSoftReset (s : State) : Result :=
  s.softReset.done

/-- FRAME_RECEIVED (R178). -/
def execFrameReceived (kind seq : Byte) (payload : List Byte) (crc : Half) (s : State) : Result :=
  (s.receive { kind := kind, seq := seq, payload := payload } crc).done

/-- BYTE_RECEIVED (R177). -/
def execByteReceived (byte : Byte) (s : State) : Result :=
  (s.receiveByte byte).done

/-- INTER_BYTE_GAP (R177): in HUNTING a gap has no effect. -/
def execInterByteGap (s : State) : Result :=
  s.breakFrame.done

/-- FRAMING_ERROR (R177): in HUNTING the byte is dropped without count. -/
def execFramingError (s : State) : Result :=
  s.breakFrame.done

/-- REPLY_END (R180). -/
def execReplyEnd (s : State) : Result :=
  s.endReply.done

/-- NOTICE_FRAME_END (R184). -/
def execNoticeFrameEnd (s : State) : Result :=
  s.endNotice.done

/-- NOTICE_SEND (R167): the Notice Queue is granted the line when the transmitter is IDLE and no reply waits. -/
def execNoticeSend (s : State) : Result :=
  if s.link.transmitter = .idle ∧ s.link.replyWaits = false then s.sendNotice.done else s.done

/-- NOTICE_ADMISSION (R163). -/
def execNoticeAdmission (s : State) : Result :=
  s.admitAll.done

end Sys2Proof.Machine
end

