-- ==== Sys2Proof/Machine/TimeCommands.lean ====
section
/-! DEFINITION. The meanings of the rows of time: the time base, the tick, and the shares of the tick as rows of their
own (log 12, log 13). -/

namespace Sys2Proof.Machine

/-- MS_TICK (R131). -/
def execMsTick (s : State) : Result :=
  s.tick.done

/-- R135, R136: a new advance of TS brings each input its next comparison or sample. -/
def State.openSamples (s : State) : State :=
  { s with inputs := tmap (fun x => { x with mark := .due }) s.inputs }

/-- What of the present µs has not come as a row of its own: the first comparison of an input after a reset (R133,
log 10), which no other event of the µs reads, and then, in a free order (log 2), the samples of the channels, three at
most (R119, log 7), the tick (log 12), and the comparisons and samples of the sixteen inputs with the levels at their
pins (R135 to R137, log 11). -/
def State.endMicro (s : State) : State :=
  State.takeLeftovers Config.leftoverBound (allInputs.foldl State.settleInput s)

/-- TS_ADVANCE (R130): the µs that ends takes what is left of it, then TS advances and a later moment begins (log 32). -/
def execTsAdvance (s : State) : Result :=
  let s1 := s.endMicro
  (State.openSamples { s1 with position := s1.position.advance }).nextMoment.done

/-- OFF_TIME (R60): the TIME firing with this owner ends at the tick at hand, if TS has reached its OFF time
(log 13). -/
def execOffTime (owner : FiringOwner) (s : State) : Result :=
  match s.schedule.timeList.find? (fun e => e.owner = owner) with
  | none => s.done
  | some e => if s.position.tickDue then (s.offTime e.serial).done else s.done

/-- PULSE_END (R78): the pulse of this output ends at the tick at hand, if TS has reached its end time (log 13). -/
def execPulseEnd (output : OutputId) (s : State) : Result :=
  if s.position.tickDue then (s.endPulse output).done else s.done

/-- R147: the timer expires at the tick at hand, which the Timer Unit has not taken yet (log 12). -/
def State.expiryDue (s : State) (t : TimerId) : Bool :=
  s.position.tickDue && !s.position.timersTaken && s.timers[t].expires

/-- TIMER_EXPIRY (R147): the Timer Unit takes the tick at hand, against all four timers, at which this one expires. -/
def execTimerExpiry (timer : TimerId) (s : State) : Result :=
  if s.expiryDue timer then
    (State.tickTimers { s with position := { s.position with timersTaken := true } }).done
  else s.done

/-- R168, R170: the acknowledgement timer reaches 0 at this moment and has not taken the tick at hand yet (log 12). -/
def State.timeoutDue (s : State) : Bool :=
  !s.notices.ackEarly &&
    match s.notices.ackTimer with
    | none => false
    | some k => k = 0 || (k = 1 && s.position.tickDue)

/-- ACK_TIMEOUT (R170): the acknowledgement timer takes its share of the tick at hand, its last. -/
def execAckTimeout (s : State) : Result :=
  if s.timeoutDue then
    State.done { s with notices := { s.notices.timeout with ackEarly := s.position.tickDue } }
  else s.done

end Sys2Proof.Machine
end

