-- ==== Sys2Proof/Machine/Dispatch.lean ====
section
/-! DEFINITION. The command's meaning, one arm for each row of spec/opcode_table.json. -/

namespace Sys2Proof.Machine

/-- The effect of a command on everything but the queue of commands. -/
def exec (i : Instr) (s : State) : Host.Outcome State Fault Refusal :=
  match i with
  | .powerOnReset cause baud1 baud0 => Sys2Proof.Machine.execPowerOnReset cause baud1 baud0 s
  | .softReset => Sys2Proof.Machine.execSoftReset s
  | .getStatus seq => Sys2Proof.Machine.execGetStatus seq s
  | .reset seq => Sys2Proof.Machine.execReset seq s
  | .getConfig seq kind index => Sys2Proof.Machine.execGetConfig seq kind index s
  | .ackNotice seq number => Sys2Proof.Machine.execAckNotice seq number s
  | .setNotice seq settings => Sys2Proof.Machine.execSetNotice seq settings s
  | .setLane seq lane config => Sys2Proof.Machine.execSetLane seq lane config s
  | .getLane seq lane => Sys2Proof.Machine.execGetLane seq lane s
  | .arm seq lane => Sys2Proof.Machine.execArm seq lane s
  | .disarm seq lane => Sys2Proof.Machine.execDisarm seq lane s
  | .clear seq lane => Sys2Proof.Machine.execClear seq lane s
  | .setDisposition seq index firings confirm => Sys2Proof.Machine.execSetDisposition seq index firings confirm s
  | .verdict seq lane tag index => Sys2Proof.Machine.execVerdict seq lane tag index s
  | .getItem seq lane tag => Sys2Proof.Machine.execGetItem seq lane tag s
  | .listItems seq lane start => Sys2Proof.Machine.execListItems seq lane start s
  | .setOutput seq output role polarity lane => Sys2Proof.Machine.execSetOutput seq output role polarity lane s
  | .forceOutput seq output level pulse => Sys2Proof.Machine.execForceOutput seq output level pulse s
  | .setInput seq input role active filter period stable edge => Sys2Proof.Machine.execSetInput seq input role active filter period stable edge s
  | .setEncoder seq mode rl ft => Sys2Proof.Machine.execSetEncoder seq mode rl ft s
  | .setPosition seq value => Sys2Proof.Machine.execSetPosition seq value s
  | .getPosition seq => Sys2Proof.Machine.execGetPosition seq s
  | .setTimer seq timer period mode => Sys2Proof.Machine.execSetTimer seq timer period mode s
  | .startTimer seq timer => Sys2Proof.Machine.execStartTimer seq timer s
  | .stopTimer seq timer => Sys2Proof.Machine.execStopTimer seq timer s
  | .setReaction seq reaction fields => Sys2Proof.Machine.execSetReaction seq reaction fields s
  | .enableReaction seq enable disable => Sys2Proof.Machine.execEnableReaction seq enable disable s
  | .fireReaction seq reaction => Sys2Proof.Machine.execFireReaction seq reaction s
  | .unknownKind kind seq payload => Sys2Proof.Machine.execUnknownKind kind seq payload s
  | .frameReceived kind seq payload crc => Sys2Proof.Machine.execFrameReceived kind seq payload crc s
  | .interByteGap => Sys2Proof.Machine.execInterByteGap s
  | .framingError => Sys2Proof.Machine.execFramingError s
  | .replyEnd => Sys2Proof.Machine.execReplyEnd s
  | .noticeFrameEnd => Sys2Proof.Machine.execNoticeFrameEnd s
  | .noticeSend => Sys2Proof.Machine.execNoticeSend s
  | .noticeAdmission => Sys2Proof.Machine.execNoticeAdmission s
  | .forwardStep => Sys2Proof.Machine.execForwardStep s
  | .reverseStep => Sys2Proof.Machine.execReverseStep s
  | .illegalTransition => Sys2Proof.Machine.execIllegalTransition s
  | .msTick => Sys2Proof.Machine.execMsTick s
  | .offTime owner => Sys2Proof.Machine.execOffTime owner s
  | .pulseEnd output => Sys2Proof.Machine.execPulseEnd output s
  | .timerExpiry timer => Sys2Proof.Machine.execTimerExpiry timer s
  | .ackTimeout => Sys2Proof.Machine.execAckTimeout s
  | .acceptedTransition input => Sys2Proof.Machine.execAcceptedTransition input s
  | .runAbandoned input => Sys2Proof.Machine.execRunAbandoned input s
  | .byteReceived byte => Sys2Proof.Machine.execByteReceived byte s
  | .firstSample input raw => Sys2Proof.Machine.execFirstSample input raw s
  | .runSample input => Sys2Proof.Machine.execRunSample input s
  | .channelLevelChange channel => Sys2Proof.Machine.execChannelLevelChange channel s
  | .tsAdvance => Sys2Proof.Machine.execTsAdvance s

end Sys2Proof.Machine
end

