-- ==== Sys2Proof/Safety.lean ====
section
/-! DEFINITION. What statements about the machine speak of: the conditions under which a request is taken at once and the
link after its reply, the words of the statements, and the invariants of each block. -/

namespace Sys2Proof.Machine

/-! ### What a command leaves alone -/

/-- The fields of the state: the blocks of the part, the pins, and the model's own. -/
inductive Block
  | items
  | verdicts
  | schedule
  | outputs
  | windows
  | lanes
  | position
  | inputs
  | timers
  | reactions
  | notices
  | link
  | pins
  | choices
  | agenda
  | pending
  deriving DecidableEq, Repr

/-- A block is the same in two states. -/
def Block.Same (s t : State) : Block → Prop
  | .items => t.items = s.items
  | .verdicts => t.verdicts = s.verdicts
  | .schedule => t.schedule = s.schedule
  | .outputs => t.outputs = s.outputs
  | .windows => t.windows = s.windows
  | .lanes => t.lanes = s.lanes
  | .position => t.position = s.position
  | .inputs => t.inputs = s.inputs
  | .timers => t.timers = s.timers
  | .reactions => t.reactions = s.reactions
  | .notices => t.notices = s.notices
  | .link => t.link = s.link
  | .pins => t.pins = s.pins
  | .choices => t.choices = s.choices
  | .agenda => t.agenda = s.agenda
  | .pending => t.pending = s.pending

/-- Every block but those listed is the same in `t` as in `s`. -/
def OnlyChanges (bs : List Block) (s t : State) : Prop :=
  ∀ b : Block, b ∉ bs → b.Same s t

/-! ### A moment at which nothing is left to do (R184, log 3) -/

/-- No event of the moment is left, and the transmitter is busy or has nothing to send. -/
def State.quiet (s : State) : Prop :=
  s.agenda = [] ∧ (s.link.transmitter ≠ .idle ∨ (s.link.replyWaits = false ∧ s.notices.hasFrame = false))

/-! ### A request taken at once (R180, R181, R184) -/

/-- R180, R181: a request of this kind and SEQ is taken at its acceptance and executed: the request queue and the reply
slot are empty, it is no duplicate, and no event of an earlier moment is left (log 3). -/
def State.takesNow (s : State) (kind seq : Byte) : Prop :=
  s.link.requests = [] ∧ s.link.slot = none ∧ s.link.isDuplicate { kind := kind, seq := seq, payload := [] } = false ∧
    s.agenda = []

/-- R180 to R184: the link after a request taken at once has been answered: the reply stands in the slot, the request is
the record and the reply the store but for ACK_NOTICE, and the reply begins to be sent if the transmitter is IDLE. -/
def Link.answered (l : Link) (kind seq : Byte) (payload : List Byte) : Link :=
  let reply : Frame := { kind := kind + 0x40, seq := seq, payload := payload }
  { l with
    receiver := .hunting
    slot := some { frame := reply, begun := l.transmitter = .idle, resets := false }
    last := if kind = 0x04 then l.last else some { kind := kind, seq := seq, reply := reply }
    transmitter := if l.transmitter = .idle then .reply reply else l.transmitter }

/-- The state after a request that is taken at once, answered, and changes nothing else: STALLED ends at its acceptance
(R171) and the link holds the reply. -/
def State.answers (s : State) (kind seq : Byte) (payload : List Byte) : State :=
  { s with notices := s.notices.endStall, link := s.link.answered kind seq payload }

/-! ### Words of the statements -/

/-- The bytes of a frame as they come in, one BYTE_RECEIVED after the other. -/
def State.feed : List Byte → State → Result
  | [], s => .next s
  | b :: bs, s =>
    match exec (.byteReceived b) s with
    | .next t => State.feed bs t
    | .fault r => .fault r
    | .refused r => .refused r

/-- R119: the pins of both channels show the filtered levels, and no sample has shown others. -/
def Position.settled (p : Position) : Prop :=
  p.eaPin = p.ea ∧ p.ebPin = p.eb ∧ p.eaRun = 0 ∧ p.ebRun = 0

/-- R120, R121: the step that a change of one channel gives, in each mode, read off the tables of the two rules. -/
def Position.channelStep (p : Position) : Channel → Direction
  | .ea =>
    match p.mode with
    | .quad4 => if p.ea = p.eb then .forward else .reverse
    | .quad1 => .none
    | .step => if p.ea = .low then (if p.eb = .low then .forward else .reverse) else .none
    | .count => if p.ea = .low then .forward else .none
  | .eb =>
    match p.mode with
    | .quad4 => if p.ea = p.eb then .reverse else .forward
    | .quad1 => if p.ea = .low then (if p.eb = .high then .forward else .reverse) else .none
    | .step => .none
    | .count => .none

/-- A belt position moved by a step. -/
def Pos.moved (bp : Pos) : Direction → Pos
  | .none => bp
  | .forward => bp + 1
  | .reverse => bp - 1

/-- A record without its three notice flags. -/
def Item.sansFlags (it : Item) : Item :=
  { it with entryFlag := .notDue, commitFlag := .notDue, outcomeFlag := .notDue }

/-- The records of two states agree but for their notice flags. -/
def State.sameRecords (s t : State) : Prop :=
  (∀ l : LaneId, t.items.queues[l].map Item.sansFlags = s.items.queues[l].map Item.sansFlags) ∧
    t.items.done.map Item.sansFlags = s.items.done.map Item.sansFlags ∧
    t.items.passed.map Item.sansFlags = s.items.passed.map Item.sansFlags

/-- A lane without its notice flag. -/
def Lane.sansNotice (x : Lane) : Lane :=
  { x with noticeFlag := false }

/-- The lanes of two states but lane `l` agree but for their notice flags. -/
def State.sameOtherLanes (s t : State) (l : LaneId) : Prop :=
  ∀ m : LaneId, m ≠ l → t.lanes[m].sansNotice = s.lanes[m].sansNotice

/-- R82: the output is a station output or the hold output of a lane in RUN, DRAIN or FAULT. -/
def State.stationOfLive (s : State) (o : OutputId) : Prop :=
  ∃ l : LaneId, s.lanes[l].state ≠ .off ∧ ∃ k : Fin 4, ∃ st, s.lanes[l].config.stations[k] = some st ∧ st.output = o

/-- R136: the sample after those that the run counts falls at the present advance of TS and is still to come: so many
periods of 1, 2, 5, 10, 20, 50, 100 or 200 µs (R133) after the first. -/
def State.awaitsSample (s : State) (i : InputId) (r : Run) : Prop :=
  s.inputs[i].run = some r ∧ s.inputs[i].mark = .due ∧
    ∃ period, [1, 2, 5, 10, 20, 50, 100, 200][s.inputs[i].period.val]? = some period ∧
      r.count * period ≤ (s.position.ts - r.capture.ts).toNat

/-- R136, R137: ACCEPTED_TRANSITION of input `i` accepts this level with this capture: a run has reached its last sample,
or an unfiltered level has changed. -/
def State.acceptsAs (s : State) (i : InputId) (level : Level) (c : Capture) : Prop :=
  (s.inputs[i].run = none ∧ s.inputs[i].filterOn = false ∧ s.inputs[i].awaiting = false ∧ s.inputs[i].mark = .due ∧
      level = s.inputs[i].accepted.flip ∧ c = s.position.capture) ∨
    ∃ r, s.awaitsSample i r ∧ level = r.candidate ∧ c = r.capture ∧ s.inputs[i].stable ≤ r.count + 1

/-- R134, R136, R137: the state in which the level of input `i` has just been accepted, before it is delivered. -/
def State.accepted (s : State) (i : InputId) (level : Level) : State :=
  { s with
    pins := tset s.pins i level
    inputs := tset s.inputs i { s.inputs[i] with accepted := level, run := none, mark := .taken } }

/-- R59, R60, R62, R66: an ON entry has ended with a result: its output has released its hold, the firing has its result
unless it had one, and the entry is free. -/
def State.entryEnded (s : State) (e : ScheduleEntry) (r : FiringResult) : State :=
  { (s.mapRecord e.rid (fun it => it.endFiring e.owner.firing r)) with
    outputs := tset s.outputs e.output { s.outputs[e.output] with
      holders := s.outputs[e.output].holders.erase (.firing e.owner) }
    schedule := { s.schedule with
      positionList := s.schedule.positionList.filter (fun x => x.serial ≠ e.serial)
      timeList := s.schedule.timeList.filter (fun x => x.serial ≠ e.serial) } }

/-- R126, R122, R23: lane `l` has taken an abandoning cause: it is in FAULT with the cause in its set, its item queue is
empty and no PASSED record of it is left. -/
def State.abandonedFor (t : State) (l : LaneId) (c : Cause) : Prop :=
  t.lanes[l].state = .fault ∧ t.lanes[l].causes.has c = true ∧ t.items.queues[l] = [] ∧
    ∀ it ∈ t.items.passed, it.lane ≠ l

/-- R180, R183: a reply stands in the slot for a request of this kind and SEQ, with this payload. -/
def State.repliesWith (s : State) (kind seq : Byte) (payload : List Byte) : Prop :=
  ∃ r, s.link.slot = some r ∧ r.frame = { kind := kind + 0x40, seq := seq, payload := payload }

/-! ### Invariants of the blocks -/

/-- R119, R126, R131: HW − BP, read as a signed 32-bit difference, is never negative, the sub-millisecond count is at most
999, and a channel has shown a level that is not accepted at two samples at most; the Timer Unit takes a tick ahead of
MS_TICK only when one is due (log 12). -/
def Position.Ok (p : Position) : Prop :=
  0 ≤ p.rd.toInt ∧ p.subMs ≤ 999 ∧ p.eaRun ≤ 2 ∧ p.ebRun ≤ 2 ∧ (p.timersTaken = true → p.tickDue = true)

/-- R145: a STOPPED timer has remaining count 0, a RUNNING timer 1 to its period, and the period is 1 to 65,535. -/
def Timer.Ok (t : Timer) : Prop :=
  1 ≤ t.period ∧ t.period ≤ 65535 ∧ (t.running = true → 1 ≤ t.remaining ∧ t.remaining ≤ t.period) ∧
    (t.running = false → t.remaining = 0)

/-- R151: a reaction with trigger NONE is not enabled. -/
def Reaction.Ok (r : Reaction) : Prop :=
  r.enabled = true → r.trigger ≠ .none

/-- R133, R134: the stable count is 2 to 16; a run in progress is on an input with its filter ON, has a sample count from 1
to less than the stable count, and its candidate is not the accepted level; no run before the first comparison. -/
def Input.Ok (x : Input) : Prop :=
  2 ≤ x.stable ∧ x.stable ≤ 16 ∧
    ∀ r, x.run = some r →
      x.filterOn = true ∧ x.awaiting = false ∧ 1 ≤ r.count ∧ r.count < x.stable ∧ r.candidate ≠ x.accepted

/-- R72, R77, R79: a hold set has at most 4 members and at most one test hold; only a GENERAL output has its latch set or a
pulse running. -/
def Output.Ok (o : Output) : Prop :=
  o.holders.length ≤ 4 ∧ o.holders.count .test ≤ 1 ∧ (o.role ≠ .general → o.latch = false ∧ o.pulse = none)

/-- R161: an entry of a class other than ITEM and LANE. -/
def NoticeEntry.isOther (e : NoticeEntry) : Bool :=
  e.kind.class ≠ .item && e.kind.class ≠ .lane

/-- R160: the settings are in their ranges. -/
def NoticeSettings.Ok (n : NoticeSettings) : Prop :=
  1 ≤ n.window ∧ n.window ≤ 8 ∧ 10 ≤ n.timeout ∧ n.timeout ≤ 2000 ∧ 1 ≤ n.retryLimit ∧ n.retryLimit ≤ 15

/-- R161, R165, R167, R168, R170: at most 32 entries, at most 24 of them of the other classes, at most 8 unacknowledged;
missed counts to 255, retry count to 16; no timer runs while STALLED; a running timer has at least 1 ms left. -/
def Notices.Ok (n : Notices) : Prop :=
  n.settings.Ok ∧ n.depth ≤ 32 ∧ (n.sent ++ n.unsent).countP NoticeEntry.isOther ≤ 24 ∧ n.sent.length ≤ 8 ∧
    n.missed.input ≤ 255 ∧ n.missed.timer ≤ 255 ∧ n.missed.reaction ≤ 255 ∧ n.missed.confirm ≤ 255 ∧ n.retry ≤ 16 ∧
    (n.stalled = true → n.ackTimer = none) ∧ ∀ k, n.ackTimer = some k → 1 ≤ k

/-- R51, R53, R54: no more than 64 schedule entries are in use; the time list holds the ON entries of TIME width and the
position list all others; the model's own serial numbers are distinct (log 16). -/
def Schedule.Ok (t : Schedule) : Prop :=
  t.positionList.length + t.timeList.length ≤ 64 ∧
    (∀ e ∈ t.positionList, ∀ off, e.phase ≠ .onTime off) ∧ (∀ e ∈ t.timeList, ∃ off, e.phase = .onTime off) ∧
    (t.entries.map (·.serial)).Nodup ∧ ∀ e ∈ t.entries, e.serial < t.nextSerial

/-- R1, R2: the number of item records in use never exceeds 192; a lane's queue holds records of that lane; the model's
own serial numbers are distinct (log 16). -/
def Items.Ok (t : Items) : Prop :=
  t.inUse ≤ 192 ∧ (∀ l : LaneId, ∀ it ∈ t.queues[l], it.lane = l) ∧
    (t.all.map (·.rid)).Nodup ∧ ∀ it ∈ t.all, it.rid < t.nextRid

/-- R178 to R184: at most two requests wait, and only while the slot is full; the counts saturate; a reply is being sent
exactly while the slot holds that reply as begun. -/
def Link.Ok (l : Link) : Prop :=
  l.requests.length ≤ 2 ∧ (l.slot = none → l.requests = []) ∧ l.badFrames ≤ 65535 ∧ l.overruns ≤ 65535 ∧
    (∀ f, l.transmitter = .reply f ↔ ∃ r, l.slot = some r ∧ r.begun = true ∧ r.frame = f)

/-- R101, R108: the item queue and the Advance Verdict list of a lane in OFF are empty and its entry-blanked flag is
clear. -/
def State.offEmpty (s : State) : Prop :=
  ∀ l : LaneId, s.lanes[l].state = .off →
    s.items.queues[l] = [] ∧ s.verdicts.advance[l] = [] ∧ s.lanes[l].blanked = false

/-- R41: the order of an Advance Verdict list, by the distance from the next tag. -/
def tagOrder (next : Half) (a b : AdvanceEntry) : Prop :=
  (a.tag - next).toNat < (b.tag - next).toNat

/-- R41: each Advance Verdict list is in tag order, so its tags are distinct, and every tag lies 0 to 7 steps ahead of the
lane's next tag, so it has at most 8 entries. -/
def State.advanceOk (s : State) : Prop :=
  ∀ l : LaneId, s.verdicts.advance[l].Pairwise (tagOrder s.lanes[l].nextTag) ∧
    ∀ e ∈ s.verdicts.advance[l], (e.tag - s.lanes[l].nextTag).toNat ≤ 7

/-- R2: within each item queue tags rise by exactly 1 from oldest to newest, the newest tag being the one before the
lane's next tag, entry positions do not decrease, and no item but the newest is covering. -/
def State.queuesOk (s : State) : Prop :=
  ∀ l : LaneId, let q := s.items.queues[l]
    (∀ (k : Nat) (a b : Item), q[k]? = some a → q[k + 1]? = some b →
      b.tag = a.tag + 1 ∧ (a.entryPos - b.entryPos).toInt ≤ 0 ∧ a.covering = false) ∧
    ∀ it, q.getLast? = some it → s.lanes[l].nextTag = it.tag + 1

/-- R126: no lane is in RUN or DRAIN while HW − BP exceeds the reverse limit, but for one to which a REVERSE of the moment
is still to be taken: with no event of the moment left (log 3) there is none. -/
def State.limitOk (s : State) : Prop :=
  (∀ c ∈ s.agenda, c ≠ []) ∧
    ∀ l : LaneId, s.lanes[l].state = .run ∨ s.lanes[l].state = .drain →
      s.position.rd.toInt ≤ (s.position.rl.toNat : Int) ∨ .offer l .reverse ∈ s.agenda.flatten

/-- The registers and settings of the blocks stay in the ranges the spec gives them. -/
def State.dataOk (s : State) : Prop :=
  s.position.Ok ∧ s.limitOk ∧ (∀ t : TimerId, s.timers[t].Ok) ∧ (∀ r : ReactionId, s.reactions[r].Ok) ∧
    (∀ i : InputId, s.inputs[i].Ok) ∧ ∀ o : OutputId, s.outputs[o].Ok

/-- The notice queue and the line stay within their bounds. -/
def State.lineOk (s : State) : Prop :=
  s.notices.Ok ∧ s.link.Ok

/-- The records, entries and verdicts stay within their bounds and orders; R29: a disposition has at most 4 firings. -/
def State.recordsOk (s : State) : Prop :=
  s.items.Ok ∧ s.queuesOk ∧ s.schedule.Ok ∧ s.offEmpty ∧ s.advanceOk ∧
    ∀ i : Fin 16, s.verdicts.dispositions[i].firings.length ≤ 4

end Sys2Proof.Machine
end

