-- ==== Sys2Proof/Certificates/Slice0/Obligations.lean ====
section
/-! DEFINITION. The statements for the provers. `s.takesNow` says that a request is taken as it is accepted;
`s.answers kind seq payload` is the state that has answered it and changed nothing else; `s.quiet` says that no event of
the moment and no frame is left over. -/

section

open Sys2Proof Sys2Proof.Machine

/-! ### The machine -/

/-- The command at the front of the queue is run on the queue's rest; on an empty queue the block idles (log 4). -/
def Obligations.FrontCommandRuns : Prop :=
  (∀ (c : Instr) (s : State), step { s with pending := c :: s.pending } = exec c s) ∧
    ∀ s : State, s.pending = [] → step s = .next s

/-- R25, R29, R41, R70, R83, R118, R119, R132, R133, R145, R151, R160, R188, R193: a power-on reset that is taken
gives every block its power-on values, the filtered channel levels being those at the pins; a pulse below 200 ns
leaves the part untouched; one from 200 ns to 1 µs does one or the other. The pins, the lane byte of an output, and
the wait for the first comparison are the model's choice (log 8, log 9, log 17, log 10). -/
def Obligations.PowerOnResetRestoresEveryBlock : Prop :=
  ∀ (s : State) (cause : ResetCause) (b1 b0 : Level),
    let restored (t : State) : Prop :=
      t.items.queues = Vector.replicate 4 [] ∧ t.items.done = [] ∧ t.items.passed = [] ∧
      t.verdicts = Verdicts.reset ∧ t.schedule.positionList = [] ∧ t.schedule.timeList = [] ∧
      t.outputs = Vector.replicate 16 Output.reset ∧ t.windows = Vector.replicate 16 [] ∧
      t.lanes = Vector.replicate 4 Lane.reset ∧
      t.position = { Position.reset with
        ea := s.position.eaPin, eb := s.position.ebPin, eaPin := s.position.eaPin, ebPin := s.position.ebPin } ∧
      t.inputs = Vector.replicate 16 Input.reset ∧ t.timers = Vector.replicate 4 Timer.reset ∧
      t.reactions = Vector.replicate 12 Reaction.reset ∧ t.notices = Notices.reset ∧
      t.link = { Link.reset with
        baud := match b1, b0 with
          | .low, .low => .b115200
          | .low, .high => .b460800
          | .high, .low => .b921600
          | .high, .high => .b1000000 } ∧
      t.pins = s.pins ∧ t.pending = s.pending
    (cause = .powerUp ∨ (∃ ns, cause = .lowPulse ns ∧ 1000 ≤ ns) →
      ∃ t, exec (.powerOnReset cause b1 b0) s = .next t ∧ restored t) ∧
    (∀ ns, cause = .lowPulse ns → ns < 200 → exec (.powerOnReset cause b1 b0) s = .next s) ∧
    (∀ ns, cause = .lowPulse ns → 200 ≤ ns → ns < 1000 →
      ∃ t, exec (.powerOnReset cause b1 b0) s = .next t ∧ (restored t ∨ OnlyChanges [.choices] s t))

/-- R187, R119, R160, R172: the soft reset restores every block, the filtered channel levels being those at the pins,
but keeps W, the timeout and the retry limit, the baud rate, the link counts, and the last-request record and store.
That the row resets whenever it comes, the pins, the lane byte of an output, and the wait for the first comparison
are the model's choice (log 30, log 8, log 9, log 17, log 10). -/
def Obligations.SoftResetRestoresEveryBlock : Prop :=
  ∀ s : State, ∃ t, exec .softReset s = .next t ∧
    t.items.queues = Vector.replicate 4 [] ∧ t.items.done = [] ∧ t.items.passed = [] ∧
    t.verdicts = Verdicts.reset ∧ t.schedule.positionList = [] ∧ t.schedule.timeList = [] ∧
    t.outputs = Vector.replicate 16 Output.reset ∧ t.windows = Vector.replicate 16 [] ∧
    t.lanes = Vector.replicate 4 Lane.reset ∧
    t.position = { Position.reset with
        ea := s.position.eaPin, eb := s.position.ebPin, eaPin := s.position.eaPin, ebPin := s.position.ebPin } ∧
    t.inputs = Vector.replicate 16 Input.reset ∧ t.timers = Vector.replicate 4 Timer.reset ∧
    t.reactions = Vector.replicate 12 Reaction.reset ∧
    t.notices = { Notices.reset with
      settings := { NoticeSettings.reset with
        window := s.notices.settings.window, timeout := s.notices.settings.timeout
        retryLimit := s.notices.settings.retryLimit } } ∧
    t.link = { s.link with receiver := .hunting, requests := [], slot := none, transmitter := .idle } ∧
    t.pins = s.pins ∧ t.pending = s.pending ∧ t.choices = s.choices

/-! ### The line: frames and requests -/

/-- R177, R178: in HUNTING a byte other than START is dropped and START begins a frame; in ASSEMBLING a LEN out of
range ends the frame and is counted, and a byte that does not complete the frame is kept; a gap or a framing error
ends a frame in assembly and is counted, and has no effect in HUNTING. A complete frame with a wrong CRC, or of a
kind that is no request kind, is discarded and counted once. The byte that completes a frame delivers it with the CRC
that came, right or wrong, high byte first. R190 to R192: each request row is the good frame with the kind and the
payload bytes of the tables of 12.1 and 12.3; that a row stands for that frame is the model's choice (log 5). -/
def Obligations.BytesAreAssembledAndFramesChecked : Prop :=
  (∀ (s : State) (b : Byte), s.quiet →
      (s.link.receiver = .hunting → b ≠ 0xD5 → exec (.byteReceived b) s = .next s) ∧
      (s.link.receiver = .hunting → b = 0xD5 →
        exec (.byteReceived b) s = .next { s with link := { s.link with receiver := .assembling [] } }) ∧
      (s.link.receiver = .assembling [] → b.toNat < 2 ∨ 130 < b.toNat →
        exec (.byteReceived b) s = .next { s with
          link := { s.link with receiver := .hunting, badFrames := min 65535 (s.link.badFrames + 1) } }) ∧
      (s.link.receiver = .assembling [] → 2 ≤ b.toNat → b.toNat ≤ 130 →
        exec (.byteReceived b) s = .next { s with link := { s.link with receiver := .assembling [b] } }) ∧
      (∀ len bytes, s.link.receiver = .assembling (len :: bytes) → 2 ≤ len.toNat → len.toNat ≤ 130 →
        bytes.length + 1 < len.toNat + 2 →
        exec (.byteReceived b) s = .next { s with link := { s.link with receiver := .assembling (len :: bytes ++ [b]) } })) ∧
  (∀ s : State, s.quiet →
      (s.link.receiver = .hunting → exec .interByteGap s = .next s ∧ exec .framingError s = .next s) ∧
      (∀ bytes, s.link.receiver = .assembling bytes →
        let t : State := { s with
          link := { s.link with receiver := .hunting, badFrames := min 65535 (s.link.badFrames + 1) } }
        exec .interByteGap s = .next t ∧ exec .framingError s = .next t)) ∧
  (∀ (s : State) (kind seq : Byte) (payload : List Byte) (crc : Half),
     let good : Prop := crc16 (Frame.covered { kind := kind, seq := seq, payload := payload }) = crc ∧
       1 ≤ kind.toNat ∧ kind.toNat ≤ 0x3F
     (s.quiet → ¬ good → exec (.frameReceived kind seq payload crc) s = .next { s with
       link := { s.link with receiver := .hunting, badFrames := min 65535 (s.link.badFrames + 1) } }) ∧
     (good → exec (.frameReceived kind seq payload crc) s = s.request kind seq payload)) ∧
  (∀ (s : State) (len kind seq hi lo : Byte) (payload : List Byte),
     s.link.receiver = .assembling (len :: kind :: seq :: (payload ++ [hi])) → len.toNat = payload.length + 2 →
     len.toNat ≤ 130 → exec (.byteReceived lo) s = exec (.frameReceived kind seq payload (hi ++ lo)) s) ∧
  (∀ (s : State) (seq a b c d e f g : Byte) (h k : Half) (w : Pos),
     let frame (kind : Byte) (payload : List Byte) : Host.Outcome State Fault Refusal :=
       exec (.frameReceived kind seq payload (crc16 (Frame.covered { kind := kind, seq := seq, payload := payload }))) s
     exec (.getStatus seq) s = frame 0x01 [] ∧ exec (.reset seq) s = frame 0x02 [] ∧
     exec (.getConfig seq a b) s = frame 0x03 [a, b] ∧ exec (.ackNotice seq a) s = frame 0x04 [a] ∧
     (∀ n : NoticeFields, exec (.setNotice seq n) s = frame 0x05
       ([n.subKinds] ++ halfBytes n.inputs ++ [n.timers, n.confirm, n.levelItem, n.levelLane, n.levelInput, n.levelTimer,
         n.levelReaction, n.levelConfirm, n.window] ++ halfBytes n.timeout ++ [n.retryLimit])) ∧
     (∀ n : LaneFields, exec (.setLane seq a n) s = frame 0x08
       ([a, n.entryInput] ++ wordBytes n.d ++ wordBytes n.x ++ wordBytes n.l ++
         wordBytes n.station0.offset ++ [n.station0.output] ++ wordBytes n.station1.offset ++ [n.station1.output] ++
         wordBytes n.station2.offset ++ [n.station2.output] ++ wordBytes n.station3.offset ++ [n.station3.output] ++
         [n.default, n.limit, n.holdOutput, n.holdMark])) ∧
     exec (.getLane seq a) s = frame 0x09 [a] ∧ exec (.arm seq a) s = frame 0x0A [a] ∧
     exec (.disarm seq a) s = frame 0x0B [a] ∧ exec (.clear seq a) s = frame 0x0C [a] ∧
     (∀ (firings : List FiringField) (confirm : Option ConfirmField),
       exec (.setDisposition seq a firings confirm) s = frame 0x10
         ([a, natByte firings.length, if confirm.isSome = true then 1 else 0] ++
           firings.flatMap (fun x => [x.station, x.widthKind] ++ halfBytes x.adjust ++ halfBytes x.width) ++
           (match confirm with
             | none => []
             | some x => [x.input, x.expect] ++ wordBytes x.openOffset ++ wordBytes x.closeOffset))) ∧
     exec (.verdict seq a h b) s = frame 0x11 ([a] ++ halfBytes h ++ [b]) ∧
     exec (.getItem seq a h) s = frame 0x12 ([a] ++ halfBytes h) ∧ exec (.listItems seq a b) s = frame 0x13 [a, b] ∧
     exec (.setOutput seq a b c d) s = frame 0x18 [a, b, c, d] ∧
     exec (.forceOutput seq a b h) s = frame 0x19 ([a, b] ++ halfBytes h) ∧
     exec (.setInput seq a b c d e f g) s = frame 0x1C [a, b, c, d, e, f, g] ∧
     exec (.setEncoder seq a h b) s = frame 0x20 ([a] ++ halfBytes h ++ [b]) ∧
     exec (.setPosition seq w) s = frame 0x21 (wordBytes w) ∧ exec (.getPosition seq) s = frame 0x22 [] ∧
     exec (.setTimer seq a h b) s = frame 0x28 ([a] ++ halfBytes h ++ [b]) ∧
     exec (.startTimer seq a) s = frame 0x29 [a] ∧ exec (.stopTimer seq a) s = frame 0x2A [a] ∧
     (∀ n : ReactionFields, exec (.setReaction seq a n) s = frame 0x2C
       ([a, n.triggerKind, n.triggerParam, n.triggerResult, n.actionKind, n.actionParam] ++ halfBytes n.actionWidth ++
         [n.mode] ++ halfBytes n.chain)) ∧
     exec (.enableReaction seq h k) s = frame 0x2D (halfBytes h ++ halfBytes k) ∧
     exec (.fireReaction seq a) s = frame 0x2E [a] ∧
     (∀ p : List Byte, exec (.unknownKind a seq p) s = frame a p))

/-- R176, R177, R190: the bytes of a frame, received one by one, deliver that frame with its CRC, whatever its kind,
its SEQ and its payload of up to 128 bytes. -/
def Obligations.FrameBytesDeliverTheFrame : Prop :=
  ∀ (s : State) (f : Frame), s.quiet → s.link.receiver = .hunting → f.payload.length ≤ 128 →
    s.feed f.bytes = exec (.frameReceived f.kind f.seq f.payload (crc16 f.covered)) s

/-- R178 to R181: while the reply slot is full a good frame waits at the end of the request queue, or is an overrun when two
wait; a request of the KIND and SEQ of the last-request record is not executed and the stored reply is sent again. Either
way STALLED has ended (R168, R171): the flag is clear, the retry count 0, every unacknowledged entry is marked for
resending, and the timer is at the full timeout when there is one; a link that is not STALLED is left. -/
def Obligations.WaitingOverrunAndDuplicateFrames : Prop :=
  (∀ (s : State) (kind seq : Byte) (payload : List Byte) (r : ReplySlot), s.agenda = [] → s.link.transmitter ≠ .idle →
      s.link.slot = some r → 1 ≤ kind.toNat → kind.toNat ≤ 0x3F →
      let crc := crc16 (Frame.covered { kind := kind, seq := seq, payload := payload })
      (s.link.requests.length < 2 → exec (.frameReceived kind seq payload crc) s = .next { s with
        notices := s.notices.endStall
        link := { s.link with
          receiver := .hunting
          requests := s.link.requests ++ [{ kind := kind, seq := seq, payload := payload }] } }) ∧
      (2 ≤ s.link.requests.length → exec (.frameReceived kind seq payload crc) s = .next { s with
        notices := s.notices.endStall
        link := { s.link with receiver := .hunting, overruns := min 65535 (s.link.overruns + 1) } })) ∧
  (∀ (s : State) (last : LastRequest) (payload : List Byte), s.agenda = [] → s.link.requests = [] → s.link.slot = none →
      s.link.last = some last → last.kind ≠ 0x04 → 1 ≤ last.kind.toNat → last.kind.toNat ≤ 0x3F →
      exec (.frameReceived last.kind last.seq payload
          (crc16 (Frame.covered { kind := last.kind, seq := last.seq, payload := payload }))) s =
        .next { s with
          notices := s.notices.endStall
          link := { s.link with
            receiver := .hunting
            slot := some { frame := last.reply, begun := s.link.transmitter = .idle, resets := false }
            transmitter := if s.link.transmitter = .idle then .reply last.reply else s.link.transmitter } }) ∧
  (∀ n : Notices, (n.stalled = false → n.endStall = n) ∧
    (n.stalled = true → n.endStall = { n with
      stalled := false, retry := 0, sent := n.sent.map (fun e => { e with resend := true })
      ackTimer := if n.sent = [] then none else some n.settings.timeout }))

/-- R182, R187, R191: a kind to which no request is assigned is refused with UNKNOWN_KIND and nothing else happens; RESET is
answered OK, and its reply is marked as the one at whose end the soft reset is taken. R192: a payload of another length
than its kind's is refused with BAD_LENGTH and nothing else happens; the length of SET_DISPOSITION is the one that its
declared count and confirm-present byte give, and one that fits with that byte above 1 is refused with BAD_VALUE. -/
def Obligations.UnknownKindAndResetAreAnswered : Prop :=
  (∀ (s : State) (kind seq : Byte) (payload : List Byte), s.takesNow kind seq →
      (Instr.unknownKind kind seq payload).wellFormed = true →
      exec (.unknownKind kind seq payload) s = .next (s.answers kind seq [1])) ∧
  (∀ (s : State) (seq : Byte), s.takesNow 0x02 seq →
      let a := s.answers 0x02 seq [0]
      exec (.reset seq) s = .next { a with
        link := { a.link with slot := a.link.slot.map (fun r => { r with resets := true }) } }) ∧
  (∀ (s : State) (kind seq : Byte) (payload : List Byte), s.takesNow kind seq →
    let refused (status : Byte) : Prop :=
      exec (.frameReceived kind seq payload (crc16 (Frame.covered { kind := kind, seq := seq, payload := payload }))) s =
        .next (s.answers kind seq [status])
    let lengths : List (Byte × Nat) :=
      [(0x01, 0), (0x02, 0), (0x03, 2), (0x04, 1), (0x05, 15), (0x08, 38), (0x09, 1), (0x0A, 1), (0x0B, 1), (0x0C, 1),
        (0x11, 4), (0x12, 3), (0x13, 2), (0x18, 4), (0x19, 4), (0x1C, 7), (0x20, 4), (0x21, 4), (0x22, 0), (0x28, 4),
        (0x29, 1), (0x2A, 1), (0x2C, 11), (0x2D, 4), (0x2E, 1)]
    (∀ n, (kind, n) ∈ lengths → payload.length ≠ n → refused 2) ∧
    (kind = 0x10 → payload.length < 3 → refused 2) ∧
    (∀ (index n c : Byte) (rest : List Byte), kind = 0x10 → payload = index :: n :: c :: rest →
      let fits : Prop := rest.length = 6 * n.toNat + (if c = 0 then 0 else 10)
      (¬ fits → refused 2) ∧ (fits → 1 < c.toNat → refused 3)))

/-- R180, R184, R187: at the end of a reply the slot empties; the end of a RESET reply takes the soft reset; otherwise the
head of the request queue leaves it and is taken at once, executed as a request that comes while no other waits, or
answered from the store as a duplicate, and its reply begins. With no request waiting, and at the end of a notice frame,
the line is granted: a waiting reply is sent first, otherwise the Notice Queue's frame when it has one; with nothing to
send the transmitter is IDLE. A grant while the transmitter is SENDING does nothing; while it is IDLE a waiting reply
begins, and otherwise a notice frame that is ready: an entry marked for resending, or the next number for the first time
(which one: NoticesAreSentAndAdmitted). That a grant comes at the end of the events of a command, that at most 4096 of
these are taken, and what NOTICE_SEND does when it is sent alone, is the model's choice (log 31, log 3, log 1). -/
def Obligations.EndsOfFramesGrantTheLine : Prop :=
  (∀ s : State, s.done = .next (State.settle 4096 s).grant ∧
    (s.link.transmitter ≠ .idle → s.grant = s) ∧
    (∀ r, s.link.transmitter = .idle → s.link.slot = some r → r.begun = false → s.grant = { s with
      link := { s.link with slot := some { r with begun := true }, transmitter := .reply r.frame } }) ∧
    (s.link.transmitter = .idle → s.link.replyWaits = false →
      (s.notices.hasFrame = false → s.grant = s) ∧
      (s.notices.hasFrame = true → ∃ e : NoticeEntry,
        ((e ∈ s.notices.sent ∧ e.resend = true ∧ { e with resend := false } ∈ s.grant.notices.sent) ∨
          (e.number = some s.notices.nextNumber ∧ s.grant.notices.sent = s.notices.sent ++ [e])) ∧
        s.grant.link = { s.link with transmitter := .notice e.frame }) ∧
      (s.agenda = [] → exec .noticeSend s = .next s.grant))) ∧
  (∀ (s : State) (f : Frame) (r : ReplySlot), s.link.transmitter = .reply f → s.link.slot = some r →
      (r.resets = true → exec (.replyEnd) s = exec .softReset s) ∧
      (r.resets = false → s.agenda = [] → s.link.requests = [] → s.notices.hasFrame = false →
        exec .replyEnd s = .next { s with link := { s.link with transmitter := .idle, slot := none } }) ∧
      (r.resets = false → s.link.requests = [] →
        let ended : State := { s with link := { s.link with transmitter := .idle, slot := none } }
        exec .replyEnd s = ended.done ∧ (s.agenda = [] → exec .replyEnd s = .next ended.grant)) ∧
      (∀ q rest, r.resets = false → s.link.requests = q :: rest →
        exec .replyEnd s =
          (State.takeRequest { s with link := { s.link with transmitter := .idle, slot := none, requests := rest } } q).done ∧
        ∃ (t : State) (reply : ReplySlot), exec .replyEnd s = .next t ∧ t.link.requests = rest ∧
          t.link.slot = some reply ∧ reply.begun = true ∧ t.link.transmitter = .reply reply.frame ∧
          (s.link.isDuplicate q = false → reply.frame.kind = q.kind + 0x40 ∧ reply.frame.seq = q.seq))) ∧
  (∀ (s : State) (q : Frame),
      (s.link.requests = [] → s.link.slot = none → s.request q.kind q.seq q.payload = State.done
        (State.takeRequest { s with notices := s.notices.endStall, link := { s.link with receiver := .hunting } } q)) ∧
      (s.link.isDuplicate q = true ↔ q.kind ≠ 0x04 ∧ ∃ r, s.link.last = some r ∧ r.kind = q.kind ∧ r.seq = q.seq) ∧
      (∀ r, s.link.isDuplicate q = true → s.link.last = some r → s.takeRequest q = { s with
        link := { s.link with slot := some { frame := r.reply, begun := false, resets := false } } }) ∧
      (s.link.isDuplicate q = false →
        let answer := s.dispatch q.kind q.payload
        let reply : Frame := { kind := q.kind + 0x40, seq := q.seq, payload := answer.1 }
        s.takeRequest q = { answer.2 with
          link := { answer.2.link with
            slot := some { frame := reply, begun := false, resets := decide (q.kind = 0x02 ∧ q.payload = []) }
            last := if q.kind = 0x04 then answer.2.link.last
              else some { kind := q.kind, seq := q.seq, reply := reply } } })) ∧
  (∀ (s : State) (f : Frame), s.link.transmitter = .notice f → s.agenda = [] →
      (∀ r, s.link.slot = some r → r.begun = false → exec .noticeFrameEnd s = .next { s with
        link := { s.link with slot := some { r with begun := true }, transmitter := .reply r.frame } }) ∧
      (s.link.replyWaits = false → s.notices.hasFrame = false →
        exec .noticeFrameEnd s = .next { s with link := { s.link with transmitter := .idle } }) ∧
      exec .noticeFrameEnd s = .next (State.grant { s with link := { s.link with transmitter := .idle } }))

/-! ### The requests that read -/

/-- R185, R129, R100, R114: GET_STATUS, GET_POSITION and GET_LANE change nothing: GET_STATUS returns the state of the
part, which has ended STALLED with the frame itself; GET_POSITION returns BP, HW, RD = HW − BP, the direction and TS;
GET_LANE returns the lane's configuration and state, its hold condition included. -/
def Obligations.ReadRequestsReturnTheState : Prop :=
  (∀ (s : State) (seq : Byte), s.takesNow 0x01 seq →
     exec (.getStatus seq) s = .next (s.answers 0x01 seq
       ([(0 : Byte)] ++ [s.lanes[0].state.code, s.lanes[1].state.code, s.lanes[2].state.code, s.lanes[3].state.code] ++
         [s.lanes[0].causes.code, s.lanes[1].causes.code, s.lanes[2].causes.code, s.lanes[3].causes.code] ++
         [natByte (192 - s.items.inUse), natByte (64 - (s.schedule.positionList.length + s.schedule.timeList.length)),
           natByte (s.notices.sent.length + s.notices.unsent.length), natByte s.notices.sent.length,
           flagByte [false, s.inhibit, s.position.encoderFault]] ++
         natHalf s.link.badFrames ++ natHalf s.link.overruns ++
         wordBytes s.position.bp ++ wordBytes s.position.hw ++ wordBytes s.position.ts ++
         [natByte s.notices.missed.input, natByte s.notices.missed.timer, natByte s.notices.missed.reaction,
           natByte s.notices.missed.confirm, 1]))) ∧
  (∀ (s : State) (seq : Byte), s.takesNow 0x22 seq →
     exec (.getPosition seq) s = .next (s.answers 0x22 seq
       ([(0 : Byte)] ++ wordBytes s.position.bp ++ wordBytes s.position.hw ++
         wordBytes (s.position.hw - s.position.bp) ++
         [match s.position.direction with
           | .none => (0 : Byte)
           | .forward => 1
           | .reverse => 2] ++ wordBytes s.position.ts))) ∧
  (∀ (s : State) (seq lane : Byte), s.takesNow 0x09 seq →
     (3 < lane.toNat → exec (.getLane seq lane) s = .next (s.answers 0x09 seq [3])) ∧
     (∀ l : LaneId, lane = natByte l →
       let x := s.lanes[l]
       let count := s.items.queues[l].length
       let hold : Bool := x.state = .fault ∨ (x.state = .run ∧ x.config.holdMark ≠ 0 ∧ x.config.holdMark ≤ count)
       exec (.getLane seq lane) s = .next (s.answers 0x09 seq
         ([0, lane] ++ x.config.bytes ++
           [x.state.code, x.causes.code, firstCauseCode x.first, flagByte [x.blanked, hold]] ++
           natHalf x.untracked ++ halfBytes x.nextTag ++
           [natByte count, natByte ((s.items.done ++ s.items.passed).filter (fun it => it.lane = l)).length,
             natByte s.verdicts.advance[l].length]))))

/-- R26, R27, R190: GET_ITEM changes nothing and returns the record of the lane's queue with the tag, else a retired
record of the lane and tag (the model takes the one with the largest number, log 16), else UNKNOWN_ITEM; LIST_ITEMS
changes nothing and returns up to eight summaries from the start, or FULL beyond the end. The bytes of a record and of
a summary are those of section 12.3, with the codes of 12.1; that a summary has no notice flags is the model's choice
(log 27). -/
def Obligations.ItemReadsReturnRecords : Prop :=
  (∀ it : Item,
    let covering : List Bool := [it.covering, it.overlength, it.skipped, match it.committed with
      | none => false
      | some c => c.substituted]
    let length := wordBytes (it.length.getD 0xFFFFFFFF)
    let result : Byte := match it.result with
      | none => 0xFF
      | some q => q.code
    it.replyBytes =
      [natByte it.lane] ++ halfBytes it.tag ++
      [it.state.code, flagByte (covering ++ [it.committed.isSome, it.result.isSome])] ++
      wordBytes it.entryPos ++ wordBytes it.entryTime ++ length ++
      (match it.stored with
        | none => [0xFF, 0xFF]
        | some v => [natByte v.index, v.source.code]) ++
      [natByte it.amend] ++
      (match it.committed with
        | none => [0xFF, 0xFF, result, it.entryFlag.code, it.commitFlag.code, it.outcomeFlag.code, 0, 0, 0]
        | some c =>
          [c.source.code, natByte c.index, result, it.entryFlag.code, it.commitFlag.code, it.outcomeFlag.code,
            natByte c.firings.length, if c.confirm = none then 0 else 1, confirmResultCode (c.confirm.map (·.result))] ++
          c.firings.flatMap (fun f => [natByte f.station, f.widthKind.code] ++ wordBytes f.fireOffset ++
            halfBytes f.width ++ [f.result.code]) ++
          (match c.confirm with
            | none => []
            | some k => [natByte k.input, k.expect.code] ++ wordBytes k.openOffset ++ wordBytes k.closeOffset)) ∧
    it.summaryBytes =
      halfBytes it.tag ++ [it.state.code] ++ wordBytes it.entryPos ++ length ++
      [match it.committed, it.stored with
        | some c, _ => natByte c.index
        | none, some v => if it.state = .opened then natByte v.index else 0xFF
        | none, none => 0xFF, result, flagByte covering]) ∧
  (∀ (h : Half) (w : Pos), halfBytes h = [h.extractLsb' 0 8, h.extractLsb' 8 8] ∧
    wordBytes w = [w.extractLsb' 0 8, w.extractLsb' 8 8, w.extractLsb' 16 8, w.extractLsb' 24 8]) ∧
  (∀ (bs : List Bool) (k : Nat), k < 8 → (flagByte bs).getLsbD k = bs.getD k false) ∧
  ([ItemState.opened, .committed, .passed, .done].map (·.code) = [0, 1, 2, 3] ∧
    [Summary.ok, .suppressed, .cut, .conflict, .missed, .leak, .skipped, .abandoned].map (·.code) =
      [0, 1, 2, 3, 4, 5, 6, 7] ∧
    [FiringResult.pending, .done, .suppressed, .conflict, .cut, .cancelled].map (·.code) = [0, 1, 2, 3, 4, 5] ∧
    [none, some ConfirmResult.waiting, some .confirmed, some .missed, some .leak, some .cancelled].map
      confirmResultCode = [0, 1, 2, 3, 4, 5] ∧
    [VerdictSource.host, .advance, .default].map (·.code) = [0, 1, 2] ∧
    [WidthKind.time, .counts].map (·.code) = [0, 1] ∧ [Expect.present, .absent].map (·.code) = [0, 1] ∧
    [NoticeFlag.notDue, .pending, .queued, .sent, .acknowledged].map (·.code) = [0, 1, 2, 3, 4]) ∧
  (∀ (s : State) (seq lane : Byte) (tag : Half), s.takesNow 0x12 seq →
      (3 < lane.toNat → exec (.getItem seq lane tag) s = .next (s.answers 0x12 seq [3])) ∧
      (∀ l : LaneId, lane = natByte l →
        (∀ it, s.items.queues[l].find? (fun x => x.tag = tag) = some it →
          exec (.getItem seq lane tag) s = .next (s.answers 0x12 seq (0 :: it.replyBytes))) ∧
        (s.items.queues[l].find? (fun x => x.tag = tag) = none →
          (∀ it ∈ s.items.retired, ¬ (it.lane = l ∧ it.tag = tag)) →
          exec (.getItem seq lane tag) s = .next (s.answers 0x12 seq [5])) ∧
        (s.items.queues[l].find? (fun x => x.tag = tag) = none →
          (∃ it ∈ s.items.retired, it.lane = l ∧ it.tag = tag) →
          ∃ it ∈ s.items.retired, it.lane = l ∧ it.tag = tag ∧
            (∀ other ∈ s.items.retired, other.lane = l → other.tag = tag → other.rid ≤ it.rid) ∧
            exec (.getItem seq lane tag) s = .next (s.answers 0x12 seq (0 :: it.replyBytes))))) ∧
  (∀ (s : State) (seq lane start : Byte), s.takesNow 0x13 seq →
      (3 < lane.toNat → exec (.listItems seq lane start) s = .next (s.answers 0x13 seq [3])) ∧
      (∀ l : LaneId, lane = natByte l →
        let records := s.items.queues[l] ++ (s.items.done ++ s.items.passed).filter (fun it => it.lane = l)
        (records.length < start.toNat →
          exec (.listItems seq lane start) s = .next (s.answers 0x13 seq [7])) ∧
        (start.toNat ≤ records.length →
          exec (.listItems seq lane start) s = .next (s.answers 0x13 seq
            ([0, natByte records.length, start, natByte (min 8 (records.length - start.toNat))] ++
              ((records.drop start.toNat).take 8).flatMap (·.summaryBytes))))))

/-- R186: GET_CONFIG changes nothing and returns the record that the named SET request writes, after the kind and index; a
kind or an index that names none is refused. -/
def Obligations.GetConfigReadsTheRecord : Prop :=
  ∀ (s : State) (seq kind index : Byte), s.takesNow 0x03 seq →
    let reads (bytes : List Byte) : Prop :=
      exec (.getConfig seq kind index) s = .next (s.answers 0x03 seq ([0, kind, index] ++ bytes))
    (∀ i : Fin 16, index = natByte i →
      (kind = 0 → reads s.verdicts.dispositions[i].bytes) ∧ (kind = 2 → reads s.outputs[i].configBytes) ∧
        (kind = 3 → reads s.inputs[i].configBytes)) ∧
    (∀ i : Fin 4, index = natByte i →
      (kind = 1 → reads s.lanes[i].config.bytes) ∧ (kind = 5 → reads s.timers[i].configBytes)) ∧
    (∀ i : Fin 12, index = natByte i → kind = 6 → reads s.reactions[i].configBytes) ∧
    (kind = 4 → reads s.position.configBytes) ∧ (kind = 7 → reads s.notices.settings.bytes) ∧
    (7 < kind.toNat ∨ ((kind = 0 ∨ kind = 2 ∨ kind = 3) ∧ 15 < index.toNat) ∨
        ((kind = 1 ∨ kind = 5) ∧ 3 < index.toNat) ∨ (kind = 6 ∧ 11 < index.toNat) →
      exec (.getConfig seq kind index) s = .next (s.answers 0x03 seq [3]))

/-! ### Timers and reactions -/

/-- R146, R149, R150: SET_TIMER writes period and mode and stops the timer, which does not expire until a start,
which uses the new period. START_TIMER and STOP_TIMER, and the actions TIMER_START and TIMER_STOP, start and stop one
timer; the replies show its state and its remaining count, that of STOP_TIMER the one before it. -/
def Obligations.TimerRequestsWriteStartAndStop : Prop :=
  (∀ (s : State) (seq timer : Byte) (period : Half) (mode : Byte), s.takesNow 0x28 seq →
     (3 < timer.toNat ∨ period = 0 ∨ 1 < mode.toNat →
       exec (.setTimer seq timer period mode) s = .next (s.answers 0x28 seq [3])) ∧
     (∀ (t : TimerId) (m : TimerMode), timer = natByte t → mode = m.code → period ≠ 0 →
       let x : Timer := { s.timers[t] with period := period.toNat, mode := m, running := false, remaining := 0 }
       exec (.setTimer seq timer period mode) s =
         .next (State.answers { s with timers := tset s.timers t x } 0x28 seq [0, 0, 0, 0]) ∧
       (∀ u : State, u.timers[t] = x →
         (u.tickTimers.timers[t] = x ∧ (u.agenda = [] → [Event.expired t] ∉ u.tickTimers.agenda)) ∧
         (u.quiet → exec (.timerExpiry t) u = .next u) ∧
         (∀ n : Byte, u.takesNow 0x29 n → ∃ v, exec (.startTimer n timer) u = .next v ∧
           v.timers[t] = { x with running := true, remaining := period.toNat }) ∧
         ∀ r : ReactionId, u.reactions[r].action = .timerStart t →
           (u.perform r).timers[t] = { x with running := true, remaining := period.toNat }))) ∧
  (∀ (s : State) (seq timer : Byte),
     (3 < timer.toNat →
       (s.takesNow 0x29 seq → exec (.startTimer seq timer) s = .next (s.answers 0x29 seq [3])) ∧
       (s.takesNow 0x2A seq → exec (.stopTimer seq timer) s = .next (s.answers 0x2A seq [3]))) ∧
     (∀ t : TimerId, timer = natByte t →
       let x := s.timers[t]
       let started : State := { s with timers := tset s.timers t { x with running := true, remaining := x.period } }
       let stopped : State := { s with timers := tset s.timers t { x with running := false, remaining := 0 } }
       (s.takesNow 0x29 seq →
         exec (.startTimer seq timer) s = .next (started.answers 0x29 seq ([0, 1] ++ natHalf x.period))) ∧
       (s.takesNow 0x2A seq →
         exec (.stopTimer seq timer) s = .next (stopped.answers 0x2A seq ([0, 0] ++ natHalf x.remaining))) ∧
       (∀ r : ReactionId, s.reactions[r].action = .timerStart t → s.perform r = started) ∧
       (∀ r : ReactionId, s.reactions[r].action = .timerStop t → s.perform r = stopped) ∧
       (x.Ok → x.running = false → x.remaining = 0 ∧ stopped = s)))

/-- R131, R147: at a tick the Timer Unit counts every timer once, each reloaded or stopped at its end, whatever the
order in which the blocks take the tick; here with no reaction enabled that a timer triggers, and with no entry of the
time list and no pulse whose end TS has reached. A tick that the Timer Unit has taken ahead of MS_TICK is the model's
own (log 12). That a timer of period 1 ms that was due at the tick and restarted just before it expires at it is the
model's choice (R147, R148, log 33). -/
def Obligations.TickCountsEveryTimer : Prop :=
  ∀ s : State, s.agenda = [] → (∀ (r : ReactionId) (k : TimerId), s.reactions[r].enabled = true →
      s.reactions[r].trigger ≠ .timer k) →
    (∀ e ∈ s.schedule.timeList, (s.position.ts - e.filing).toInt < 0) →
    (∀ (o : OutputId) (p : Pos), s.outputs[o].pulse = some p → (s.position.ts - p).toInt < 0) →
    ∃ t, exec .msTick s = .next t ∧
      (∀ k : TimerId, let x := s.timers[k]
        t.timers[k] = if s.position.timersTaken = true ∨ x.running = false then x
          else if 1 < x.remaining then { x with remaining := x.remaining - 1 }
          else match x.mode with
            | .periodic => { x with remaining := x.period }
            | .oneShot => { x with running := false, remaining := 0 }) ∧
      t.position = { s.position with tickDue := false, timersTaken := false } ∧ t.agenda = [] ∧
      OnlyChanges [.timers, .notices, .items, .link, .position, .choices] s t

/-- R131, R168, R170: a tick at which no timer runs and no timed firing and no pulse ends takes 1 from a running
acknowledgement timer, and leaves a stopped one; at 0 the retry count rises, and a resend round begins or the link is
STALLED, whether MS_TICK brings the tick or ACK_TIMEOUT the timer's share of it. The grant of the line follows (see
EndsOfFramesGrantTheLine). The tick at hand and its shares taken early are the model's own (log 12): the tick does
nothing more to a timer that has taken it. -/
def Obligations.AckTimerCountsAndTimesOut : Prop :=
  (∀ s : State, s.agenda = [] → (∀ t : TimerId, s.timers[t].running = false) →
    (∀ e ∈ s.schedule.timeList, (s.position.ts - e.filing).toInt < 0) →
    (∀ (o : OutputId) (p : Pos), s.outputs[o].pulse = some p → (s.position.ts - p).toInt < 0) →
    let ticked (n : Notices) : State :=
      { s with position := { s.position with tickDue := false, timersTaken := false }, notices := n }
    (s.notices.ackEarly = true → exec .msTick s = .next (ticked { s.notices with ackEarly := false }).grant) ∧
    (s.notices.ackEarly = false → s.notices.ackTimer = none → exec .msTick s = .next (ticked s.notices).grant) ∧
    (∀ k, s.notices.ackEarly = false → s.notices.ackTimer = some k → 1 < k →
      exec .msTick s = .next (ticked { s.notices with ackTimer := some (k - 1) }).grant ∧
      (s.quiet → exec .msTick s = .next (ticked { s.notices with ackTimer := some (k - 1) }))) ∧
    (s.notices.ackEarly = false → s.notices.ackTimer = some 1 → s.notices.retry < 16 →
      (s.notices.retry < s.notices.settings.retryLimit → exec .msTick s = .next (ticked { s.notices with
        retry := s.notices.retry + 1, ackTimer := some s.notices.settings.timeout
        sent := s.notices.sent.map (fun e => { e with resend := true }) }).grant) ∧
      (s.notices.settings.retryLimit ≤ s.notices.retry → exec .msTick s = .next (ticked { s.notices with
        retry := s.notices.retry + 1, ackTimer := none, stalled := true }).grant))) ∧
  (∀ s : State, s.agenda = [] → s.notices.ackEarly = false → s.position.tickDue = true →
    s.notices.ackTimer = some 1 → s.notices.retry < 16 →
    (s.notices.retry < s.notices.settings.retryLimit → exec .ackTimeout s = .next (State.grant { s with
      notices := { s.notices with
        retry := s.notices.retry + 1, ackTimer := some s.notices.settings.timeout, ackEarly := true
        sent := s.notices.sent.map (fun e => { e with resend := true }) } })) ∧
    (s.notices.settings.retryLimit ≤ s.notices.retry → exec .ackTimeout s = .next (State.grant { s with
      notices := { s.notices with
        retry := s.notices.retry + 1, ackTimer := none, ackEarly := true, stalled := true } }))) ∧
  (∀ s : State, s.quiet → s.notices.ackTimer = none → exec .ackTimeout s = .next s)

/-- R147, R152, R153, R165: an expiry updates the timer, the tick being taken against all four timers, then gives a TIMER
notice when its class is enabled for the timer (a slot below 24 entries, else a missed count), then its trigger event,
which runs the closure of the enabled reactions that it matches and finds the timer updated; with none matched it has
no further effect. Several timers that expire at one tick are each reported so, in either order (R155, log 2). The tick
at hand and the Timer Unit's share taken ahead of MS_TICK are the model's own (log 12). That a timer of period 1 ms
that was due at the tick and restarted just before it expires at it is the model's choice (R147, R148, log 33). -/
def Obligations.TimerExpiryUpdatesThenReports : Prop :=
  let ticked (x : Timer) : Timer :=
    if x.running = false then x
    else if 1 < x.remaining then { x with remaining := x.remaining - 1 }
    else match x.mode with
      | .periodic => { x with remaining := x.period }
      | .oneShot => { x with running := false, remaining := 0 }
  let reported (s : State) (t : TimerId) : State :=
    if s.notices.settings.timersOn.getLsbD t = false then s
    else if s.notices.depth < 24 then { s with
      notices := { s.notices with
        unsent := s.notices.unsent ++
          [{ kind := .timer
             contents := some (natByte t :: (wordBytes s.position.ts ++ [natByte s.notices.missed.timer]))
             link := .none, number := none, resend := false }]
        missed := { s.notices.missed with timer := 0 } } }
    else { s with
      notices := { s.notices with
        missed := { s.notices.missed with timer := min 255 (s.notices.missed.timer + 1) } } }
  (∀ (s : State) (t : TimerId),
    s.handle (.expired t) = { reported s t with agenda := s.agenda ++ [[.trigger (.timer t)]] }) ∧
  ∀ (s : State) (t : TimerId) (v : Vector Timer 4), s.timers[t].running = true → s.timers[t].remaining ≤ 1 →
    s.position.tickDue = true → s.position.timersTaken = false → (∀ k : TimerId, v[k] = ticked s.timers[k]) →
    let u : State := { s with timers := v, position := { s.position with timersTaken := true } }
    exec (.timerExpiry t) s = State.done { u with
      agenda := s.agenda ++ (([0, 1, 2, 3] : List TimerId).filter (fun k =>
        s.timers[k].running && decide (s.timers[k].remaining ≤ 1))).map (fun k => [.expired k]) } ∧
    (s.agenda = [] → (∀ k : TimerId, k ≠ t → s.timers[k].running = true → 1 < s.timers[k].remaining) →
      let w := reported u t
      let p := w.performAll (w.closure (w.matching (.timer t)))
      exec (.timerExpiry t) s = .next (State.settle 4094 p).grant ∧
      (s.link.transmitter ≠ .idle → p.agenda = [] → exec (.timerExpiry t) s = .next p) ∧
      (s.link.transmitter ≠ .idle → w.matching (.timer t) = [] → exec (.timerExpiry t) s = .next w))

/-- R130, R131, R133, R135: TS advances by 1 and the sub-millisecond count with it, whose roll-over makes the tick
due; each input has its next comparison or sample before it, and the channels have taken the levels at their pins
(R119). With the channels at rest before, an input that awaits its first comparison takes its raw level, and a
comparison of the µs that ends and finds a difference begins a run with the capture of that µs. That the tick stays
due until its row comes, and that what has not come as a row is taken here with the levels at the pins, is the model's
choice (log 12, log 11, log 10). What is left of a µs, the samples of the channels, the tick and the samples of the
inputs, is taken one after the other, whichever is chosen first (R61, R62, R92, R125, R131, log 2), each with the events
it hands on and the grant of the line at their end (R184, log 31), until nothing is left. A change of the filtered
levels, and the advance of TS, move the marks of fresh faults (R117, log 32, see AbandoningCauseReachesEveryRunningLane). -/
def Obligations.TimeAdvances : Prop :=
  (∀ (s : State) (e : Leftover), e ∈ s.leftovers ↔ (e = .channels ∧ ¬ s.position.settled) ∨
    (e = .tick ∧ s.position.tickDue = true) ∨ ∃ i : InputId, e = .input i ∧ ((∃ r, s.awaitsSample i r) ∨
      (s.inputs[i].run = none ∧ s.inputs[i].mark = .due ∧ s.inputs[i].accepted ≠ s.pins[i]))) ∧
  (∀ (s : State) (n : Nat), s.leftovers ≠ [] → ∃ (e : Leftover) (k : Nat), e ∈ s.leftovers ∧
    let t := (State.settle 4096 (State.takeLeftover { s with choices := k } e)).grant
    State.takeLeftovers (n + 1) s = State.takeLeftovers n
      (if t.position.ea = s.position.ea ∧ t.position.eb = s.position.eb then t else t.stepEnded)) ∧
  (∀ (s : State) (i : InputId), s.takeLeftover .channels = s.sampleChannels ∧ s.takeLeftover .tick = s.tick ∧
    s.takeLeftover (.input i) = s.takeSample i) ∧
  (∀ s : State, let u := State.takeLeftovers 20 (allInputs.foldl State.settleInput s)
    u.leftovers = [] ∧
      exec .tsAdvance s = (State.openSamples { u with position := u.position.advance }).nextMoment.done) ∧
  ∀ s : State,
    let stirs (i : InputId) : Prop := (∃ r, s.awaitsSample i r) ∨
      (s.inputs[i].run = none ∧ s.inputs[i].mark = .due ∧ s.inputs[i].accepted ≠ s.pins[i])
    ∃ t, exec .tsAdvance s = .next t ∧ t.position.ts = s.position.ts + 1 ∧ t.position.settled ∧
      (s.position.subMs < 999 → t.position.subMs = s.position.subMs + 1 ∧ t.position.tickDue = false) ∧
      (999 ≤ s.position.subMs → t.position.subMs = 0 ∧ t.position.tickDue = true) ∧
      (∀ i : InputId, t.inputs[i].mark = .due ∧ t.inputs[i].awaiting = false) ∧
      (s.position.settled →
        t.position = (
          let taken := if s.position.tickDue = true then false else s.position.timersTaken
          if s.position.subMs < 999 then
            { s.position with
              ts := s.position.ts + 1, subMs := s.position.subMs + 1, tickDue := false, timersTaken := taken }
          else { s.position with ts := s.position.ts + 1, subMs := 0, tickDue := true, timersTaken := taken }) ∧
        (∀ i : InputId, s.inputs[i].awaiting = true → s.inputs[i].run = none →
          t.inputs[i] = { s.inputs[i] with accepted := s.pins[i], awaiting := false, mark := .due }) ∧
        (∀ i : InputId, s.inputs[i].awaiting = false → ¬ stirs i → t.inputs[i] = { s.inputs[i] with mark := .due }) ∧
        (∀ i : InputId, s.inputs[i].awaiting = false → s.inputs[i].run = none → s.inputs[i].mark = .due →
          s.inputs[i].filterOn = true → s.inputs[i].accepted ≠ s.pins[i] →
          t.inputs[i] = { s.inputs[i] with
            mark := .due
            run := some { candidate := s.pins[i], count := 1, capture :=
              { bp := s.position.bp, rd := s.position.hw - s.position.bp, ts := s.position.ts, ft := s.position.ft } } }) ∧
        (s.quiet → s.position.tickDue = false → (∀ i : InputId, s.inputs[i].awaiting = false → ¬ stirs i) →
          OnlyChanges [.position, .inputs, .lanes] s t ∧ ∀ l : LaneId, t.lanes[l] = { s.lanes[l] with struck := none }))

/-- R151, R156: which trigger and action kinds and parameters are out of range, and which trigger and action the
bytes in range name; SET_REACTION writes a disabled reaction whole, and an enabled one refuses with WRONG_STATE; the
range checks come first. -/
def Obligations.SetReactionWritesADisabledReaction : Prop :=
  ((∀ kind param result : Byte, triggerOf kind param result = none ↔
      5 < kind.toNat ∨ (kind = 1 ∧ 15 < param.toNat) ∨ ((kind = 2 ∨ kind = 4) ∧ 3 < param.toNat) ∨
        (kind = 3 ∧ ((3 < param.toNat ∧ param ≠ 0xFF) ∨ 7 < result.toNat))) ∧
    (∀ (kind param : Byte) (width : Half), actionOf kind param width = none ↔
      8 < kind.toNat ∨ ((kind = 1 ∨ kind = 2 ∨ kind = 3) ∧ 15 < param.toNat) ∨ (kind = 3 ∧ width = 0) ∨
        ((kind = 4 ∨ kind = 5 ∨ kind = 6) ∧ 3 < param.toNat))) ∧
  (∀ (kind param result : Byte) (t : Trigger), triggerOf kind param result = some t ↔
      (kind = 0 ∧ t = .none) ∨ (kind = 1 ∧ ∃ i : InputId, param = natByte i ∧ t = .input i) ∨
        (kind = 2 ∧ ∃ k : TimerId, param = natByte k ∧ t = .timer k) ∨
        (kind = 3 ∧ ∃ q : Summary, result = q.code ∧ ((param = 0xFF ∧ t = .outcome Option.none q) ∨
          ∃ l : LaneId, param = natByte l ∧ t = .outcome (some l) q)) ∨
        (kind = 4 ∧ ∃ l : LaneId, param = natByte l ∧ t = .laneFault l) ∨ (kind = 5 ∧ t = .requestOnly)) ∧
  (∀ (kind param : Byte) (width : Half) (a : Action), actionOf kind param width = some a ↔
      (kind = 0 ∧ a = .none) ∨ (kind = 1 ∧ ∃ o : OutputId, param = natByte o ∧ a = .outSet o) ∨
        (kind = 2 ∧ ∃ o : OutputId, param = natByte o ∧ a = .outClear o) ∨
        (kind = 3 ∧ width ≠ 0 ∧ ∃ o : OutputId, param = natByte o ∧ a = .outPulse o width) ∨
        (kind = 4 ∧ ∃ k : TimerId, param = natByte k ∧ a = .timerStart k) ∨
        (kind = 5 ∧ ∃ k : TimerId, param = natByte k ∧ a = .timerStop k) ∨
        (kind = 6 ∧ ∃ l : LaneId, param = natByte l ∧ a = .laneHold l) ∨ (kind = 7 ∧ a = .capture) ∨
        (kind = 8 ∧ a = .notify)) ∧
  (∀ (s : State) (seq reaction : Byte) (f : ReactionFields), s.takesNow 0x2C seq →
      (11 < reaction.toNat ∨ triggerOf f.triggerKind f.triggerParam f.triggerResult = none ∨
          actionOf f.actionKind f.actionParam f.actionWidth = none ∨ 1 < f.mode.toNat ∨ 4096 ≤ f.chain.toNat →
        exec (.setReaction seq reaction f) s = .next (s.answers 0x2C seq [3])) ∧
      (∀ (r : ReactionId) (t : Trigger) (a : Action) (m : ReactionMode), reaction = natByte r →
        triggerOf f.triggerKind f.triggerParam f.triggerResult = some t →
        actionOf f.actionKind f.actionParam f.actionWidth = some a → f.mode = m.code → f.chain.toNat < 4096 →
        (s.reactions[r].enabled = true → exec (.setReaction seq reaction f) s = .next (s.answers 0x2C seq [4])) ∧
        (s.reactions[r].enabled = false →
          let x : Reaction := { trigger := t, action := a, mode := m, chain := f.chain.setWidth 12, enabled := false }
          exec (.setReaction seq reaction f) s =
            .next (State.answers { s with reactions := tset s.reactions r x } 0x2C seq [0]))))

/-- R157: ENABLE_REACTION changes the enabled flags that its masks name, or is refused, and shows the enabled set. -/
def Obligations.EnableReactionChangesTheFlags : Prop :=
  ∀ (s : State) (seq : Byte) (enable disable : Half), s.takesNow 0x2D seq →
    (4096 ≤ enable.toNat ∨ 4096 ≤ disable.toNat ∨ enable &&& disable ≠ 0 →
      exec (.enableReaction seq enable disable) s = .next (s.answers 0x2D seq [3])) ∧
    (enable.toNat < 4096 → disable.toNat < 4096 → enable &&& disable = 0 →
      ((∃ r : ReactionId, enable.getLsbD r = true ∧ s.reactions[r].trigger = .none) →
        exec (.enableReaction seq enable disable) s = .next (s.answers 0x2D seq [4])) ∧
      ((∀ r : ReactionId, enable.getLsbD r = true → s.reactions[r].trigger ≠ .none) →
        ∃ (rs : Vector Reaction 12) (mask : Half),
          (∀ r : ReactionId, rs[r] =
            if enable.getLsbD r then { s.reactions[r] with enabled := true }
            else if disable.getLsbD r then { s.reactions[r] with enabled := false }
            else s.reactions[r]) ∧
          mask.toNat < 4096 ∧ (∀ r : ReactionId, mask.getLsbD r = rs[r].enabled) ∧
          exec (.enableReaction seq enable disable) s =
            .next (State.answers { s with reactions := rs } 0x2D seq (0 :: halfBytes mask))))

/-- R152, R153: which enabled reactions a trigger event matches; a trigger event is taken by the closure that starts
from them: each reaction of it performs its action once, in ascending index, and the ONCE reactions of it then become
disabled; an event that matches none has no effect. A closure is the least set that holds the enabled reactions it
starts from and the enabled members of its members' chain sets. Last, an edge of a GENERAL input runs the closure of
its trigger event, here without a notice and with no further event. -/
def Obligations.TriggersAreTakenByTheirClosures : Prop :=
  (∀ (s : State) (e : TriggerEvent) (r : ReactionId), r ∈ s.matching e ↔
    s.reactions[r].enabled = true ∧
      ((∃ i edge, e = .input i edge ∧ s.reactions[r].trigger = .input i) ∨
        (∃ k, e = .timer k ∧ s.reactions[r].trigger = .timer k) ∨
        (∃ l q, e = .outcome l q ∧
          (s.reactions[r].trigger = .outcome Option.none q ∨ s.reactions[r].trigger = .outcome (some l) q)) ∨
        (∃ l, e = .laneFault l ∧ s.reactions[r].trigger = .laneFault l))) ∧
  (∀ (s : State) (e : TriggerEvent), let c := s.closure (s.matching e)
    s.handle (.trigger e) = s.performAll c ∧ (s.matching e = [] → s.handle (.trigger e) = s)) ∧
  (∀ (s : State) (c : List ReactionId), s.performAll c =
    c.foldl (fun t r =>
      let x : Reaction := t.reactions[r]
      { t with reactions := tset t.reactions r (if x.mode = .once then { x with enabled := false } else x) })
      (c.foldl State.perform s)) ∧
  (∀ (s : State) (start : List ReactionId), (∀ r ∈ start, s.reactions[r].enabled = true) →
     (∀ r ∈ start, r ∈ s.closure start) ∧
     (∀ r ∈ s.closure start, ∀ q : ReactionId, s.reactions[r].chain.getLsbD q = true → s.reactions[q].enabled = true →
       q ∈ s.closure start) ∧
     (∀ set : List ReactionId, (∀ r ∈ start, r ∈ set) →
       (∀ r ∈ set, ∀ q : ReactionId, s.reactions[r].chain.getLsbD q = true → s.reactions[q].enabled = true → q ∈ set) →
       ∀ r ∈ s.closure start, r ∈ set) ∧
     (s.closure start).Pairwise (fun a b => a.val < b.val)) ∧
  (∀ (s : State) (i : InputId) (level : Level) (c : Capture), s.agenda = [] → s.link.transmitter ≠ .idle →
    s.inputs[i].role = .general → s.inputs[i].edge = .both → s.notices.settings.inputsOn.getLsbD i = false →
    s.acceptsAs i level c →
    let e : TriggerEvent := .input i (if level = s.inputs[i].active then .activation else .deactivation)
    let t := (s.accepted i level).performAll (s.closure (s.matching e))
    t.agenda = [] → exec (.acceptedTransition i) s = .next t)

/-- R154, R79, R165: each output action acts on a GENERAL output alone, and OUT_PULSE only while INHIBIT is inactive;
LANE_HOLD takes a lane in RUN or DRAIN to FAULT with first cause REACTION and leaves one in OFF or FAULT; CAPTURE and
NOTIFY give a REACTION notice, or a missed count from 24 entries on; NONE does nothing. The timer actions stand in
TimerRequestsWriteStartAndStop. -/
def Obligations.ActionsDoTheirEffect : Prop :=
  ∀ (s : State) (r : ReactionId),
    (s.reactions[r].action = .none → s.perform r = s) ∧
    (∀ o, s.reactions[r].action = .outSet o → s.perform r =
      if s.outputs[o].role = .general then { s with outputs := tset s.outputs o { s.outputs[o] with latch := true } }
      else s) ∧
    (∀ o, s.reactions[r].action = .outClear o → s.perform r =
      if s.outputs[o].role = .general then
        { s with outputs := tset s.outputs o { s.outputs[o] with latch := false, pulse := none } }
      else s) ∧
    (∀ o ms, s.reactions[r].action = .outPulse o ms → s.perform r =
      if s.outputs[o].role = .general ∧ s.inhibit = false then
        let pulsed : Output := { s.outputs[o] with pulse := some (s.position.ts + BitVec.ofNat 32 (ms.toNat * 1000)) }
        { s with outputs := tset s.outputs o pulsed }
      else s) ∧
    (∀ l, s.reactions[r].action = .laneHold l → (s.lanes[l].state = .off ∨ s.lanes[l].state = .fault) →
      s.perform r = s) ∧
    (∀ l, s.reactions[r].action = .laneHold l → (s.lanes[l].state = .run ∨ s.lanes[l].state = .drain) →
      (s.perform r).lanes[l].state = .fault ∧ (s.perform r).lanes[l].first = some .reaction ∧
        s.sameRecords (s.perform r) ∧
        (s.perform r).agenda = s.agenda ++ [[.trigger (.laneFault l)]]) ∧
    (∀ contents : List Byte,
      (s.reactions[r].action = .capture ∧ contents = natByte r :: 1 ::
          (wordBytes s.position.bp ++ wordBytes s.position.hw ++ wordBytes s.position.ts)) ∨
        (s.reactions[r].action = .notify ∧ contents = natByte r :: 0 :: [0, 0, 0, 0, 0, 0, 0, 0, 0, 0, 0, 0]) →
      s.perform r = if s.notices.depth < 24 then
          { s with notices := { s.notices with
              unsent := s.notices.unsent ++
                [{ kind := .reaction, contents := some (contents ++ [natByte s.notices.missed.reaction]), link := .none,
                   number := none, resend := false }]
              missed := { s.notices.missed with reaction := 0 } } }
        else
          { s with notices := { s.notices with
              missed := { s.notices.missed with reaction := min 255 (s.notices.missed.reaction + 1) } } })

/-- R158, R153: FIRE_REACTION of a disabled reaction performs nothing; of an enabled one it performs the closure that
starts from it alone: every member's action once, in ascending index (see TriggersAreTakenByTheirClosures), then the
ONCE members are disabled; the reply names the set. The events that the actions give follow it. -/
def Obligations.FireReactionPerformsTheClosure : Prop :=
  ∀ (s : State) (seq reaction : Byte), s.takesNow 0x2E seq →
    (11 < reaction.toNat → exec (.fireReaction seq reaction) s = .next (s.answers 0x2E seq [3])) ∧
    (∀ r : ReactionId, reaction = natByte r →
      (s.reactions[r].enabled = false →
        exec (.fireReaction seq reaction) s = .next (s.answers 0x2E seq [0, 0, 0, 0])) ∧
      (s.reactions[r].enabled = true →
        ∃ (t : State) (mask : Half), exec (.fireReaction seq reaction) s = .next t ∧
          mask.toNat < 4096 ∧ (∀ q : ReactionId, mask.getLsbD q = decide (q ∈ s.closure [r])) ∧
          t.repliesWith 0x2E seq ([0, 1] ++ halfBytes mask) ∧
          (let taken : State := { s with
            notices := s.notices.endStall, link := { s.link with receiver := .hunting } }
          let u := taken.performAll (s.closure [r])
          let reply : Frame := { kind := 0x6E, seq := seq, payload := [0, 1] ++ halfBytes mask }
          exec (.fireReaction seq reaction) s = State.done { u with link := { s.link with
            receiver := .hunting
            slot := some { frame := reply, begun := false, resets := false }
            last := some { kind := 0x2E, seq := seq, reply := reply } } }) ∧
          (∀ q ∈ s.closure [r], s.reactions[q].mode = .once → t.reactions[q].enabled = false) ∧
          OnlyChanges [.items, .schedule, .outputs, .windows, .lanes, .timers, .reactions, .notices, .link, .choices,
            .agenda, .verdicts] s t) ∧
      (∀ o : OutputId, s.reactions[r].enabled = true → s.reactions[r].mode = .repeating → s.reactions[r].chain = 0 →
        s.reactions[r].action = .outSet o → s.outputs[o].role = .general →
        let u : State := { s with outputs := tset s.outputs o { s.outputs[o] with latch := true } }
        exec (.fireReaction seq reaction) s =
          .next (u.answers 0x2E seq ([(0 : Byte), 1] ++ halfBytes (1 <<< r.val)))))

/-! ### Belt position -/

/-- R127, R128: while every lane is OFF, SET_ENCODER writes mode, RL and FT and clears the encoder fault flag and the
direction, and SET_POSITION sets BP and HW, so RD is 0, and clears the direction; each leaves the rest. -/
def Obligations.EncoderRequestsWriteThePositionUnit : Prop :=
  (∀ (s : State) (seq mode : Byte) (rl : Half) (ft : Byte), s.takesNow 0x20 seq →
      (3 < mode.toNat → exec (.setEncoder seq mode rl ft) s = .next (s.answers 0x20 seq [3])) ∧
      (∀ m : EncoderMode, mode = m.code →
        ((∃ l : LaneId, s.lanes[l].state ≠ .off) →
          exec (.setEncoder seq mode rl ft) s = .next (s.answers 0x20 seq [4])) ∧
        ((∀ l : LaneId, s.lanes[l].state = .off) →
          exec (.setEncoder seq mode rl ft) s = .next (State.answers
            { s with position := { s.position with
                mode := m, rl := rl, ft := ft, encoderFault := false, direction := .none } } 0x20 seq [0])))) ∧
  (∀ (s : State) (seq : Byte) (value : Pos), s.takesNow 0x21 seq →
      ((∃ l : LaneId, s.lanes[l].state ≠ .off) →
        exec (.setPosition seq value) s = .next (s.answers 0x21 seq [4])) ∧
      ((∀ l : LaneId, s.lanes[l].state = .off) →
        exec (.setPosition seq value) s = .next (State.answers
          { s with position := { s.position with bp := value, hw := value, direction := .none } } 0x21 seq [0])))

/-- R18, R123, R124, R14, R55, R85, R89: a forward step adds 1 to BP, and HW moves with it when they were equal. A
step on new ground then hands out the decision points of OPEN items, the exit points, the jam points of covering
items, the filing positions of entries, the open positions of PENDING windows and the close events of OPEN windows,
each that HW has reached, and nothing else; a step behind HW hands out nothing. The decision points of one lane stand
in one chain in the order of its queue, and so do its exit points. What is handed out is taken one event after the
other, the first of some chain each time, by the operation of its block. The levels the model gives the channels are
its own (log 6), and the order of the chains is free (log 2, log 3). That the step ends after the
grant, and moves the marks of fresh faults there, is the model's choice (log 32, log 31). -/
def Obligations.ForwardStepMovesTheBeltAndOffersPoints : Prop :=
  (∀ s : State, ∃ a b : Level,
    let bp := s.position.bp
    let t : State := { s with position := { s.position with
      bp := bp + 1, hw := if bp = s.position.hw then s.position.hw + 1 else s.position.hw, direction := .forward
      ea := a, eb := b, eaPin := a, ebPin := b, eaRun := 0, ebRun := 0 } }
    let moved : State := if bp = s.position.hw then t.offerStep else t
    exec .forwardStep s = .next (State.grant (State.settle 4096 moved)).stepEnded ∧
      (s.quiet → bp ≠ s.position.hw → exec .forwardStep s = .next t.stepEnded) ∧
      ∃ u, exec .forwardStep s = .next u ∧ u.position = t.position ∧
        OnlyChanges [.position, .items, .verdicts, .schedule, .outputs, .windows, .lanes, .timers, .reactions, .notices,
          .link, .choices, .agenda] s u) ∧
  (∀ (s : State) (e : Event), s.agenda = [] →
     let reachedBy (p : Pos) : Prop := 0 ≤ (s.position.hw - p).toInt
     (e ∈ s.offerStep.agenda.flatten ↔
       (∃ l : LaneId, ∃ it ∈ s.items.queues[l],
         (e = .decision l it.rid ∧ it.state = .opened ∧ reachedBy (it.entryPos + BitVec.ofNat 32 s.lanes[l].config.d)) ∨
         (e = .exitPoint l it.rid ∧ reachedBy (it.entryPos + BitVec.ofNat 32 s.lanes[l].config.x)) ∨
         (e = .jam l it.rid ∧ it.covering = true ∧ it.overlength = false ∧
           reachedBy (it.entryPos + BitVec.ofNat 32 s.lanes[l].config.l))) ∨
       (∃ x ∈ s.schedule.positionList, e = .schedulePoint x.serial ∧ reachedBy x.filing) ∨
       (∃ i : InputId, ∃ w ∈ s.windows[i],
         (e = .windowOpen i w.rid ∧ w.phase = .pending ∧ reachedBy w.openPos) ∨
         (e = .windowClose i w.rid ∧ w.phase = .opened ∧ reachedBy (w.closePos + 1))))) ∧
  (∀ (s : State) (l : LaneId), let points (n : Nat) (p : Item → Bool) (f : Nat → Event) : List Event :=
      (s.items.queues[l].filter (fun it =>
        p it && decide (0 ≤ (s.position.hw - (it.entryPos + BitVec.ofNat 32 n)).toInt))).map (fun it => f it.rid)
    let decisions := points s.lanes[l].config.d (fun it => it.state = .opened) (Event.decision l)
    let exits := points s.lanes[l].config.x (fun _ => true) (Event.exitPoint l)
    (decisions ≠ [] → decisions ∈ s.offerStep.agenda) ∧ (exits ≠ [] → exits ∈ s.offerStep.agenda)) ∧
  (∀ (s : State) (n : Nat), State.settle (n + 1) s = (if s.agenda = [] then s else State.settle n s.takeOne) ∧
    (s.agenda ≠ [] → (∀ c ∈ s.agenda, c ≠ []) → ∃ (k : Nat) (e : Event) (es : List Event),
      s.agenda[k]? = some (e :: es) ∧
      s.takeOne = State.handle { s with
        agenda := if es = [] then s.agenda.eraseIdx k else s.agenda.set k es
        choices := if s.agenda.length = 1 then s.choices else s.choices + 1 } e)) ∧
  (∀ (s : State) (l : LaneId) (i : InputId) (k : Nat),
    s.handle (.decision l k) = s.commit l k ∧ s.handle (.exitPoint l k) = s.exitPoint l k ∧
      s.handle (.jam l k) = s.jamPoint l k ∧ s.handle (.schedulePoint k) = s.schedulePoint k ∧
      s.handle (.windowOpen i k) = s.openWindow i k ∧ s.handle (.windowClose i k) = s.closeWindow i k)

/-- R123, R126: a reverse step takes 1 from BP and leaves HW, which moves back with BP at the largest depth alone;
within the reverse limit nothing else happens, but that the marks of fresh faults move, which are the model's own
(log 32). Mode COUNT gives no reverse step (R121). The levels of the channels, and that the row has no effect in COUNT,
are the model's choice (log 6). -/
def Obligations.ReverseStepMovesTheBelt : Prop :=
  ∀ s : State,
    (s.position.mode = .count → s.quiet → exec .reverseStep s = .next s) ∧
    (s.position.mode ≠ .count → ∃ t, exec .reverseStep s = .next t ∧
      t.position = { s.position with
        bp := s.position.bp - 1
        hw := if s.position.hw - s.position.bp = 0x7FFFFFFF then s.position.hw - 1 else s.position.hw
        direction := .reverse, ea := t.position.ea, eb := t.position.eb, eaPin := t.position.ea
        ebPin := t.position.eb, eaRun := 0, ebRun := 0 } ∧
      OnlyChanges [.position, .items, .verdicts, .schedule, .outputs, .windows, .lanes, .timers, .reactions, .notices,
        .link, .choices, .agenda] s t ∧
      (s.quiet → s.position.rd ≠ s.position.rl.setWidth 32 →
        OnlyChanges [.position, .lanes] s t ∧ ∀ l : LaneId, t.lanes[l] = s.lanes[l].stepEnded))

/-- R122, R126, R111, R112, R117, R23: a reverse step from RL to RL + 1, and an illegal transition in the quadrature modes,
take every lane in RUN or DRAIN to FAULT with the cause in its set, and leave it no item in its queue or PASSED,
whatever the reactions do meanwhile; lanes in OFF, and lanes in FAULT before the moment, are not offered the cause. A lane
that another cause has taken to FAULT at the same moment is offered it, which joins its set and abandons. Whether an
earlier event falls at the same moment is a free value where the commands leave it open, the model's choice (log 32,
log 2): a taking to FAULT marks the lane; a transition of the channels falls at another moment than the next one, and the
marks go when TS advances. What the abandon gives each item stands in AbandonEndsEveryItem. -/
def Obligations.AbandoningCauseReachesEveryRunningLane : Prop :=
  (∀ (s : State) (c : Cause),
    let running (l : LaneId) : Bool := s.lanes[l].state = .run || s.lanes[l].state = .drain
    let fresh (l : LaneId) : Bool :=
      s.lanes[l].state = .fault && (s.lanes[l].struck = some ⟨true, false⟩ || s.lanes[l].struck = some ⟨false, false⟩)
    let offered (p : LaneId → Bool) (k : Nat) : State := { s with
      choices := k, agenda := s.agenda ++ ([(0 : LaneId), 1, 2, 3].filter p).map (fun l => [.offer l c]) }
    ((∀ l : LaneId, fresh l = false) → s.offerAll c = offered running s.choices) ∧
    ((∃ l : LaneId, fresh l = true) → s.offerAll c =
      offered (if Config.choice s.choices % 2 = 1 then fun l => running l || fresh l else running) (s.choices + 1))) ∧
  (∀ s : State, OnlyChanges [.lanes] s s.nextMoment ∧ OnlyChanges [.lanes] s s.stepEnded ∧
    ∀ l : LaneId, s.nextMoment.lanes[l] = { s.lanes[l] with struck := none } ∧
      s.stepEnded.lanes[l] = s.lanes[l].stepEnded) ∧
  (∀ x : Lane, (x.struck = none → x.stepEnded = x) ∧
    (∀ full : Bool, x.struck = some ⟨full, false⟩ → x.stepEnded = { x with struck := some ⟨full, true⟩ }) ∧
    (∀ full : Bool, x.struck = some ⟨full, true⟩ → x.stepEnded = { x with struck := none })) ∧
  (∀ (s t : State), s.illegal = State.offerAll { s with position := { s.position with encoderFault := true } } .encoder ∧
    s.stepReverse = (if s.position.rd = s.position.rl.setWidth 32 then
      State.offerAll { s with position := s.position.back } .reverse else { s with position := s.position.back }) ∧
    s.ended t = if t.position.ea = s.position.ea ∧ t.position.eb = s.position.eb then t else t.stepEnded) ∧
  ∀ s : State, s.agenda = [] → s.items.inUse ≤ 192 →
    let faulted (t : State) (c : Cause) : Prop :=
      ∀ l : LaneId,
        (s.lanes[l].state = .run ∨ s.lanes[l].state = .drain → t.abandonedFor l c) ∧
        (s.lanes[l].state = .off ∨ (s.lanes[l].state = .fault ∧ ∀ m, s.lanes[l].struck = some m → m.stepped = true) →
          t.lanes[l].state = s.lanes[l].state ∧ t.lanes[l].causes = s.lanes[l].causes) ∧
        (∀ full : Bool, s.lanes[l].state = .fault → s.lanes[l].struck = some ⟨full, false⟩ → t.lanes[l].state = .fault ∧
          (t.lanes[l].causes = s.lanes[l].causes ∨
            (t.lanes[l].causes = s.lanes[l].causes.add c ∧ t.abandonedFor l c))) ∧
        ∀ m, t.lanes[l].struck = some m → m.stepped = true
    (s.position.mode ≠ .count → s.position.rd = s.position.rl.setWidth 32 →
      ∃ t, exec .reverseStep s = .next t ∧ faulted t .reverse) ∧
    (s.position.mode = .quad4 ∨ s.position.mode = .quad1 →
      ∃ t, exec .illegalTransition s = .next t ∧ faulted t .encoder)

/-- R7, R20, R23, R63, R94: an abandon takes the lane's PASSED items in their retired-list order and then its queue,
oldest first. Each becomes DONE with result ABANDONED at the end of the DONE part, its OUTCOME flag raised, or is freed
when OUTCOME notices are disabled (both in ItemEndsWithItsResult); its PENDING firings and its WAITING confirm result
become CANCELLED, it stops covering; its entries are freed, ON ones releasing their holds, and its window is removed.
Items, entries and windows of other lanes are left, and so are the lane's DONE items. One OUTCOME trigger follows for
each, in that order. -/
def Obligations.AbandonEndsEveryItem : Prop :=
  (∀ (s : State) (l : LaneId), s.abandon l =
    ((s.items.passed.filter (fun it => it.lane = l) ++ s.items.queues[l]).map (·.rid)).foldl State.abandonItem s) ∧
  (∀ (s : State) (rid : Nat) (it : Item), s.items.find rid = some it →
    ∃ u : State, u.notices = s.notices ∧ u.items.find rid = none ∧ s.abandonItem rid = u.becomeDone { it with
      covering := false
      committed := it.committed.map (fun c => { c with
        firings := c.firings.map (fun f => if f.result = .pending then { f with result := .cancelled } else f)
        confirm := c.confirm.map (fun k => if k.result = .waiting then { k with result := .cancelled } else k) }) }
      .abandoned) ∧
  ∀ (s : State) (l : LaneId), s.items.Ok →
    let taken := s.items.passed.filter (fun it => it.lane = l) ++ s.items.queues[l]
    let gone := taken.map (·.rid)
    let ended (it : Item) : Item := { it with
      state := .done, covering := false, result := some .abandoned
      committed := it.committed.map (fun c => { c with
        firings := c.firings.map (fun f => if f.result = .pending then { f with result := .cancelled } else f)
        confirm := c.confirm.map (fun k => if k.result = .waiting then { k with result := .cancelled } else k) }) }
    let t := s.abandon l
    t.items.queues[l] = [] ∧
    (∀ m : LaneId, m ≠ l → t.items.queues[m].map Item.sansFlags = s.items.queues[m].map Item.sansFlags) ∧
    t.items.passed.map Item.sansFlags = (s.items.passed.filter (fun it => it.lane ≠ l)).map Item.sansFlags ∧
    t.items.done.map Item.sansFlags = (s.items.done ++
      (if s.notices.settings.outcomeOn = true then taken.map ended else [])).map Item.sansFlags ∧
    t.schedule.positionList = s.schedule.positionList.filter (fun e => e.rid ∉ gone) ∧
    t.schedule.timeList = s.schedule.timeList.filter (fun e => e.rid ∉ gone) ∧
    (∀ i : InputId, t.windows[i] = s.windows[i].filter (fun w => w.rid ∉ gone)) ∧
    (∀ o : OutputId, s.outputs[o].holders.Nodup → ∀ h : Holder, h ∈ t.outputs[o].holders ↔
      h ∈ s.outputs[o].holders ∧ ∀ e ∈ s.schedule.entries, e.rid ∈ gone → e.phase ≠ .waiting → e.output = o →
        h ≠ .firing e.owner) ∧
    s.abandonEvents l = taken.map (fun it => .trigger (.outcome it.lane .abandoned)) ∧
    OnlyChanges [.items, .notices, .lanes, .outputs, .schedule, .windows] s t

/-- R16, R109, R111, R112, R115, R116: a cause taken in RUN or DRAIN takes the lane to FAULT with this cause alone in
its set and as first cause, makes its notice pending, abandons its items for REVERSE and ENCODER alone, and gives its
LANE_FAULT trigger after their OUTCOME triggers; one taken in FAULT joins the set and keeps the first cause, with a
notice when it is new and no LANE_FAULT trigger; a lane in OFF takes none. The mark of a fresh fault is the model's own
(log 32). At its jam point the covering item becomes
overlength and its lane takes JAM; an item that is not covering, or is overlength already, is left. -/
def Obligations.CausesTakeALaneToFault : Prop :=
  (∀ (s : State) (l : LaneId) (c : Cause),
    let lane := s.lanes[l]
    let t := s.takeCause l c
    let outcomes : List Event := (s.items.passed.filter (fun it => it.lane = l) ++ s.items.queues[l]).map
      (fun it => .trigger (.outcome it.lane .abandoned))
    let abandons : Prop := c = .reverse ∨ c = .encoder
    let mark : Struck :=
      { full := lane.state = .run && (lane.config.limit ≤ s.items.queues[l].length || 192 ≤ s.items.inUse), stepped := false }
    (lane.state = .off → t = s) ∧
    (lane.state = .run ∨ lane.state = .drain → ∃ u : State, s.sameRecords u ∧ s.sameOtherLanes u l ∧
      OnlyChanges [.items, .notices, .lanes] s u ∧
      u.lanes[l].sansNotice = Lane.sansNotice { lane with
        state := .fault, causes := CauseSet.empty.add c, first := some c, struck := some mark } ∧
      (u.lanes[l].noticeFlag = true ∨ u.notices.hasUnsentLane l = true) ∧
      (¬ abandons → t = { u with agenda := s.agenda ++ [[.trigger (.laneFault l)]] }) ∧
      (abandons → t = { u.abandon l with agenda := s.agenda ++ [outcomes ++ [.trigger (.laneFault l)]] })) ∧
    (lane.state = .fault → ∃ u : State, s.sameRecords u ∧ s.sameOtherLanes u l ∧
      OnlyChanges [.items, .notices, .lanes] s u ∧
      (lane.causes.has c = true → u = s) ∧
      (lane.causes.has c = false →
        u.lanes[l].sansNotice = Lane.sansNotice { lane with causes := lane.causes.add c } ∧
        (u.lanes[l].noticeFlag = true ∨ u.notices.hasUnsentLane l = true)) ∧
      (¬ abandons → t = u) ∧
      (abandons → t = { u.abandon l with agenda := if outcomes = [] then s.agenda else s.agenda ++ [outcomes] }))) ∧
  (∀ (set : CauseSet) (c d : Cause), (set.add c).has d = true ↔ d = c ∨ set.has d = true) ∧
  (∀ d : Cause, CauseSet.empty.has d = false) ∧
  (∀ (s : State) (l : LaneId) (it : Item), s.items.Ok → it ∈ s.items.queues[l] →
    (it.covering = true → it.overlength = false → s.jamPoint l it.rid = State.takeCause { s with
      items := { s.items with queues := tset s.items.queues l (s.items.queues[l].map (fun x =>
        if x.rid = it.rid then { x with overlength := true } else x)) } } l .jam) ∧
    (it.covering = false ∨ it.overlength = true → s.jamPoint l it.rid = s))

/-- R119 to R122: a change of both channels at one sample is no step in the quadrature modes and sets the encoder
fault flag; in STEP and COUNT the flag is left and a rising EA is a step by the new level of EB. A change of one
channel that three consecutive samples show is the new reference and gives the step that the mode's table gives; one
that fewer show is discarded; two changes whose third samples coincide are one transition. That the rows change the
pins so, that the row of an illegal transition changes both channels in STEP and COUNT, and that an
accepted change moves the marks of fresh faults, is the model's choice (log 7, log 32). -/
def Obligations.ChannelsAreDecoded : Prop :=
  (∀ s : State, ∃ t, exec .illegalTransition s = .next t ∧
      t.position.ea = s.position.ea.flip ∧ t.position.eb = s.position.eb.flip ∧ t.position.settled ∧
      (s.position.mode = .quad4 ∨ s.position.mode = .quad1 →
        t.position = { s.position with
          ea := s.position.ea.flip, eb := s.position.eb.flip, eaPin := s.position.ea.flip, ebPin := s.position.eb.flip
          eaRun := 0, ebRun := 0, encoderFault := true }) ∧
      (s.position.mode = .step → t.position.encoderFault = s.position.encoderFault ∧
        t.position.bp = if s.position.ea = .high then s.position.bp
          else if s.position.eb = .low then s.position.bp - 1 else s.position.bp + 1) ∧
      (s.position.mode = .count → t.position.encoderFault = s.position.encoderFault ∧
        t.position.bp = if s.position.ea = .high then s.position.bp else s.position.bp + 1)) ∧
  (∀ (s : State) (c : Channel) (n : Nat), s.position.settled → 3 ≤ n →
    ∃ t, exec (.channelLevelChange { channel := c, samples := n }) s = .next t ∧
      t.position.bp = Pos.moved s.position.bp (s.position.channelStep c) ∧
      t.position.encoderFault = s.position.encoderFault ∧ t.position.settled ∧
      (t.position.ea, t.position.eb) = (match c with
        | .ea => (s.position.ea.flip, s.position.eb)
        | .eb => (s.position.ea, s.position.eb.flip)) ∧
      (s.quiet → s.position.channelStep c = .none → OnlyChanges [.position, .lanes] s t ∧
        ∀ l : LaneId, t.lanes[l] = s.lanes[l].stepEnded)) ∧
  (∀ (s : State) (c : Channel) (n m : Nat), s.quiet → s.position.settled → n < 3 → 1 ≤ m →
    ∃ t, exec (.channelLevelChange { channel := c, samples := n }) s = .next t ∧ OnlyChanges [.position] s t ∧
      t.position = (match c with
        | .ea => { s.position with eaPin := s.position.ea.flip, eaRun := n }
        | .eb => { s.position with ebPin := s.position.eb.flip, ebRun := n }) ∧
      exec (.channelLevelChange { channel := c, samples := m }) t = .next s) ∧
  (∀ s : State, s.quiet → s.position.settled → s.position.mode = .quad4 ∨ s.position.mode = .quad1 →
    ∃ t u, exec (.channelLevelChange { channel := .ea, samples := 0 }) s = .next t ∧
      exec (.channelLevelChange { channel := .eb, samples := 3 }) t = .next u ∧ u.position.encoderFault = true ∧
      u.position.bp = s.position.bp)

/-! ### Outputs -/

/-- R70, R71: the level of a pin by its role, polarity and state. -/
def Obligations.PinFollowsItsRole : Prop :=
  ∀ (s : State) (o : OutputId),
    let x := s.outputs[o]
    let active : Prop :=
      (x.role = .actuator ∧ x.holders ≠ []) ∨
      (x.role = .general ∧ (x.latch = true ∨ x.pulse ≠ none) ∧ s.inhibit = false) ∨
      (x.role = .hold ∧ ∃ l : LaneId, x.lane = natByte l ∧
        (s.lanes[l].state = .fault ∨ (s.lanes[l].state = .run ∧ s.lanes[l].config.holdMark ≠ 0 ∧
          s.lanes[l].config.holdMark ≤ s.items.queues[l].length)))
    (s.pinLevel o = .high ↔ (x.polarity = .activeHigh ∧ active) ∨ (x.polarity = .activeLow ∧ ¬ active))

/-- R82: SET_OUTPUT replaces the configuration of an output that is not in use and clears its role state. The lane
byte held for a role other than HOLD is the model's choice (log 17). -/
def Obligations.SetOutputWritesAndClears : Prop :=
  ∀ (s : State) (seq output role polarity lane : Byte), s.takesNow 0x18 seq →
    (15 < output.toNat ∨ 3 < role.toNat ∨ 1 < polarity.toNat ∨ (role = 3 ∧ 3 < lane.toNat) →
      exec (.setOutput seq output role polarity lane) s = .next (s.answers 0x18 seq [3])) ∧
    (∀ (o : OutputId) (r : OutputRole) (p : Polarity), output = natByte o → role = r.code → polarity = p.code →
      (r = .hold → lane.toNat ≤ 3) →
      (s.stationOfLive o ∨ (∃ l : LaneId, s.lanes[l].state ≠ .off ∧ s.lanes[l].config.holdOutput = some o) ∨
          s.outputs[o].holders ≠ [] →
        exec (.setOutput seq output role polarity lane) s = .next (s.answers 0x18 seq [8])) ∧
      (¬ s.stationOfLive o → (∀ l : LaneId, s.lanes[l].state ≠ .off → s.lanes[l].config.holdOutput ≠ some o) →
          s.outputs[o].holders = [] →
        let x : Output := { role := r, polarity := p, lane := lane, holders := [], latch := false, pulse := none }
        exec (.setOutput seq output role polarity lane) s =
          .next (State.answers { s with outputs := tset s.outputs o x } 0x18 seq [0])))

/-- R75 to R78: FORCE_OUTPUT refuses by its checks in order; on an ACTUATOR output it sets or clears the test hold;
on a GENERAL output the latch and the pulse; the reply shows the output after the request. A remaining time already
past reads as 0 by the model's choice (log 20). -/
def Obligations.ForceOutputHoldsAndDrives : Prop :=
  (∀ (s : State) (seq output level : Byte) (pulse : Half), s.takesNow 0x19 seq →
      (15 < output.toNat ∨ 1 < level.toNat ∨ (level = 0 ∧ pulse ≠ 0) →
        exec (.forceOutput seq output level pulse) s = .next (s.answers 0x19 seq [3])) ∧
      (∀ o : OutputId, output = natByte o → level.toNat ≤ 1 → (level = 0 → pulse = 0) →
        let x := s.outputs[o]
        (x.role = .unused ∨ x.role = .hold →
          exec (.forceOutput seq output level pulse) s = .next (s.answers 0x19 seq [4])) ∧
        (x.role = .actuator → pulse ≠ 0 →
          exec (.forceOutput seq output level pulse) s = .next (s.answers 0x19 seq [3])) ∧
        (x.role = .actuator → pulse = 0 → s.stationOfLive o →
          exec (.forceOutput seq output level pulse) s = .next (s.answers 0x19 seq [8])) ∧
        (x.role = .actuator → pulse = 0 → ¬ s.stationOfLive o → s.inhibit = true →
          exec (.forceOutput seq output level pulse) s = .next (s.answers 0x19 seq [4])) ∧
        (x.role = .actuator → pulse = 0 → ¬ s.stationOfLive o → s.inhibit = false → level = 1 → .test ∉ x.holders →
          4 ≤ x.holders.length → exec (.forceOutput seq output level pulse) s = .next (s.answers 0x19 seq [8])) ∧
        (x.role = .actuator → x.pulse = none → pulse = 0 → ¬ s.stationOfLive o → s.inhibit = false →
          (level = 0 ∨ .test ∈ x.holders ∨ x.holders.length < 4) →
          let holders : List Holder :=
            if level = 0 then x.holders.erase .test else if .test ∈ x.holders then x.holders else x.holders ++ [.test]
          let u : State := { s with outputs := tset s.outputs o { x with holders := holders } }
          exec (.forceOutput seq output level pulse) s = .next (u.answers 0x19 seq
            [0, 1, flagByte [decide (holders ≠ []), decide (.test ∈ holders), x.latch], natByte holders.length, 0, 0])))) ∧
  (∀ (s : State) (seq output : Byte) (pulse : Half) (o : OutputId), s.takesNow 0x19 seq → output = natByte o →
      s.outputs[o].role = .general →
      let x := s.outputs[o]
      let put (y : Output) : State := { s with outputs := tset s.outputs o y }
      exec (.forceOutput seq output 0 0) s = .next ((put { x with latch := false, pulse := none }).answers 0x19 seq
        [0, 2, flagByte [false, decide (.test ∈ x.holders), false], natByte x.holders.length, 0, 0]) ∧
      exec (.forceOutput seq output 1 0) s = .next ((put { x with latch := true }).answers 0x19 seq
        ([0, 2, flagByte [!s.inhibit, decide (.test ∈ x.holders), true], natByte x.holders.length] ++
          natHalf (match x.pulse with
            | none => 0
            | some p => ((p - s.position.ts).toInt.toNat + 999) / 1000))) ∧
      (pulse ≠ 0 → s.inhibit = true →
        exec (.forceOutput seq output 1 pulse) s = .next (s.answers 0x19 seq [4])) ∧
      (pulse ≠ 0 → s.inhibit = false →
        exec (.forceOutput seq output 1 pulse) s = .next
          ((put { x with pulse := some (s.position.ts + BitVec.ofNat 32 (pulse.toNat * 1000)) }).answers 0x19 seq
            ([0, 2, flagByte [true, decide (.test ∈ x.holders), x.latch], natByte x.holders.length] ++ halfBytes pulse))))

/-- R60, R66, R78, R131: at a tick the TIME entries whose OFF time TS has reached and the pulses whose end time it has
reached are handed out to end, and no others. A pulse ends then, and not before, nor between ticks. A TIME entry whose
OFF time TS has reached releases its hold at a tick, its firing is DONE, it is freed, and its item is checked for
completion (R19), which changes nothing when the item is not PASSED. That the rows stand for a share of the tick at hand
is the model's choice (log 12, log 13). -/
def Obligations.TimedEndsComeAtTheirTime : Prop :=
  (∀ s : State, s.agenda = [] → ∃ t, exec .msTick s = State.done t ∧ OnlyChanges [.position, .agenda] s t ∧
      (∀ k : Nat, Event.offTime k ∈ t.agenda.flatten ↔
        ∃ e ∈ s.schedule.timeList, e.serial = k ∧ 0 ≤ (s.position.ts - e.filing).toInt) ∧
      (∀ o : OutputId, Event.pulseEnd o ∈ t.agenda.flatten ↔
        ∃ p, s.outputs[o].pulse = some p ∧ 0 ≤ (s.position.ts - p).toInt) ∧
      ∀ (u : State) (k : Nat) (o : OutputId),
        u.handle (.offTime k) = u.offTime k ∧ u.handle (.pulseEnd o) = u.endPulse o) ∧
  (∀ (s : State) (o : OutputId), s.quiet →
      (∀ p, s.outputs[o].pulse = some p → 0 ≤ (s.position.ts - p).toInt → s.position.tickDue = true →
        exec (.pulseEnd o) s = .next { s with outputs := tset s.outputs o { s.outputs[o] with pulse := none } }) ∧
      (∀ p, s.outputs[o].pulse = some p → (s.position.ts - p).toInt < 0 → exec (.pulseEnd o) s = .next s) ∧
      (s.outputs[o].pulse = none ∨ s.position.tickDue = false → exec (.pulseEnd o) s = .next s)) ∧
  (∀ (s : State) (e : ScheduleEntry) (off : Pos),
      s.schedule.timeList.find? (fun x => x.owner = e.owner) = some e → e.phase = .onTime off →
      (∀ x ∈ s.schedule.timeList, x.serial = e.serial → x = e) →
      (0 ≤ (s.position.ts - off).toInt →
        s.offTime e.serial = State.checkDone (s.entryEnded e .done) e.rid) ∧
      (s.position.tickDue = true → 0 ≤ (s.position.ts - off).toInt →
        exec (.offTime e.owner) s = State.done (State.checkDone (s.entryEnded e .done) e.rid) ∧
        (s.quiet → (∀ it ∈ s.items.passed, it.rid ≠ e.rid) →
          exec (.offTime e.owner) s = .next (s.entryEnded e .done))) ∧
      (s.quiet → (s.position.ts - off).toInt < 0 ∨ s.position.tickDue = false →
        exec (.offTime e.owner) s = .next s))

/-- R53, R54, R56 to R59, R62, R66, R73: a WAITING entry at its ON position is SUPPRESSED under INHIBIT, refused with
CONFLICT by a full hold set, each of which frees that one entry and leaves every other as it stands; otherwise it holds
its output and is filed again by its OFF position or OFF time, at its place (see CommitFixesTheDisposition). An ON entry
of COUNTS width at its OFF position releases its hold, its firing is DONE and it is freed; here its item is not PASSED,
as R59 says. An entry whose filing position HW has not reached is left. An ON entry that is cut releases its hold, its
firing takes result CUT, it is freed, and its item is checked for completion; a WAITING entry is not cut. A firing's
result once written is kept. -/
def Obligations.EntryAtItsPositions : Prop :=
  (∀ (s : State) (e : ScheduleEntry), s.schedule.Ok → e ∈ s.schedule.positionList → e.phase = .waiting →
     0 ≤ (s.position.hw - e.onPos).toInt →
     let t := s.schedulePoint e.serial
     let left (list : List ScheduleEntry) : List ScheduleEntry := list.filter (fun x => x.serial ≠ e.serial)
     let ended (r : FiringResult) : Prop :=
       t.outputs = s.outputs ∧ e.serial ∉ t.schedule.entries.map (·.serial) ∧
         t.items = (s.mapRecord e.rid (fun it => it.endFiring e.owner.firing r)).items ∧
         t.schedule = { s.schedule with
           positionList := left s.schedule.positionList, timeList := left s.schedule.timeList } ∧
         t.schedule.timeList = s.schedule.timeList ∧ OnlyChanges [.schedule, .items] s t
     (s.inhibit = true → ended .suppressed) ∧
     (s.inhibit = false → 4 ≤ s.outputs[e.output].holders.length → ended .conflict) ∧
     (s.inhibit = false → s.outputs[e.output].holders.length < 4 →
       t.outputs = tset s.outputs e.output { s.outputs[e.output] with
         holders := s.outputs[e.output].holders ++ [.firing e.owner] } ∧
       t.items = s.items ∧ OnlyChanges [.outputs, .schedule] s t ∧
       ((e.widthKind = .counts →
          t.schedule.positionList = insertEntry { e with phase := .onCounts (e.onPos + e.width.setWidth 32) }
            (left s.schedule.positionList) ∧
          t.schedule.timeList = left s.schedule.timeList) ∧
        (e.widthKind = .time →
          t.schedule.timeList = insertEntry
            { e with phase := .onTime (s.position.ts + BitVec.ofNat 32 (e.width.toNat * 1000)) }
            (left s.schedule.timeList) ∧
          t.schedule.positionList = left s.schedule.positionList)))) ∧
  (∀ (s : State) (e : ScheduleEntry), s.schedule.Ok → e ∈ s.schedule.positionList →
    (∀ off, e.phase = .onCounts off → 0 ≤ (s.position.hw - off).toInt → (∀ it ∈ s.items.passed, it.rid ≠ e.rid) →
      s.schedulePoint e.serial = s.entryEnded e .done) ∧
    (∀ off, e.phase = .onCounts off → (s.position.hw - off).toInt < 0 → s.schedulePoint e.serial = s) ∧
    (e.phase = .waiting → (s.position.hw - e.onPos).toInt < 0 → s.schedulePoint e.serial = s)) ∧
  (∀ (s : State) (e : ScheduleEntry), s.schedule.Ok → e ∈ s.schedule.entries →
    (e.phase = .waiting → s.cutEntry e.serial = s) ∧
    (e.phase ≠ .waiting → s.cutEntry e.serial = State.checkDone (s.entryEnded e .cut) e.rid)) ∧
  (∀ (it : Item) (k : Fin 4) (r : FiringResult), (it.endFiring k r).firings =
    it.firings.modify k (fun f => if f.result = .pending then { f with result := r } else f))

/-- R62, R81, R140, R143, R144: the combined INHIBIT state is active exactly while some input of role INHIBIT is accepted
active. An accepted transition, a SET_INPUT, or a comparison at the moment of a SET_INPUT that makes it active has every
ON firing cut (EntryAtItsPositions), every test hold of an ACTUATOR output removed and every pulse of a GENERAL output
ended, in whatever order they are taken; every entry left is one that was in the position list and is WAITING, and no
output changes its role. An accepted transition that does not make it active does nothing more. The reply of the
SET_INPUT stands as SetInputWritesTheInput says. That a raw level is held in the pins, and how a comparison at the
moment of a SET_INPUT comes, is the model's choice (log 9, log 11). -/
def Obligations.InhibitEndsEveryPulse : Prop :=
  let raised (u : State) : State := { u with
    agenda := [.inhibitOutputs] ::
      (u.schedule.entries.filter (fun e => decide (e.phase ≠ .waiting))).map (fun e => [.cut e.serial]) }
  let sound (s : State) : Prop := s.items.inUse ≤ 192 ∧ s.schedule.Ok ∧ ∀ o : OutputId, s.outputs[o].Ok
  let ended (s t : State) : Prop := t.inhibit = true ∧
    (∀ e ∈ t.schedule.entries, e.phase = .waiting ∧ e ∈ s.schedule.positionList) ∧
    (∀ o : OutputId, (t.outputs[o].role = .actuator → .test ∉ t.outputs[o].holders) ∧
      (t.outputs[o].role = .general → t.outputs[o].pulse = none) ∧ t.outputs[o].role = s.outputs[o].role)
  (∀ s : State, s.inhibit = true ↔
    ∃ i : InputId, s.inputs[i].role = .inhibit ∧ s.inputs[i].accepted = s.inputs[i].active) ∧
  (∀ (s : State) (k : Nat) (o : OutputId), s.handle (.cut k) = s.cutEntry k ∧
    OnlyChanges [.outputs] s (s.handle .inhibitOutputs) ∧
    (s.handle .inhibitOutputs).outputs[o] = match s.outputs[o].role with
      | .actuator => { s.outputs[o] with holders := s.outputs[o].holders.erase .test }
      | .general => { s.outputs[o] with pulse := none }
      | .hold => s.outputs[o]
      | .unused => s.outputs[o]) ∧
  (∀ (s : State) (i : InputId) (c : Capture), s.agenda = [] → s.inputs[i].role = .inhibit →
    s.acceptsAs i s.inputs[i].active c → s.inhibit = false →
    exec (.acceptedTransition i) s = State.done (raised (s.accepted i s.inputs[i].active)) ∧
    (sound s → ∃ t, exec (.acceptedTransition i) s = .next t ∧ ended s t)) ∧
  (∀ (s : State) (i : InputId) (level : Level) (c : Capture), s.quiet → s.inputs[i].role = .inhibit →
    s.acceptsAs i level c → ((s.accepted i level).inhibit = true → s.inhibit = true) →
    exec (.acceptedTransition i) s = .next (s.accepted i level)) ∧
  (∀ (s : State) (seq stable : Byte) (i : InputId) (f : Level) (p : Fin 8) (e : EdgeSelect), s.takesNow 0x1C seq →
    2 ≤ stable.toNat → stable.toNat ≤ 16 →
    (∀ l : LaneId, s.lanes[l].state ≠ .off → s.lanes[l].config.entryInput ≠ some i) →
    (s.inputs[i].role = .confirm → s.windows[i] = []) → s.inhibit = false →
    let request : Instr := .setInput seq (natByte i) InputRole.inhibit.code (levelCode s.pins[i]) (levelCode f) (natByte p)
      stable e.code
    let x : Input := { role := .inhibit, active := s.pins[i], filterOn := decide (f = .high), period := p
                       stable := stable.toNat, edge := e, accepted := s.pins[i], awaiting := false, mark := .requested
                       run := none }
    let reply : Frame := { kind := 0x5C, seq := seq, payload := [0, levelCode s.pins[i], 1] }
    exec request s = State.done { raised { s with inputs := tset s.inputs i x } with
      notices := s.notices.endStall
      link := { s.link with
        receiver := .hunting
        slot := some { frame := reply, begun := false, resets := false }
        last := some { kind := 0x1C, seq := seq, reply := reply } } } ∧
    (sound s → ∃ t, exec request s = .next t ∧ ended s t)) ∧
  (∀ (s : State) (i : InputId), s.agenda = [] → s.inputs[i].role = .inhibit → s.inputs[i].awaiting = false →
    s.inputs[i].run = none → s.inputs[i].mark = .requested → s.inhibit = false →
    exec (.firstSample i s.inputs[i].active) s = State.done (raised { s with
      pins := tset s.pins i s.inputs[i].active
      inputs := tset s.inputs i { s.inputs[i] with accepted := s.inputs[i].active } }) ∧
    (sound s → ∃ t, exec (.firstSample i s.inputs[i].active) s = .next t ∧ ended s t))

/-! ### Inputs -/

/-- R142, R143: SET_INPUT takes the six fields and the raw level, and drops a run; unless it makes INHIBIT active
(InhibitEndsEveryPulse) nothing else happens. The raw level is held by the model in the pins (log 9). -/
def Obligations.SetInputWritesTheInput : Prop :=
  ∀ (s : State) (seq input role active filter period stable edge : Byte), s.takesNow 0x1C seq →
    (15 < input.toNat ∨ 4 < role.toNat ∨ 1 < active.toNat ∨ 1 < filter.toNat ∨ 7 < period.toNat ∨ stable.toNat < 2 ∨
        16 < stable.toNat ∨ 2 < edge.toNat →
      exec (.setInput seq input role active filter period stable edge) s = .next (s.answers 0x1C seq [3])) ∧
    (∀ (i : InputId) (r : InputRole) (a f : Level) (p : Fin 8) (e : EdgeSelect), input = natByte i → role = r.code →
      active = levelCode a → filter = levelCode f → period = natByte p → edge = e.code → 2 ≤ stable.toNat →
      stable.toNat ≤ 16 →
      let inUse : Prop := (∃ l : LaneId, s.lanes[l].state ≠ .off ∧ s.lanes[l].config.entryInput = some i) ∨
        (s.inputs[i].role = .confirm ∧ s.windows[i] ≠ [])
      let x : Input := { role := r, active := a, filterOn := decide (f = .high), period := p, stable := stable.toNat
                         edge := e, accepted := s.pins[i], awaiting := false, mark := .requested, run := none }
      let u : State := { s with inputs := tset s.inputs i x }
      let reply : List Byte := [0, levelCode s.pins[i], boolCode (decide (s.pins[i] = a))]
      (inUse → exec (.setInput seq input role active filter period stable edge) s = .next (s.answers 0x1C seq [8])) ∧
      (¬ inUse → (u.inhibit = true → s.inhibit = true) →
        exec (.setInput seq input role active filter period stable edge) s = .next (u.answers 0x1C seq reply)) ∧
      (¬ inUse → ∃ t, exec (.setInput seq input role active filter period stable edge) s = .next t ∧
        t.inputs = tset s.inputs i x ∧ t.repliesWith 0x1C seq reply))

/-- R133, R135, R137, R144: one comparison at each advance of TS: a level equal to the accepted one does nothing more; a
difference begins a run with its capture on a filtered input, and is accepted at once on an unfiltered one, as the row
of an accepted transition is, which ends there where the role is UNUSED; the first comparison after a reset takes the
raw level; a run in progress is left. After a SET_INPUT of the same moment the raw level is taken and no run starts. The
raw level held in the pins, the marks of one moment and the wait for the first comparison are the model's choice (log 9,
log 11, log 10). -/
def Obligations.FirstSampleBeginsARun : Prop :=
  ∀ (s : State) (i : InputId) (raw : Level), s.quiet →
    let x := s.inputs[i]
    let put (y : Input) : State := { s with pins := tset s.pins i raw, inputs := tset s.inputs i y }
    let run : Run :=
      { candidate := raw, count := 1
        capture := { bp := s.position.bp, rd := s.position.hw - s.position.bp, ts := s.position.ts, ft := s.position.ft } }
    (x.awaiting = true →
      exec (.firstSample i raw) s = .next (put { x with accepted := raw, awaiting := false, mark := .taken })) ∧
    (x.awaiting = false → x.run ≠ none ∨ x.mark = .taken → exec (.firstSample i raw) s = .next (put x)) ∧
    (x.awaiting = false → x.run = none → x.mark = .due → raw = x.accepted →
      exec (.firstSample i raw) s = .next (put { x with mark := .taken })) ∧
    (x.awaiting = false → x.run = none → x.mark = .due → raw ≠ x.accepted → x.filterOn = true →
      exec (.firstSample i raw) s = .next (put { x with mark := .taken, run := some run })) ∧
    (x.awaiting = false → x.run = none → x.mark = .due → raw ≠ x.accepted → x.filterOn = false → x.role = .unused →
      exec (.firstSample i raw) s = .next (put { x with accepted := raw, mark := .taken })) ∧
    (x.awaiting = false → x.run = none → x.mark = .due → raw ≠ x.accepted → x.filterOn = false →
      exec (.firstSample i raw) s = exec (.acceptedTransition i) s) ∧
    (x.awaiting = false → x.run = none → x.mark = .requested →
      ((put { x with accepted := raw }).inhibit = true → s.inhibit = true) →
      exec (.firstSample i raw) s = .next (put { x with accepted := raw }))

/-- R90, R136, R144: a sample of a run falls so many sample periods after the first, and one that does not fall now
has no effect. One that shows the candidate level counts, and at the stable count the level is accepted; one that
shows the accepted level abandons the run, which on a CONFIRM input resolves the HOLDING windows of its list (see
WindowsOpenCloseAndHold) and leaves none of them. Without a run, a filtered input has nothing to accept, and neither
has one whose level of this moment a sample or a SET_INPUT has taken. Which row a sample comes as is the model's
choice (log 11). -/
def Obligations.RunCountsAcceptsOrEnds : Prop :=
  (∀ (s : State) (i : InputId) (r : Run), s.quiet → s.awaitsSample i r →
      let x := s.inputs[i]
      let put (raw : Level) (y : Input) : State := { s with pins := tset s.pins i raw, inputs := tset s.inputs i y }
      (r.count + 1 < x.stable →
        exec (.runSample i) s = .next (put r.candidate
          { x with run := some { r with count := r.count + 1 }, mark := .taken })) ∧
      exec (.acceptedTransition i) s = exec (.runSample i) s ∧
      (x.stable ≤ r.count + 1 → x.role = .unused →
        exec (.runSample i) s = .next (put r.candidate { x with accepted := r.candidate, run := none, mark := .taken })) ∧
      (x.role ≠ .confirm →
        exec (.runAbandoned i) s = .next (put r.candidate.flip { x with run := none, mark := .taken }))) ∧
  (∀ (s : State) (i : InputId), s.quiet → (∀ r, ¬ s.awaitsSample i r) →
      exec (.runSample i) s = .next s ∧ exec (.runAbandoned i) s = .next s ∧
      (s.inputs[i].run ≠ none ∨ s.inputs[i].filterOn = true ∨ s.inputs[i].mark ≠ .due →
        exec (.acceptedTransition i) s = .next s)) ∧
  (∀ (s : State) (i : InputId) (r : Run), s.agenda = [] → s.awaitsSample i r → s.inputs[i].role = .confirm →
      exec (.runAbandoned i) s = State.done (State.endRun { s with
        pins := tset s.pins i r.candidate.flip
        inputs := tset s.inputs i { s.inputs[i] with run := none, mark := .taken } } i none) ∧
      ∃ t, exec (.runAbandoned i) s = .next t ∧ t.inputs[i].run = none ∧ t.inputs[i].accepted = s.inputs[i].accepted ∧
        (∀ w ∈ t.windows[i], w.phase ≠ .holding ∧ w ∈ s.windows[i]))

/-- R141, R165: an edge of a GENERAL input that its edge select takes gives an INPUT notice when enabled (a slot
below 24 entries, else a missed count), and its trigger, which here matches no enabled reaction; an edge it does not
take changes the input and the level its pin has shown alone. -/
def Obligations.GeneralEdgeGivesItsNotice : Prop :=
  ∀ (s : State) (i : InputId) (level : Level) (c : Capture), s.agenda = [] → s.link.transmitter ≠ .idle →
    s.inputs[i].role = .general → s.acceptsAs i level c →
    (∀ r : ReactionId, s.reactions[r].enabled = true → s.reactions[r].trigger ≠ .input i) →
    let edge : Edge := if level = s.inputs[i].active then .activation else .deactivation
    let u := s.accepted i level
    let taken : Prop := s.inputs[i].edge = .both ∨ (s.inputs[i].edge = .activate ∧ edge = .activation) ∨
      (s.inputs[i].edge = .deactivate ∧ edge = .deactivation)
    (¬ taken ∨ s.notices.settings.inputsOn.getLsbD i = false → exec (.acceptedTransition i) s = .next u) ∧
    (taken → s.notices.settings.inputsOn.getLsbD i = true → s.notices.depth < 24 →
      exec (.acceptedTransition i) s = .next { u with
        notices := { s.notices with
          unsent := s.notices.unsent ++
            [{ kind := .input
               contents := some ([natByte i, edge.code] ++ wordBytes c.bp ++ wordBytes c.ts ++
                 [natByte s.notices.missed.input])
               link := .none, number := none, resend := false }]
          missed := { s.notices.missed with input := 0 } } }) ∧
    (taken → s.notices.settings.inputsOn.getLsbD i = true → 24 ≤ s.notices.depth →
      exec (.acceptedTransition i) s = .next { u with
        notices := { s.notices with
          missed := { s.notices.missed with input := min 255 (s.notices.missed.input + 1) } } })

/-- R86, R87, R88, R90, R127, R165: an activation on a CONFIRM input that was captured under fresh travel, by the FT of
its capture, resolves the oldest window that contains its position, whatever the phase, or is a stray edge with its
notice, which from 24 entries on is dropped and counted. A deactivation, and an activation captured outside fresh
travel, match no window and give no notice. Either way the run has ended, and the windows that are HOLDING then resolve
without a match (see WindowsOpenCloseAndHold); where none is, an ignored edge changes nothing but its input. -/
def Obligations.ConfirmationEdgeMatchesTheOldestWindow : Prop :=
  (∀ (s : State) (i : InputId) (level : Level) (c : Capture), s.inputs[i].role = .confirm → s.acceptsAs i level c →
    let u := s.accepted i level
    let fresh : Prop := level = s.inputs[i].active ∧ c.rd.toInt ≤ (c.ft.toNat : Int)
    (fresh → exec (.acceptedTransition i) s = ((u.confirmEdge i c).endRun i none).done) ∧
    (¬ fresh → exec (.acceptedTransition i) s = (u.endRun i none).done ∧
      (s.quiet → (∀ w ∈ s.windows[i], w.phase ≠ .holding) → exec (.acceptedTransition i) s = .next u))) ∧
  (∀ (s : State) (i : InputId) (c : Capture),
    let holds (w : Window) : Bool := 0 ≤ (c.bp - w.openPos).toInt && 0 ≤ (w.closePos - c.bp).toInt
    (∀ w, s.windows[i].find? holds = some w →
      s.confirmEdge i c = State.checkDone { (s.mapRecord w.rid (fun it => it.endConfirm (match w.expect with
          | .present => .confirmed
          | .absent => .leak))) with
        windows := tset s.windows i (s.windows[i].filter (fun v => v.rid ≠ w.rid)) } w.rid) ∧
    (s.windows[i].find? holds = none →
      (s.notices.settings.confirmOn = false → s.confirmEdge i c = s) ∧
      (s.notices.settings.confirmOn = true → s.notices.depth < 24 → s.confirmEdge i c = { s with
        notices := { s.notices with
          unsent := s.notices.unsent ++
            [{ kind := .stray
               contents := some ([natByte i] ++ wordBytes c.bp ++ wordBytes c.ts ++ [natByte s.notices.missed.confirm])
               link := .none, number := none, resend := false }]
          missed := { s.notices.missed with confirm := 0 } } }) ∧
      (s.notices.settings.confirmOn = true → 24 ≤ s.notices.depth → s.confirmEdge i c = { s with
        notices := { s.notices with
          missed := { s.notices.missed with confirm := min 255 (s.notices.missed.confirm + 1) } } }))) ∧
  (∀ (s : State) (i : InputId) (c : Capture), s.agenda = [] → s.items.Ok → s.inputs[i].role = .confirm →
    s.acceptsAs i s.inputs[i].active c → c.rd.toInt ≤ (c.ft.toNat : Int) →
    (∀ w ∈ s.windows[i], w.phase ≠ .holding) →
    let holds (w : Window) : Bool := 0 ≤ (c.bp - w.openPos).toInt && 0 ≤ (w.closePos - c.bp).toInt
    let u := s.accepted i s.inputs[i].active
    (∀ w, s.windows[i].find? holds = some w →
      ∃ t, exec (.acceptedTransition i) s = .next t ∧ t.windows[i] = s.windows[i].filter (fun v => v.rid ≠ w.rid) ∧
        (∀ l : LaneId, ∀ it ∈ s.items.queues[l], it.rid = w.rid → ∃ it' ∈ t.items.queues[l],
          it'.sansFlags = (it.endConfirm (match w.expect with
            | .present => .confirmed
            | .absent => .leak)).sansFlags)) ∧
    (s.windows[i].find? holds = none → s.link.transmitter ≠ .idle →
      exec (.acceptedTransition i) s = .next (u.confirmEdge i c)))

/-- R84, R85, R89, R90, R91: a PENDING window becomes OPEN at its open position; an OPEN window at its close event
becomes HOLDING while a run is in progress on its input, and otherwise resolves without a match, PRESENT to MISSED
and ABSENT to CONFIRMED, leaves its list and its item is checked for completion (R19); a window not at its position,
and a HOLDING one, is left. At the end of a run every HOLDING window resolves without a match in the same way, after
the match of the edge where there is one. A confirm result once written is kept. -/
def Obligations.WindowsOpenCloseAndHold : Prop :=
  (∀ (s : State) (i : InputId) (w : Window), w ∈ s.windows[i] → (∀ v ∈ s.windows[i], v.rid = w.rid → v = w) →
    let inPhase (p : WindowPhase) : State := { s with
      windows := tset s.windows i (s.windows[i].map (fun v => if v.rid = w.rid then { w with phase := p } else v)) }
    let resolved : State := { (s.mapRecord w.rid (fun it => it.endConfirm (match w.expect with
        | .present => .missed
        | .absent => .confirmed))) with
      windows := tset s.windows i (s.windows[i].filter (fun v => v.rid ≠ w.rid)) }
    (w.phase = .pending → 0 ≤ (s.position.hw - w.openPos).toInt → s.openWindow i w.rid = inPhase .opened) ∧
    (w.phase ≠ .pending ∨ (s.position.hw - w.openPos).toInt < 0 → s.openWindow i w.rid = s) ∧
    (w.phase = .opened → 0 ≤ (s.position.hw - (w.closePos + 1)).toInt →
      (s.inputs[i].run ≠ none → s.closeWindow i w.rid = inPhase .holding) ∧
      (s.inputs[i].run = none → s.closeWindow i w.rid = resolved.checkDone w.rid)) ∧
    (w.phase ≠ .opened ∨ (s.position.hw - (w.closePos + 1)).toInt < 0 → s.closeWindow i w.rid = s)) ∧
  (∀ (s : State) (i : InputId), s.items.Ok → (s.windows[i].map (·.rid)).Nodup →
    let t := s.endRun i none
    t.windows[i] = s.windows[i].filter (fun w => w.phase ≠ .holding) ∧
    (∀ j : InputId, j ≠ i → t.windows[j] = s.windows[j]) ∧
    (∀ w ∈ s.windows[i], w.phase = .holding → ∀ l : LaneId, ∀ it ∈ s.items.queues[l], it.rid = w.rid →
      ∃ it' ∈ t.items.queues[l], it'.sansFlags = (it.endConfirm (match w.expect with
        | .present => .missed
        | .absent => .confirmed)).sansFlags) ∧
    (∀ c : Capture, s.endRun i (some c) = (s.confirmEdge i c).endRun i none)) ∧
  (∀ (it : Item) (r : ConfirmResult), (it.endConfirm r).confirmResult =
    if it.confirmResult = some .waiting then some r else it.confirmResult)

/-! ### Lanes -/

/-- R98, R99: which fields SET_LANE refuses; it writes the whole configuration of an OFF lane and no state field. -/
def Obligations.SetLaneWritesAnOffLane : Prop :=
  (∀ f : LaneFields, laneConfigOf f = none ↔
    (15 < f.entryInput.toNat ∧ f.entryInput ≠ 0xFF) ∨ 1048575 < f.d.toNat ∨ 1048575 < f.x.toNat ∨ 1048575 < f.l.toNat ∨
    (∃ st ∈ [f.station0, f.station1, f.station2, f.station3], st.offset ≠ 0xFFFFFFFF ∧
      (st.offset = 0 ∨ 1048575 < st.offset.toNat ∨ 15 < st.output.toNat)) ∨
    15 < f.default.toNat ∨ f.limit = 0 ∨ 192 < f.limit.toNat ∨ (15 < f.holdOutput.toNat ∧ f.holdOutput ≠ 0xFF) ∨
    192 < f.holdMark.toNat) ∧
  (∀ (f : LaneFields) (c : LaneConfig), laneConfigOf f = some c →
    c.d = f.d.toNat ∧ c.x = f.x.toNat ∧ c.l = f.l.toNat ∧ c.default.val = f.default.toNat ∧ c.limit = f.limit.toNat ∧
      c.holdMark = f.holdMark.toNat ∧
      (∀ i, c.entryInput = some i ↔ f.entryInput = natByte i) ∧ (∀ o, c.holdOutput = some o ↔ f.holdOutput = natByte o) ∧
      (∀ (k : Fin 4) (field : StationField), [f.station0, f.station1, f.station2, f.station3][k.val]? = some field →
        (c.stations[k] = none ↔ field.offset = 0xFFFFFFFF) ∧
        ∀ st, c.stations[k] = some st → st.offset = field.offset.toNat ∧ field.output = natByte st.output)) ∧
  (∀ (s : State) (seq lane : Byte) (f : LaneFields), s.takesNow 0x08 seq →
    (3 < lane.toNat ∨ laneConfigOf f = none → exec (.setLane seq lane f) s = .next (s.answers 0x08 seq [3])) ∧
    (∀ (l : LaneId) (c : LaneConfig), lane = natByte l → laneConfigOf f = some c →
      (s.lanes[l].state ≠ .off → exec (.setLane seq lane f) s = .next (s.answers 0x08 seq [4])) ∧
      (s.lanes[l].state = .off → exec (.setLane seq lane f) s = .next (State.answers
        { s with lanes := tset s.lanes l { s.lanes[l] with config := c } } 0x08 seq [0]))))

/-- R103 to R105: the nine checks of ARM; in RUN nothing happens; a refused ARM changes nothing and names the first
failing check; one that passes takes the lane to RUN, clears its causes, its untracked count and the encoder fault
flag, makes the lane's notice pending or finds it unsent in the queue (R115, R164), and decides entry blanking. That
an ARM of a lane byte above 3 is answered with the status alone is the model's choice (log 28). -/
def Obligations.ArmChecksThenRuns : Prop :=
  (∀ (s : State) (l : LaneId), let c := s.lanes[l].config
    ∃ b1 b2 b3 b4 b5 b6 b7 b8 b9 : Bool,
      s.armChecks l = [(.geometry, b1), (.inUse, b2), (.geometry, b3), (.geometry, b4), (.geometry, b5), (.inUse, b6),
        (.geometry, b7), (.geometry, b8), (.wrongState, b9)] ∧
      (b1 = true ↔ ∃ i, c.entryInput = some i ∧ s.inputs[i].role = .entry) ∧
      (b2 = true ↔ ∀ m : LaneId, m ≠ l → s.lanes[m].state ≠ .off → s.lanes[m].config.entryInput ≠ c.entryInput) ∧
      (b3 = true ↔ c.d ≠ 0 ∧ c.x ≠ 0 ∧ c.l ≠ 0 ∧ c.d < c.x ∧ c.l < c.x) ∧
      (b4 = true ↔ ∀ (k : Fin 4) (st : Station), c.stations[k] = some st → c.d < st.offset ∧ st.offset < c.x) ∧
      (b5 = true ↔ ∀ (k : Fin 4) (st : Station), c.stations[k] = some st → s.outputs[st.output].role = .actuator) ∧
      (b6 = true ↔ ∀ (k : Fin 4) (st : Station), c.stations[k] = some st → .test ∉ s.outputs[st.output].holders) ∧
      (b7 = true ↔ ∀ o, c.holdOutput = some o → s.outputs[o].role = .hold ∧ s.outputs[o].lane = natByte l) ∧
      (b8 = true ↔ s.valid l s.verdicts.dispositions[c.default] = true) ∧
      (b9 = true ↔ s.position.rd.toInt ≤ (s.position.rl.toNat : Int))) ∧
  (∀ (s : State) (seq lane : Byte), s.takesNow 0x0A seq →
    (3 < lane.toNat → exec (.arm seq lane) s = .next (s.answers 0x0A seq [3])) ∧
    (∀ l : LaneId, lane = natByte l →
      (s.lanes[l].state = .run →
        exec (.arm seq lane) s = .next (s.answers 0x0A seq [0, 1, flagByte [s.lanes[l].blanked]])) ∧
      (∀ (k : Nat) (st : Status), s.lanes[l].state ≠ .run → (s.armChecks l)[k]? = some (st, false) →
        (∀ j p, j < k → (s.armChecks l)[j]? = some p → p.2 = true) →
        exec (.arm seq lane) s = .next (s.answers 0x0A seq [st.code, natByte (k + 1)])) ∧
      (s.lanes[l].state ≠ .run → (∀ p ∈ s.armChecks l, p.2 = true) →
        let b : Bool := (match s.lanes[l].config.entryInput with
          | none => false
          | some i => s.inputs[i].accepted = s.inputs[i].active) && !s.items.queues[l].any (·.covering)
        ∃ t, exec (.arm seq lane) s = .next t ∧
          t.lanes[l].sansNotice = Lane.sansNotice { s.lanes[l] with
            state := .run, causes := CauseSet.empty, first := none, untracked := 0, blanked := b } ∧
          (t.lanes[l].noticeFlag = true ∨ t.notices.hasUnsentLane l = true) ∧
          s.sameOtherLanes t l ∧ s.sameRecords t ∧ t.position = { s.position with encoderFault := false } ∧
          t.repliesWith 0x0A seq [0, 1, flagByte [b]] ∧
          OnlyChanges [.lanes, .position, .items, .notices, .link] s t)))

/-- R106, R108, R115: DISARM stops an empty lane and lets a lane with items drain, unless its depth forbids it; either
change of state makes the lane's notice pending, or finds it unsent in the queue (R164). -/
def Obligations.DisarmDrainsOrStops : Prop :=
  ∀ (s : State) (seq lane : Byte), s.takesNow 0x0B seq →
    (3 < lane.toNat → exec (.disarm seq lane) s = .next (s.answers 0x0B seq [3])) ∧
    (∀ l : LaneId, lane = natByte l →
      (s.lanes[l].state = .off → exec (.disarm seq lane) s = .next (s.answers 0x0B seq [0, 0])) ∧
      (s.lanes[l].state = .drain → exec (.disarm seq lane) s = .next (s.answers 0x0B seq [0, 2])) ∧
      (s.lanes[l].state = .run ∨ s.lanes[l].state = .fault → s.items.queues[l] = [] →
        ∃ t, exec (.disarm seq lane) s = .next t ∧
          t.lanes[l].sansNotice = Lane.sansNotice { s.lanes[l] with state := .off, blanked := false } ∧
          (t.lanes[l].noticeFlag = true ∨ t.notices.hasUnsentLane l = true) ∧
          s.sameOtherLanes t l ∧ s.sameRecords t ∧
          t.verdicts = { s.verdicts with advance := tset s.verdicts.advance l [] } ∧ t.repliesWith 0x0B seq [0, 0] ∧
          OnlyChanges [.lanes, .verdicts, .items, .notices, .link] s t) ∧
      (s.lanes[l].state = .run ∨ (s.lanes[l].state = .fault ∧ s.position.rd.toInt ≤ (s.position.rl.toNat : Int)) →
        s.items.queues[l] ≠ [] →
        ∃ t, exec (.disarm seq lane) s = .next t ∧
          t.lanes[l].sansNotice = Lane.sansNotice { s.lanes[l] with state := .drain } ∧
          (t.lanes[l].noticeFlag = true ∨ t.notices.hasUnsentLane l = true) ∧
          s.sameOtherLanes t l ∧ s.sameRecords t ∧ t.repliesWith 0x0B seq [0, 2] ∧
          OnlyChanges [.lanes, .items, .notices, .link] s t) ∧
      (s.lanes[l].state = .fault → (s.position.rl.toNat : Int) < s.position.rd.toInt → s.items.queues[l] ≠ [] →
        exec (.disarm seq lane) s = .next (s.answers 0x0B seq [4])))

/-- R24, R64, R74, R95, R108, R110, R172: CLEAR discards every record of the lane with its entries and window, takes the
lane to OFF and touches no record, entry or window of another lane. The change of state makes the lane's notice pending,
or finds it unsent in the queue (R115, R164); a CLEAR in OFF raises none. ON entries of the discarded records release their
holds, and no output changes otherwise. Unsent notice entries and references of these records leave, and their sent
entries stay with their link cut; slots so freed run admission. No notice frame is sent in the command, whose reply is
granted first (R184). -/
def Obligations.ClearDiscardsTheLane : Prop :=
  ∀ (s : State) (seq lane : Byte), s.takesNow 0x0C seq →
    (3 < lane.toNat → exec (.clear seq lane) s = .next (s.answers 0x0C seq [3])) ∧
    (∀ l : LaneId, lane = natByte l → s.items.Ok →
      let records := s.items.queues[l] ++ (s.items.done ++ s.items.passed).filter (fun it => it.lane = l)
      let gone := records.map (·.rid)
      ∃ t, exec (.clear seq lane) s = .next t ∧ t.repliesWith 0x0C seq [0, natByte records.length] ∧
        t.items.queues[l] = [] ∧
        (∀ m : LaneId, m ≠ l → t.items.queues[m].map Item.sansFlags = s.items.queues[m].map Item.sansFlags) ∧
        t.items.done.map Item.sansFlags = (s.items.done.filter (fun it => it.lane ≠ l)).map Item.sansFlags ∧
        t.items.passed.map Item.sansFlags = (s.items.passed.filter (fun it => it.lane ≠ l)).map Item.sansFlags ∧
        t.schedule.positionList = s.schedule.positionList.filter (fun e => e.rid ∉ gone) ∧
        t.schedule.timeList = s.schedule.timeList.filter (fun e => e.rid ∉ gone) ∧
        (∀ i : InputId, t.windows[i] = s.windows[i].filter (fun w => w.rid ∉ gone)) ∧
        t.lanes[l].sansNotice = Lane.sansNotice { s.lanes[l] with state := .off, blanked := false } ∧
        (s.lanes[l].state ≠ .off → t.lanes[l].noticeFlag = true ∨ t.notices.hasUnsentLane l = true) ∧
        (s.lanes[l].state = .off → s.lanes[l].noticeFlag = false → .lane l ∉ s.notices.refs →
          s.notices.hasUnsentLane l = false → t.lanes[l].noticeFlag = false ∧ t.notices.hasUnsentLane l = false) ∧
        s.sameOtherLanes t l ∧ t.verdicts = { s.verdicts with advance := tset s.verdicts.advance l [] } ∧
        (∀ o : OutputId, { t.outputs[o] with holders := s.outputs[o].holders } = s.outputs[o] ∧
          (s.outputs[o].holders.Nodup → ∀ h : Holder, h ∈ t.outputs[o].holders ↔
            h ∈ s.outputs[o].holders ∧ ∀ e ∈ s.schedule.entries, e.rid ∈ gone → e.phase ≠ .waiting → e.output = o →
              h ≠ .firing e.owner)) ∧
        (let n := s.notices.endStall
         let discarded (e : NoticeEntry) : Bool := gone.any (fun rid => e.link = .item rid)
         t.notices = { n with refs := t.notices.refs, sent := t.notices.sent, unsent := t.notices.unsent } ∧
         t.notices.sent = n.sent.map (fun e => if discarded e then { e with link := .none } else e) ∧
         (∃ added, t.notices.unsent = n.unsent.filter (fun e => !discarded e) ++ added ∧
           ∀ e ∈ added, discarded e = false) ∧
         (∀ rid ∈ gone, ∀ sub : SubKind, .item rid sub ∉ t.notices.refs) ∧
         (n.depth ≤ 32 → (∃ e ∈ n.unsent, discarded e = true) → t.notices.refs = [] ∨ t.notices.depth = 32)) ∧
        OnlyChanges [.items, .notices, .outputs, .schedule, .windows, .lanes, .verdicts, .link] s t)

/-! ### Verdicts and commits -/

/-- R29 to R33: what makes a disposition valid for a lane; which contents SET_DISPOSITION refuses as out of range,
and that those in range are the record field by field; it is refused with GEOMETRY when they fail a lane outside OFF
whose default the index is, and otherwise written. -/
def Obligations.SetDispositionWritesTheTable : Prop :=
  (∀ (s : State) (l : LaneId) (d : Disposition), let c := s.lanes[l].config
    s.valid l d = true ↔
      (∀ f ∈ d.firings, ∃ st, c.stations[f.station] = some st ∧
        (c.d : Int) < st.offset + f.adjust.toInt ∧ st.offset + f.adjust.toInt < (c.x : Int) ∧
        (f.widthKind = .counts → st.offset + f.adjust.toInt + (f.width.toNat : Int) < (c.x : Int))) ∧
      (∀ k, d.confirm = some k → s.inputs[k.input].role = .confirm ∧ c.d < k.openOffset.toNat ∧
        k.openOffset.toNat ≤ k.closeOffset.toNat ∧ k.closeOffset.toNat < c.x)) ∧
  (∀ (fs : List FiringField) (c : Option ConfirmField), dispositionOf fs c = none ↔
    4 < fs.length ∨
    (∃ f ∈ fs, 3 < f.station.toNat ∨ 1 < f.widthKind.toNat ∨ f.adjust.toInt < -4096 ∨ 4095 < f.adjust.toInt ∨
      f.width = 0 ∨ (f.widthKind = 0 ∧ 2000 < f.width.toNat)) ∨
    (∃ k, c = some k ∧ (15 < k.input.toNat ∨ 1 < k.expect.toNat ∨ k.openOffset = 0 ∨ 1048575 < k.openOffset.toNat ∨
      k.closeOffset = 0 ∨ 1048575 < k.closeOffset.toNat))) ∧
  (∀ (fs : List FiringField) (c : Option ConfirmField) (d : Disposition), dispositionOf fs c = some d →
    d.firings.length = fs.length ∧
    (∀ (k : Nat) (f : FiringField), fs[k]? = some f → ∃ x, d.firings[k]? = some x ∧ f.station = natByte x.station ∧
      f.widthKind = x.widthKind.code ∧ x.adjust = f.adjust ∧ x.width = f.width) ∧
    (c = none → d.confirm = none) ∧
    (∀ k, c = some k → ∃ y, d.confirm = some y ∧ k.input = natByte y.input ∧ k.expect = y.expect.code ∧
      y.openOffset = k.openOffset ∧ y.closeOffset = k.closeOffset)) ∧
  (∀ (s : State) (seq index : Byte) (fs : List FiringField) (c : Option ConfirmField), s.takesNow 0x10 seq →
    (Instr.setDisposition seq index fs c).wellFormed = true →
    (15 < index.toNat ∨ dispositionOf fs c = none →
      exec (.setDisposition seq index fs c) s = .next (s.answers 0x10 seq [3])) ∧
    (∀ (i : Fin 16) (d : Disposition), index = natByte i → dispositionOf fs c = some d →
      ((∃ l : LaneId, s.lanes[l].state ≠ .off ∧ s.lanes[l].config.default = i ∧ s.valid l d = false) →
        exec (.setDisposition seq index fs c) s = .next (s.answers 0x10 seq [9])) ∧
      ((∀ l : LaneId, s.lanes[l].state ≠ .off → s.lanes[l].config.default = i → s.valid l d = true) →
        exec (.setDisposition seq index fs c) s = .next (State.answers
          { s with verdicts := { s.verdicts with dispositions := tset s.verdicts.dispositions i d } } 0x10 seq [0]))))

/-- R35 to R39, R41: VERDICT, the first case that applies deciding; an advance verdict joins its list in tag order, or
replaces the entry of its tag. -/
def Obligations.VerdictIsBoundOrRefused : Prop :=
  (∀ (next : Half) (e : AdvanceEntry) (list : List AdvanceEntry), list.Pairwise (tagOrder next) →
    (insertAdvance next e list).Pairwise (tagOrder next) ∧ e ∈ insertAdvance next e list ∧
      ∀ x, x.tag ≠ e.tag → (x ∈ insertAdvance next e list ↔ x ∈ list)) ∧
  (∀ (s : State) (seq lane : Byte) (tag : Half) (index : Byte), s.takesNow 0x11 seq →
    (3 < lane.toNat ∨ 15 < index.toNat → exec (.verdict seq lane tag index) s = .next (s.answers 0x11 seq [3])) ∧
    (∀ (l : LaneId) (k : Fin 16), lane = natByte l → index = natByte k →
      let queued := s.items.queues[l].find? (fun it => it.tag = tag)
      (s.lanes[l].state = .off → exec (.verdict seq lane tag index) s = .next (s.answers 0x11 seq [4])) ∧
      (∀ it, s.lanes[l].state ≠ .off → queued = some it → it.state = .opened →
        let amend := if it.stored.isSome then min 15 (it.amend + 1) else it.amend
        exec (.verdict seq lane tag index) s = .next (State.answers
          (s.mapRecord it.rid (fun x => { x with
            stored := some { index := k, source := .host }
            amend := if x.stored.isSome then min 15 (x.amend + 1) else x.amend }))
          0x11 seq [0, if it.stored.isSome then 1 else 0, natByte amend])) ∧
      (∀ it, s.lanes[l].state ≠ .off → queued = some it → it.state ≠ .opened →
        exec (.verdict seq lane tag index) s = .next (s.answers 0x11 seq [6])) ∧
      (s.lanes[l].state ≠ .off → queued = none → (∃ it ∈ s.items.retired, it.lane = l ∧ it.tag = tag) →
        exec (.verdict seq lane tag index) s = .next (s.answers 0x11 seq [6])) ∧
      (s.lanes[l].state ≠ .off → queued = none → (∀ it ∈ s.items.retired, ¬ (it.lane = l ∧ it.tag = tag)) →
        let list := insertAdvance s.lanes[l].nextTag { tag := tag, index := k } s.verdicts.advance[l]
        ((tag - s.lanes[l].nextTag).toNat ≤ 7 →
          exec (.verdict seq lane tag index) s = .next (State.answers
            { s with verdicts := { s.verdicts with advance := tset s.verdicts.advance l list } } 0x11 seq
            [0, if s.verdicts.advance[l].any (fun e => e.tag = tag) then 3 else 2, natByte list.length])) ∧
        (7 < (tag - s.lanes[l].nextTag).toNat →
          exec (.verdict seq lane tag index) s = .next (s.answers 0x11 seq [5])))))

/-- R7, R15, R43 to R47, R52 to R54, R83: the commit chooses the disposition, or the lane default in its place, copies it
into the record, and creates all of its schedule entries and its window, or none with the skipped flag set. A firing is
copied with its fire offset, the offset of its station plus its adjust, and result PENDING; a confirm spec with result
WAITING. The ON position of an entry is the entry position of the item plus that fire offset, and its output the one of
its station; that the entry of an absent station, which no valid firing names, has OUT0 is the model's choice (log 24).
The COMMIT flag is raised (what a raise does stands in AdmissionTakesTheHighestReference). An entry joins its list before
the first that it precedes, by filing position or OFF time and then by creation, and a window before the first of larger
open position: a list in order, with its positions in half of the circle as R53 and R83 say, stays in order. -/
def Obligations.CommitFixesTheDisposition : Prop :=
  (∀ (s : State) (it : Item),
    let dflt := s.lanes[it.lane].config.default
    let source : VerdictSource := match it.stored with
      | some v => v.source
      | none => .default
    let index : Fin 16 := match it.stored with
      | some v => v.index
      | none => dflt
    let d := s.verdicts.dispositions[index]
    let e := s.verdicts.dispositions[dflt]
    (s.valid it.lane d = true → s.decide it =
      { source := source, index := index, substituted := false, firings := d.firings, confirm := d.confirm }) ∧
    (s.valid it.lane d = false → s.valid it.lane e = true → s.decide it =
      { source := .default, index := dflt, substituted := true, firings := e.firings, confirm := e.confirm }) ∧
    (s.valid it.lane d = false → s.valid it.lane e = false → s.decide it =
      { source := .default, index := dflt, substituted := true, firings := e.firings, confirm := none })) ∧
  (∀ (c : LaneConfig) (f : Firing), let x := c.commitFiring f
    x.station = f.station ∧ x.widthKind = f.widthKind ∧ x.width = f.width ∧ x.result = .pending ∧
      ∀ st, c.stations[f.station] = some st → x.fireOffset = BitVec.ofInt 32 (st.offset + f.adjust.toInt)) ∧
  (∀ k : ConfirmSpec, k.commit = {
    input := k.input, openOffset := k.openOffset, closeOffset := k.closeOffset, expect := k.expect
    result := .waiting }) ∧
  (let precedes (a b : ScheduleEntry) : Prop :=
     0 < (b.filing - a.filing).toInt ∨ (a.filing = b.filing ∧ a.serial < b.serial)
   ∀ (e : ScheduleEntry) (list : List ScheduleEntry),
     (∃ before after, list = before ++ after ∧ insertEntry e list = before ++ e :: after ∧
       (∀ x ∈ before, ¬ precedes e x) ∧ ∀ x, after.head? = some x → precedes e x) ∧
     (∀ base : Pos, (∀ x ∈ e :: list, (x.filing - base).toNat < 0x80000000) → (∀ x ∈ list, x.serial ≠ e.serial) →
       list.Pairwise precedes → (insertEntry e list).Pairwise precedes)) ∧
  (∀ (w : Window) (list : List Window),
    (∃ before after, list = before ++ after ∧ insertWindow w list = before ++ w :: after ∧
      (∀ x ∈ before, ¬ 0 < (x.openPos - w.openPos).toInt) ∧
      ∀ x, after.head? = some x → 0 < (x.openPos - w.openPos).toInt) ∧
    (∀ base : Pos, (∀ x ∈ w :: list, (x.openPos - base).toNat < 0x80000000) →
      list.Pairwise (fun a b => 0 ≤ (b.openPos - a.openPos).toInt) →
      (insertWindow w list).Pairwise (fun a b => 0 ≤ (b.openPos - a.openPos).toInt))) ∧
  (∀ (s : State) (l : LaneId) (it : Item), s.items.Ok → it ∈ s.items.queues[l] → it.state = .opened →
    let d := s.decide it
    let t := s.commit l it.rid
    let config := s.lanes[l].config
    let firings := d.firings.map config.commitFiring
    let used := s.schedule.positionList.length + s.schedule.timeList.length
    let raises (f : Item → Item) : Prop := ∃ u : State, t = u.raiseItem it.rid .commit ∧ u.notices = s.notices ∧
      u.items = { s.items with queues := tset s.items.queues l (s.items.queues[l].map (fun x =>
        if x.rid = it.rid then f x else x)) }
    let entry (f : CommittedFiring) (k : Fin 4) : ScheduleEntry :=
      { serial := s.schedule.nextSerial + k.val, rid := it.rid, owner := { lane := l, tag := it.tag, firing := k }
        output := match config.stations[f.station] with
          | none => 0
          | some st => st.output
        widthKind := f.widthKind, width := f.width, phase := .waiting, onPos := it.entryPos + f.fireOffset }
    (d.firings.length ≤ 4 → d.firings.length + used ≤ 64 →
      (∃ it' ∈ t.items.queues[l], it'.sansFlags = Item.sansFlags { it with
        state := .committed
        committed := some { source := d.source, index := d.index, substituted := d.substituted, firings := firings
                            confirm := d.confirm.map ConfirmSpec.commit } }) ∧
      raises (fun x => { x with
        state := .committed
        committed := some { source := d.source, index := d.index, substituted := d.substituted, firings := firings
                            confirm := d.confirm.map ConfirmSpec.commit } }) ∧
      t.schedule.positionList = ((firings.zip [0, 1, 2, 3]).map (fun p => entry p.1 p.2)).foldl
        (fun list e => insertEntry e list) s.schedule.positionList ∧
      t.schedule.positionList.length = s.schedule.positionList.length + d.firings.length ∧
      t.schedule.timeList = s.schedule.timeList ∧
      (∀ (k : Fin 4) (f : CommittedFiring), firings[k.val]? = some f → ∃ e ∈ t.schedule.positionList,
        e.rid = it.rid ∧ e.owner = { lane := l, tag := it.tag, firing := k } ∧ e.phase = .waiting ∧
        e.onPos = it.entryPos + f.fireOffset ∧ e.widthKind = f.widthKind ∧ e.width = f.width ∧
        ∀ st, config.stations[f.station] = some st → e.output = st.output) ∧
      (∀ (k : Fin 4) (f : Firing) (st : Station), d.firings[k.val]? = some f → config.stations[f.station] = some st →
        ∃ e ∈ t.schedule.positionList, e.owner = { lane := l, tag := it.tag, firing := k } ∧ e.output = st.output ∧
          e.onPos = it.entryPos + BitVec.ofInt 32 (st.offset + f.adjust.toInt)) ∧
      (d.confirm = none → t.windows = s.windows) ∧
      (∀ k, d.confirm = some k → t.windows = tset s.windows k.input (insertWindow
        { rid := it.rid, lane := l, tag := it.tag, openPos := it.entryPos + k.openOffset
          closePos := it.entryPos + k.closeOffset, expect := k.expect, phase := .pending } s.windows[k.input]))) ∧
    (used ≤ 64 → 64 < d.firings.length + used →
      (∃ it' ∈ t.items.queues[l], it'.sansFlags = Item.sansFlags { it with
        state := .committed, skipped := true
        committed := some { source := d.source, index := d.index, substituted := d.substituted, firings := []
                            confirm := none } }) ∧
      raises (fun x => { x with
        state := .committed, skipped := true
        committed := some { source := d.source, index := d.index, substituted := d.substituted, firings := []
                            confirm := none } }) ∧
      t.schedule = s.schedule ∧ t.windows = s.windows))

/-! ### Items -/

/-- R2, R7, R17, R19, R20, R107, R115: the result of an item by its priorities; at its exit point the oldest item of a
queue, and no other, leaves it and is PASSED when a firing or its confirmation is still open; otherwise its OUTCOME
trigger is offered, and its record is DONE with its result and its OUTCOME flag raised when OUTCOME notices are enabled
(what a raise does stands in AdmissionTakesTheHighestReference), and freed when they are not. The last item of a lane in
DRAIN takes the lane to OFF and makes its notice pending. That the item is DONE, with its OUTCOME raised, before the count
is reported and may end the drain is the model's reading (log 25). The completion check of a PASSED item does the same
once no firing is PENDING and its confirm result is not WAITING; it does nothing before, and nothing for an item that is
not PASSED. -/
def Obligations.ItemEndsWithItsResult : Prop :=
  (∀ it : Item, it.summary =
    if it.skipped = true then .skipped
    else if it.confirmResult = some .leak then .leak
    else if it.confirmResult = some .missed then .missed
    else if ∃ f ∈ it.firings, f.result = .conflict then .conflict
    else if ∃ f ∈ it.firings, f.result = .cut then .cut
    else if ∃ f ∈ it.firings, f.result = .suppressed then .suppressed
    else .ok) ∧
  (∀ (s : State) (it : Item) (q : Summary),
    let done : Item := { it with state := .done, result := some q }
    (s.notices.settings.outcomeOn = true → s.becomeDone it q =
      State.raiseItem { s with items := { s.items with done := s.items.done ++ [done] } } it.rid .outcome) ∧
    (s.notices.settings.outcomeOn = false → s.becomeDone it q = { s with notices := { s.notices with
      refs := s.notices.refs.filter (fun r => match r with
        | .item rid _ => rid ≠ it.rid
        | .lane _ => true)
      sent := s.notices.sent.map (fun e => if e.link = .item it.rid then { e with link := .none } else e)
      unsent := s.notices.unsent.map (fun e => if e.link = .item it.rid then { e with link := .none } else e) } })) ∧
  (∀ (s : State) (l : LaneId) (it : Item) (rest : List Item), s.items.Ok → s.items.queues[l] = it :: rest →
    let t := s.exitPoint l it.rid
    let working : Prop := (∃ f ∈ it.firings, f.result = .pending) ∨ it.confirmResult = some .waiting
    let left : State := { s with items := { s.items with queues := tset s.items.queues l rest } }
    (working → t = State.reportCount { left with items := { left.items with
      passed := s.items.passed ++ [{ it with covering := false, state := .passed }] } } l) ∧
    (¬ working → t = State.reportCount { left.becomeDone { it with covering := false } it.summary with
      agenda := s.agenda ++ [[.trigger (.outcome it.lane it.summary)]] } l) ∧
    (∀ rid, rid ≠ it.rid → s.exitPoint l rid = s) ∧
    t.items.queues[l].map Item.sansFlags = rest.map Item.sansFlags ∧
    (working → t.agenda = s.agenda ∧ t.items.done.map Item.sansFlags = s.items.done.map Item.sansFlags ∧
      t.items.passed.map Item.sansFlags =
        (s.items.passed ++ [{ it with covering := false, state := .passed }]).map Item.sansFlags) ∧
    (¬ working → t.agenda = s.agenda ++ [[.trigger (.outcome it.lane it.summary)]] ∧
      t.items.passed.map Item.sansFlags = s.items.passed.map Item.sansFlags ∧
      t.items.done.map Item.sansFlags =
        (s.items.done ++ (if s.notices.settings.outcomeOn = true then
          [{ it with covering := false, state := .done, result := some it.summary }] else [])).map Item.sansFlags) ∧
    (s.lanes[l].state = .drain → rest = [] → t.lanes[l].state = .off ∧ t.verdicts.advance[l] = [] ∧
      (t.lanes[l].noticeFlag = true ∨ t.notices.hasUnsentLane l = true))) ∧
  (∀ (s : State) (it : Item), s.items.Ok → it ∈ s.items.passed →
    let t := s.checkDone it.rid
    let working : Prop := (∃ f ∈ it.firings, f.result = .pending) ∨ it.confirmResult = some .waiting
    (working → t = s) ∧
    (¬ working → t = { State.becomeDone { s with items := { s.items with
        passed := s.items.passed.filter (fun x => x.rid ≠ it.rid) } } it it.summary with
      agenda := s.agenda ++ [[.trigger (.outcome it.lane it.summary)]] }) ∧
    (¬ working → t.agenda = s.agenda ++ [[.trigger (.outcome it.lane it.summary)]] ∧
      (∀ l : LaneId, t.items.queues[l].map Item.sansFlags = s.items.queues[l].map Item.sansFlags) ∧
      t.items.passed.map Item.sansFlags =
        (s.items.passed.filter (fun x => x.rid ≠ it.rid)).map Item.sansFlags ∧
      t.items.done.map Item.sansFlags =
        (s.items.done ++ (if s.notices.settings.outcomeOn = true then
          [{ it with state := .done, result := some it.summary }] else [])).map Item.sansFlags)) ∧
  (∀ (s : State) (rid : Nat), (∀ it ∈ s.items.passed, it.rid ≠ rid) → s.checkDone rid = s)

/-- R5, R6, R9, R10, R12, R13, R42, R102, R113: the edges at a lane's entry eye: an activation creates a record (here with
no point reached yet), overruns, is counted or is ignored; a deactivation gives the covering item its length, or clears the
entry-blanked flag. An edge is fresh by the FT of its capture (R125, R127). That the lanes as they stand at the
acceptance take the edge, also one whose run a SET_POSITION found in progress, is the model's choice (log 29). The marks
of fresh faults are the model's own: whether an edge that finds its lane just taken to FAULT, where it had no room, was
offered in RUN at that moment, so that OVERRUN joins (R112, R117), is a free value (log 32, log 2). -/
def Obligations.EntryEyeEdges : Prop :=
  ∀ (s : State) (i : InputId) (l : LaneId) (level : Level) (c : Capture), s.inputs[i].role = .entry →
    s.acceptsAs i level c → s.lanes[l].config.entryInput = some i → s.lanes[l].state ≠ .off →
    (∀ m : LaneId, m ≠ l → s.lanes[m].state ≠ .off → s.lanes[m].config.entryInput ≠ some i) →
    let lane := s.lanes[l]
    let queue := s.items.queues[l]
    let fresh : Prop := c.rd.toInt ≤ (c.ft.toNat : Int)
    let putLane (x : Lane) : State := { s.accepted i level with lanes := tset s.lanes l x }
    (level = s.inputs[i].active → lane.state = .run → fresh → queue.length < lane.config.limit → s.items.inUse < 192 →
      s.agenda = [] → s.items.Ok →
      let entry : Pos := match queue.getLast? with
        | none => c.bp
        | some it => if 0 < (it.entryPos - c.bp).toInt then it.entryPos else c.bp
      (∀ n ∈ [lane.config.d, lane.config.x, lane.config.l],
        (s.position.hw - (entry + BitVec.ofNat 32 n)).toInt < 0) →
      let created : Item :=
        { rid := s.items.nextRid, lane := l, tag := lane.nextTag, state := .opened, entryPos := entry
          entryTime := c.ts, covering := true, length := none, overlength := false
          stored := (s.verdicts.advance[l].find? (fun e => e.tag = lane.nextTag)).map
            (fun e => { index := e.index, source := .advance })
          amend := 0, committed := none, skipped := false, result := none
          entryFlag := .notDue, commitFlag := .notDue, outcomeFlag := .notDue }
      let uncovered : List Item := queue.map (fun it => { it with covering := false })
      ∃ t, exec (.acceptedTransition i) s = .next t ∧
        t.items.queues[l].map Item.sansFlags = (uncovered ++ [created]).map Item.sansFlags ∧
        t.lanes[l].sansNotice = Lane.sansNotice { lane with nextTag := lane.nextTag + 1 } ∧
        t.verdicts.advance[l] = s.verdicts.advance[l].filter (fun e => e.tag ≠ lane.nextTag)) ∧
    (level = s.inputs[i].active → lane.state = .run → fresh →
      (lane.config.limit ≤ queue.length ∨ 192 ≤ s.items.inUse) → s.agenda = [] →
      ∃ t, exec (.acceptedTransition i) s = .next t ∧ t.lanes[l].sansNotice = Lane.sansNotice { lane with
          state := .fault, causes := { CauseSet.empty with overrun := true }, first := some .overrun
          struck := some ⟨true, false⟩, untracked := min 65535 (lane.untracked + 1) } ∧ s.sameRecords t) ∧
    (level = s.inputs[i].active → lane.state = .drain ∨ (lane.state = .fault ∧ ∀ m, lane.struck = some m → m.full = false) →
      fresh → s.quiet → exec (.acceptedTransition i) s =
        .next (putLane { lane with untracked := min 65535 (lane.untracked + 1) })) ∧
    (∀ stepped : Bool, level = s.inputs[i].active → lane.state = .fault → lane.struck = some ⟨true, stepped⟩ → fresh →
      s.quiet → ∃ t, exec (.acceptedTransition i) s = .next t ∧ s.sameRecords t ∧
        t.lanes[l].sansNotice = Lane.sansNotice { lane with
          untracked := min 65535 (lane.untracked + 1)
          causes := if Config.choice s.choices % 2 = 1 then lane.causes.add .overrun else lane.causes }) ∧
    (level = s.inputs[i].active ∨ lane.blanked = false → ¬ fresh → s.quiet →
      exec (.acceptedTransition i) s = .next (s.accepted i level)) ∧
    (level ≠ s.inputs[i].active → lane.blanked = true → s.quiet →
      exec (.acceptedTransition i) s = .next (putLane { lane with blanked := false })) ∧
    (level ≠ s.inputs[i].active → lane.blanked = false → fresh → s.quiet →
      exec (.acceptedTransition i) s = .next { s.accepted i level with
        items := { s.items with queues := tset s.items.queues l (queue.map (fun it =>
          if it.covering then { it with
            covering := false
            length := some (if (c.bp - it.entryPos).toInt < 0 then 0 else c.bp - it.entryPos) }
          else it)) } })

/-- R11, R48, R93: what of a new item HW has reached already: its jam point while it covers, its decision point while
it is OPEN, the positions its entries are filed by, the open position of its PENDING window and the close event of
its OPEN one. One of the smallest offset from its entry position is taken each time, by the operation of its block,
until none is left; the exit point is taken last. So a fresh edge that creates an item leaves none of its points
behind HW untaken. The order of equal offsets is free (log 2). An edge is fresh by the FT of its capture (R125, R127);
that the lane as it stands at the acceptance takes it is the model's choice (log 29). -/
def Obligations.PointsReachedAtCreationAreTaken : Prop :=
  (∀ (s : State) (it : Item) (o : Nat) (e : Event), let c := s.lanes[it.lane].config
    let reachedBy (p : Pos) : Prop := 0 ≤ (s.position.hw - p).toInt
    ((o, e) ∈ s.duePoints it ↔
      (e = .jam it.lane it.rid ∧ o = c.l ∧ it.covering = true ∧ it.overlength = false ∧
        reachedBy (it.entryPos + BitVec.ofNat 32 c.l)) ∨
      (e = .decision it.lane it.rid ∧ o = c.d ∧ it.state = .opened ∧ reachedBy (it.entryPos + BitVec.ofNat 32 c.d)) ∨
      (∃ x ∈ s.schedule.positionList, x.rid = it.rid ∧ e = .schedulePoint x.serial ∧
        o = (x.filing - it.entryPos).toNat ∧ reachedBy x.filing) ∨
      (∃ i : InputId, ∃ w ∈ s.windows[i], w.rid = it.rid ∧
        ((e = .windowOpen i w.rid ∧ o = (w.openPos - it.entryPos).toNat ∧ w.phase = .pending ∧ reachedBy w.openPos) ∨
          (e = .windowClose i w.rid ∧ o = (w.closePos + 1 - it.entryPos).toNat ∧ w.phase = .opened ∧
            reachedBy (w.closePos + 1)))))) ∧
  (∀ (s : State) (l : LaneId) (it : Item) (n : Nat), s.items.Ok → it ∈ s.items.queues[l] →
    (∀ p ∈ s.duePoints it, ∃ p' ∈ s.duePoints it, (∀ q ∈ s.duePoints it, p'.1 ≤ q.1) ∧
      ∃ k, State.takeReached (n + 1) l it.rid s =
        State.takeReached n l it.rid (State.takeCreated { s with choices := k } p'.2)) ∧
    (s.duePoints it = [] → State.takeReached (n + 1) l it.rid s =
      if 0 ≤ (s.position.hw - (it.entryPos + BitVec.ofNat 32 s.lanes[l].config.x)).toInt then s.exitPoint l it.rid
      else s)) ∧
  (∀ (s : State) (l : LaneId) (it : Item), s.recordsOk → it ∈ s.items.queues[l] → it.state = .opened →
    (∀ e ∈ s.schedule.entries, e.rid ≠ it.rid) → (∀ i : InputId, ∀ w ∈ s.windows[i], w.rid ≠ it.rid) →
    ∀ x ∈ (State.takeReached 16 l it.rid s).items.queues[l], x.rid = it.rid →
      (State.takeReached 16 l it.rid s).duePoints x = []) ∧
  (∀ (s : State) (i : InputId) (l : LaneId) (c : Capture), s.inputs[i].role = .entry →
    s.acceptsAs i s.inputs[i].active c → s.lanes[l].config.entryInput = some i → s.lanes[l].state = .run →
    (∀ m : LaneId, m ≠ l → s.lanes[m].state ≠ .off → s.lanes[m].config.entryInput ≠ some i) →
    c.rd.toInt ≤ (c.ft.toNat : Int) → s.items.queues[l].length < s.lanes[l].config.limit →
    s.items.inUse < 192 →
    let u := s.accepted i s.inputs[i].active
    let it := u.newItem l c
    exec (.acceptedTransition i) s =
      State.done (State.takeReached 16 l it.rid ((u.addItem l it).raiseItem it.rid .entry)))

/-! ### Notices -/

/-- R163, R173: which settings SET_NOTICE refuses, and which field each byte in range is; taken, it writes them all,
and admission runs. That a confirm enable above 1 is out of range, and that the unused bits of the enables are
ignored, is the model's choice (log 18, log 19). -/
def Obligations.SetNoticeWritesTheSettings : Prop :=
  (∀ f : NoticeFields, noticeSettingsOf f = none ↔
    (∃ v ∈ [f.levelItem, f.levelLane, f.levelInput, f.levelTimer, f.levelReaction, f.levelConfirm], 3 < v.toNat) ∨
    f.window = 0 ∨ 8 < f.window.toNat ∨ f.timeout.toNat < 10 ∨ 2000 < f.timeout.toNat ∨ f.retryLimit = 0 ∨
    15 < f.retryLimit.toNat ∨ 1 < f.confirm.toNat) ∧
  (∀ (f : NoticeFields) (n : NoticeSettings), noticeSettingsOf f = some n →
    n.entryOn = f.subKinds.getLsbD 0 ∧ n.commitOn = f.subKinds.getLsbD 1 ∧ n.outcomeOn = f.subKinds.getLsbD 2 ∧
      n.inputsOn = f.inputs ∧ (∀ k : TimerId, n.timersOn.getLsbD k = f.timers.getLsbD k) ∧
      (n.confirmOn = true ↔ f.confirm = 1) ∧ f.levelItem = natByte n.levelItem ∧ f.levelLane = natByte n.levelLane ∧
      f.levelInput = natByte n.levelInput ∧ f.levelTimer = natByte n.levelTimer ∧
      f.levelReaction = natByte n.levelReaction ∧ f.levelConfirm = natByte n.levelConfirm ∧
      n.window = f.window.toNat ∧ n.timeout = f.timeout.toNat ∧ n.retryLimit = f.retryLimit.toNat) ∧
  (∀ (s : State) (seq : Byte) (f : NoticeFields), s.takesNow 0x05 seq →
    (noticeSettingsOf f = none → exec (.setNotice seq f) s = .next (s.answers 0x05 seq [3])) ∧
    (∀ n, noticeSettingsOf f = some n →
      (∃ t, exec (.setNotice seq f) s = .next t ∧ t.notices.settings = n ∧ t.repliesWith 0x05 seq [0] ∧
        s.sameRecords t ∧ (∀ l : LaneId, t.lanes[l].sansNotice = s.lanes[l].sansNotice) ∧
        (s.notices.depth ≤ 32 → t.notices.refs = [] ∨ t.notices.depth = 32) ∧
        OnlyChanges [.items, .notices, .lanes, .link] s t) ∧
      (s.notices.refs = [] → exec (.setNotice seq f) s = .next { s.answers 0x05 seq [0] with
        notices := { s.notices.endStall with settings := n } })))

/-- R7, R22, R169: an ACK_NOTICE of a number that is not outstanding changes nothing; of an outstanding one it removes
every entry up to it, sets the flag of a linked record to acknowledged for an ENTRY or COMMIT entry, frees the DONE
records that OUTCOME entries among them are linked to and no other, and restarts or stops the timer. The entries left
stand as they were, but that a freed record's link is cut (R8, R22) and that the end of STALLED has marked them (R171);
the unsent entries stand so too, and the entries that admission adds behind them come from the pending references (R163),
until none is left or the queue holds 32 entries. A flag is so unless a reference of it still waits for admission, which
R162 excludes for an entry sent. -/
def Obligations.AckNoticeRemovesEntries : Prop :=
  ∀ (s : State) (seq number : Byte), s.takesNow 0x04 seq →
    ((∀ e ∈ s.notices.sent, e.number ≠ some number) →
      exec (.ackNotice seq number) s =
        .next (s.answers 0x04 seq [0, 0, 0, natByte s.notices.sent.length])) ∧
    (∀ (k : Nat) (e : NoticeEntry), s.notices.sent[k]? = some e → e.number = some number →
      (∀ x ∈ s.notices.sent.take k, x.number ≠ some number) →
      let removed := s.notices.sent.take (k + 1)
      let left := s.notices.sent.drop (k + 1)
      let freed := removed.filter (fun x => x.kind = .outcome && (match x.link with
        | .item _ => true
        | .lane _ => false
        | .none => false))
      ∃ t, exec (.ackNotice seq number) s = .next t ∧
        t.notices.sent.map (·.number) = left.map (·.number) ∧
        (let kept (x : NoticeEntry) : NoticeEntry :=
           { x with link := if freed.any (fun y => decide (y.link = x.link)) = true then .none else x.link }
         let sent : List NoticeEntry := left.map (fun x => { kept x with resend := x.resend || s.notices.stalled })
         (∃ u : State, OnlyChanges [.items, .notices] s u ∧
           u.notices = { s.notices with
             sent := sent, unsent := s.notices.unsent.map kept, retry := 0, stalled := false
             ackTimer := if left = [] then none else some s.notices.settings.timeout
             refs := s.notices.refs.filter (fun r => match r with
               | .item rid _ => freed.all (fun y => decide (y.link ≠ .item rid))
               | .lane _ => true) } ∧
           t.notices = u.admitAll.notices ∧ t.items = u.admitAll.items ∧ t.lanes = u.admitAll.lanes) ∧
         t.notices.sent = sent ∧
         ∃ added, t.notices.unsent = s.notices.unsent.map kept ++ added ∧
           ∀ x ∈ added, x.number = none ∧ x.resend = false ∧
             ((∃ rid sub, .item rid sub ∈ s.notices.refs ∧ x.link = .item rid) ∨
               ∃ l, .lane l ∈ s.notices.refs ∧ x.link = .lane l)) ∧
        (s.notices.depth ≤ 32 → t.notices.refs = [] ∨ t.notices.depth = 32) ∧
        t.notices.retry = 0 ∧ t.notices.stalled = false ∧
        t.notices.ackTimer = (if left = [] then none else some s.notices.settings.timeout) ∧
        t.repliesWith 0x04 seq [0, natByte (k + 1), natByte freed.length, natByte left.length] ∧
        (∀ m : LaneId, t.items.queues[m].map Item.sansFlags = s.items.queues[m].map Item.sansFlags) ∧
        t.items.passed.map Item.sansFlags = s.items.passed.map Item.sansFlags ∧
        t.items.done.map Item.sansFlags =
          (s.items.done.filter (fun it => freed.all (fun x => x.link ≠ .item it.rid))).map Item.sansFlags ∧
        (∀ x ∈ freed, ∀ rid, x.link = .item rid → s.items.Ok → (∃ it ∈ s.items.done, it.rid = rid) →
          t.items.find rid = none) ∧
        (∀ x ∈ removed, ∀ rid, x.link = .item rid → ∀ it ∈ t.items.all, it.rid = rid →
          (x.kind = .entry → .item rid .entry ∉ s.notices.refs → it.entryFlag = .acknowledged) ∧
          (x.kind = .commit → .item rid .commit ∉ s.notices.refs → it.commitFlag = .acknowledged)) ∧
        (∀ l : LaneId, t.lanes[l].sansNotice = s.lanes[l].sansNotice) ∧ t.link.last = s.link.last ∧
        OnlyChanges [.items, .notices, .lanes, .link] s t)

/-- R7, R161, R163, R164, R167, R168, R171: NOTICE_SEND on a free line: the oldest marked entry again, else within W the
first unsent entry of the highest level with the next number, a LANE entry built now, the flag of a linked item record
becoming sent; none while STALLED. NOTICE_ADMISSION goes on until the pending list is empty or the queue holds 32
entries. What the two rows do when they are sent alone is the model's choice (log 1). -/
def Obligations.NoticesAreSentAndAdmitted : Prop :=
  (∀ s : State, s.link.transmitter = .idle → s.link.replyWaits = false → s.agenda = [] →
    (s.notices.hasFrame = false → exec .noticeSend s = .next s) ∧
    (s.notices.stalled = true → exec .noticeSend s = .next s) ∧
    (∀ before e after, s.notices.stalled = false → s.notices.sent = before ++ e :: after → e.resend = true →
      (∀ x ∈ before, x.resend = false) →
      exec .noticeSend s = .next { s with
        notices := { s.notices with sent := before ++ { e with resend := false } :: after }
        link := { s.link with transmitter := .notice e.frame } }) ∧
    (∀ before e after, s.notices.stalled = false → (∀ x ∈ s.notices.sent, x.resend = false) →
      s.notices.sent.length < s.notices.settings.window → s.notices.unsent = before ++ e :: after →
      (∀ x ∈ before, s.notices.settings.level x.kind.class < s.notices.settings.level e.kind.class) →
      (∀ x ∈ after, s.notices.settings.level x.kind.class ≤ s.notices.settings.level e.kind.class) →
      let contents : List Byte := match e.contents, e.link with
        | some bytes, _ => bytes
        | none, .lane l => [natByte l, s.lanes[l].state.code, s.lanes[l].causes.code, firstCauseCode s.lanes[l].first] ++
            natHalf s.lanes[l].untracked ++ halfBytes s.lanes[l].nextTag ++
            [natByte s.items.queues[l].length, boolCode (s.holdCondition l)]
        | none, _ => []
      ∃ t, exec .noticeSend s = .next t ∧
        t.notices = { s.notices with
          unsent := before ++ after
          sent := s.notices.sent ++ [{ e with number := some s.notices.nextNumber, contents := some contents }]
          nextNumber := s.notices.nextNumber + 1
          ackTimer := if s.notices.sent = [] then some s.notices.settings.timeout else s.notices.ackTimer } ∧
        t.link = { s.link with
          transmitter := .notice { kind := e.kind.code, seq := s.notices.nextNumber, payload := contents } } ∧
        (∀ rid, e.link = .item rid → t.items = match e.kind with
          | .entry => (s.mapRecord rid (fun it => { it with entryFlag := .sent })).items
          | .commit => (s.mapRecord rid (fun it => { it with commitFlag := .sent })).items
          | .outcome => (s.mapRecord rid (fun it => { it with outcomeFlag := .sent })).items
          | _ => s.items) ∧
        ((∀ rid, e.link ≠ .item rid) → t.items = s.items) ∧
        s.sameRecords t ∧ OnlyChanges [.notices, .link, .items] s t)) ∧
  (∀ s : State, s.agenda = [] → s.link.transmitter ≠ .idle → s.notices.depth ≤ 32 →
    ∃ t, exec .noticeAdmission s = .next t ∧ (t.notices.refs = [] ∨ t.notices.depth = 32) ∧
      s.sameRecords t ∧ (∀ l : LaneId, t.lanes[l].sansNotice = s.lanes[l].sansNotice) ∧
      t.notices.sent = s.notices.sent ∧ (s.notices.refs = [] → t = s) ∧
      OnlyChanges [.items, .notices, .lanes] s t)

/-- R7, R10, R15, R20, R162 to R164, R166, R172: admission takes the reference of the highest class level, the earliest
among equals, and goes on until the list is empty or the reference needs a slot and there is none. A disabled ENTRY or COMMIT
reference is skipped without a slot and its flag becomes not due; any other item reference becomes an entry with the
contents of its record as it stands, and its flag queued; a lane reference becomes an entry without contents, and the
lane's flag clears. A lane's flag that becomes pending is absorbed by an unsent LANE entry, stays as it is when it
was pending, and else joins the list. An item's flag that becomes pending joins the end of the list, and admission runs
below 32 entries: ENTRY at creation (PointsReachedAtCreationAreTaken), COMMIT at commit (CommitFixesTheDisposition),
OUTCOME at DONE (ItemEndsWithItsResult, AbandonEndsEveryItem). A discard of a lane runs admission when it has freed
slots, and not otherwise. -/
def Obligations.AdmissionTakesTheHighestReference : Prop :=
  (∀ n : Notices, (n.nextRef = none ↔ n.refs = []) ∧
    ∀ r, n.nextRef = some r → ∃ before after, n.refs = before ++ r :: after ∧
      (∀ x ∈ before, n.settings.level x.class < n.settings.level r.class) ∧
      (∀ x ∈ after, n.settings.level x.class ≤ n.settings.level r.class)) ∧
  (∀ s : State, (s.notices.refs = [] → s.admitAll = s) ∧
    ∀ r, s.notices.nextRef = some r →
      (s.admitRef r = none → s.admitAll = s) ∧ (∀ t, s.admitRef r = some t → s.admitAll = t.admitAll)) ∧
  (∀ (s : State) (rid : Nat) (sub : SubKind),
    let r : NoticeRef := .item rid sub
    let skipped : Prop := (sub = .entry ∧ s.notices.settings.entryOn = false) ∨
      (sub = .commit ∧ s.notices.settings.commitOn = false)
    let flagged (f : NoticeFlag) : State := s.mapRecord rid (fun it => match sub with
      | .entry => { it with entryFlag := f }
      | .commit => { it with commitFlag := f }
      | .outcome => { it with outcomeFlag := f })
    (let raised : State := { flagged .pending with notices := { s.notices with refs := s.notices.refs ++ [r] } }
     s.raiseItem rid sub = if s.notices.depth < 32 then raised.admitAll else raised) ∧
    (skipped → s.admitRef r = some { flagged .notDue with
      notices := { s.notices with refs := s.notices.refs.erase r } }) ∧
    (¬ skipped → 32 ≤ s.notices.depth → s.admitRef r = none) ∧
    (¬ skipped → s.notices.depth < 32 → ∀ it, s.items.find rid = some it →
      s.admitRef r = some { flagged .queued with
        notices := { s.notices with
          refs := s.notices.refs.erase r
          unsent := s.notices.unsent ++
            [{ kind := match sub with
                 | .entry => .entry
                 | .commit => .commit
                 | .outcome => .outcome
               contents := some (it.contents sub), link := .item rid, number := none, resend := false }] } })) ∧
  (∀ it : Item,
    let stored : List Byte := match it.stored with
      | none => [0xFF, 0xFF]
      | some v => [natByte v.index, v.source.code]
    it.contents .entry =
      natByte it.lane :: (halfBytes it.tag ++ wordBytes it.entryPos ++ wordBytes it.entryTime ++ stored) ∧
    (∀ c, it.committed = some c →
      it.contents .commit = natByte it.lane :: (halfBytes it.tag ++
        [c.source.code, natByte c.index, flagByte [c.substituted, it.skipped]] ++ stored ++
        [natByte it.amend, natByte c.firings.length, boolCode c.confirm.isSome] ++
        c.firings.flatMap (fun f => natByte f.station :: f.widthKind.code ::
          (wordBytes f.fireOffset ++ halfBytes f.width)) ++
        (match c.confirm with
          | none => []
          | some k => natByte k.input :: k.expect.code :: (wordBytes k.openOffset ++ wordBytes k.closeOffset)))) ∧
    (∀ q, it.result = some q → it.contents .outcome = natByte it.lane :: (halfBytes it.tag ++ [q.code] ++
      wordBytes it.entryPos ++ wordBytes (it.length.getD 0xFFFFFFFF) ++
      (match it.committed with
        | none => [flagByte [it.overlength, false, it.skipped, false], 0xFF, 0xFF, natByte it.amend, 0, 0]
        | some c => [flagByte [it.overlength, c.substituted, it.skipped, true], c.source.code, natByte c.index,
            natByte it.amend, confirmResultCode (c.confirm.map (·.result)), natByte c.firings.length] ++
            c.firings.map (·.result.code))))) ∧
  (∀ (s : State) (l : LaneId),
    let cleared : State := { s with lanes := tset s.lanes l { s.lanes[l] with noticeFlag := false } }
    let raised : State := { s with
      lanes := tset s.lanes l { s.lanes[l] with noticeFlag := true }
      notices := { s.notices with refs := s.notices.refs ++ [.lane l] } }
    let absorbs : Prop := ∃ e ∈ s.notices.unsent, e.kind = .lane ∧ e.link = .lane l
    (32 ≤ s.notices.depth → s.admitRef (.lane l) = none) ∧
    (s.notices.depth < 32 → s.admitRef (.lane l) = some { cleared with
      notices := { s.notices with
        refs := s.notices.refs.erase (.lane l)
        unsent := s.notices.unsent ++
          [{ kind := .lane, contents := none, link := .lane l, number := none, resend := false }] } }) ∧
    (absorbs → s.raiseLane l = cleared) ∧
    (¬ absorbs → s.lanes[l].noticeFlag = true → s.raiseLane l = s) ∧
    (¬ absorbs → s.lanes[l].noticeFlag = false →
      s.raiseLane l = if s.notices.depth < 32 then raised.admitAll else raised) ∧
    (s.discardLane l = if (s.discardAll l).notices.depth < s.notices.depth then (s.discardAll l).admitAll
      else s.discardAll l))

/-! ### Configurations and invariants -/

/-- R186: what GET_CONFIG returns, sent back with the SET request, is the same configuration, for each of the eight
kinds: no field of a record is lost on the line. The lane byte of an output is as it was sent (log 17). R190, R191:
the codes of the enumerated fields that requests, replies and notices carry, those of an item's record aside
(ItemReadsReturnRecords). -/
def Obligations.ConfigurationsReadBack : Prop :=
  ([LaneState.off, .run, .drain, .fault].map (·.code) = [0, 1, 2, 3] ∧
    [Edge.activation, .deactivation].map (·.code) = [0, 1] ∧
    [OutputRole.unused, .actuator, .general, .hold].map (·.code) = [0, 1, 2, 3] ∧
    [Polarity.activeHigh, .activeLow].map (·.code) = [0, 1] ∧
    [InputRole.unused, .entry, .confirm, .inhibit, .general].map (·.code) = [0, 1, 2, 3, 4] ∧
    [Level.low, .high].map levelCode = [0, 1] ∧ [false, true].map boolCode = [0, 1] ∧
    [EdgeSelect.activate, .deactivate, .both].map (·.code) = [0, 1, 2] ∧
    [EncoderMode.quad4, .quad1, .step, .count].map (·.code) = [0, 1, 2, 3] ∧
    [TimerMode.oneShot, .periodic].map (·.code) = [0, 1] ∧ [ReactionMode.repeating, .once].map (·.code) = [0, 1] ∧
    [none, some Cause.overrun, some .jam, some .reverse, some .encoder, some .reaction].map firstCauseCode =
      [0xFF, 0, 1, 2, 3, 4] ∧
    [NoticeKind.entry, .commit, .outcome, .lane, .input, .timer, .reaction, .stray].map (·.code) =
      [0x80, 0x81, 0x82, 0x83, 0x84, 0x85, 0x86, 0x87]) ∧
  (∀ c : CauseSet, c.code = flagByte [c.overrun, c.jam, c.reverse, c.encoder, c.reaction]) ∧
  (∀ (f : LaneFields) (c : LaneConfig) (lane : Byte), laneConfigOf f = some c →
    laneConfigOf (laneFieldsOf (lane :: c.bytes)) = some c) ∧
  (∀ (f : NoticeFields) (n : NoticeSettings), noticeSettingsOf f = some n →
    noticeSettingsOf (noticeFieldsOf n.bytes) = some n) ∧
  (∀ (k p r : Byte) (t : Trigger), triggerOf k p r = some t →
    triggerOf (byteAt t.bytes 0) (byteAt t.bytes 1) (byteAt t.bytes 2) = some t) ∧
  (∀ (k p : Byte) (w : Half) (a : Action), actionOf k p w = some a →
    actionOf (byteAt a.bytes 0) (byteAt a.bytes 1) (halfAt a.bytes 2) = some a) ∧
  (∀ (fs : List FiringField) (c : Option ConfirmField) (d : Disposition) (index : Byte), dispositionOf fs c = some d →
    let p := index :: d.bytes
    let n := (byteAt p 1).toNat
    p.length = dispositionLength (byteAt p 1) (byteAt p 2) ∧
      dispositionOf (firingFieldsOf p 3 n) (if byteAt p 2 = 0 then none else some (confirmFieldOf p (3 + 6 * n))) =
        some d) ∧
  (∀ o : Output, o.configBytes.length = 3 ∧ outputRoleOf (byteAt o.configBytes 0) = some o.role ∧
    polarityOf (byteAt o.configBytes 1) = some o.polarity ∧ byteAt o.configBytes 2 = o.lane) ∧
  (∀ x : Input, x.Ok → x.configBytes.length = 6 ∧ inputRoleOf (byteAt x.configBytes 0) = some x.role ∧
    levelOf (byteAt x.configBytes 1) = some x.active ∧
    levelOf (byteAt x.configBytes 2) = some (if x.filterOn = true then .high else .low) ∧
    finOf 8 (byteAt x.configBytes 3) = some x.period ∧ (byteAt x.configBytes 4).toNat = x.stable ∧
    edgeSelectOf (byteAt x.configBytes 5) = some x.edge) ∧
  (∀ p : Position, p.configBytes.length = 4 ∧ encoderModeOf (byteAt p.configBytes 0) = some p.mode ∧
    halfAt p.configBytes 1 = p.rl ∧ byteAt p.configBytes 3 = p.ft) ∧
  (∀ x : Timer, x.Ok → x.configBytes.length = 3 ∧ (halfAt x.configBytes 0).toNat = x.period ∧
    timerModeOf (byteAt x.configBytes 2) = some x.mode) ∧
  (∀ r : Reaction, r.configBytes.length = 10 ∧
    triggerOf (byteAt r.configBytes 0) (byteAt r.configBytes 1) (byteAt r.configBytes 2) = some r.trigger ∧
    ((∀ o : OutputId, r.action ≠ .outPulse o 0) →
      actionOf (byteAt r.configBytes 3) (byteAt r.configBytes 4) (halfAt r.configBytes 5) = some r.action) ∧
    reactionModeOf (byteAt r.configBytes 7) = some r.mode ∧ reactionSetOf (halfAt r.configBytes 8) = some r.chain)

/-- R155, R124: the events of one moment come to an end: every command that begins with none left over, at most 192 records,
64 schedule entries and 192 windows leaves none over. -/
def Obligations.EveryMomentEnds : Prop :=
  ∀ (c : Instr) (s t : State), s.agenda = [] → s.items.inUse ≤ 192 →
    s.schedule.positionList.length + s.schedule.timeList.length ≤ 64 →
    (allInputs.map (fun i => s.windows[i].length)).sum ≤ 192 → exec c s = .next t → t.agenda = []

/-- The invariants hold after power-on reset, whose values are the spec's, field by field: R25, R29, R41, R64 no record, no
disposition, no verdict and no entry; R70 every output; R98, R118 every lane; R119, R132 the Position Unit; R133 every
input; R145 every timer; R151 every reaction; R160, R172 the Notice Queue; R188 the Link Controller. These are also the
values to which PowerOnResetRestoresEveryBlock and SoftResetRestoresEveryBlock return a block. What the spec gives no
value for, the levels at the pins, the accepted level before the first comparison, an output's lane byte and the straps,
is the model's choice (log 8, log 9, log 10, log 17, log 21), and so are its own marks and serial numbers (log 2,
log 3, log 11, log 12, log 16, log 32). -/
def Obligations.InvariantsHoldAtReset : Prop :=
  (State.reset.dataOk ∧ State.reset.lineOk ∧ State.reset.recordsOk ∧ State.reset.quiet ∧
    ∀ o : OutputId, State.reset.pinLevel o = .low) ∧
  (State.reset.items = { queues := Vector.replicate 4 [], done := [], passed := [], nextRid := 0 } ∧
    State.reset.verdicts = Verdicts.reset ∧
    State.reset.schedule = { positionList := [], timeList := [], nextSerial := 0 } ∧
    State.reset.windows = Vector.replicate 16 [] ∧ State.reset.outputs = Vector.replicate 16 Output.reset ∧
    State.reset.lanes = Vector.replicate 4 Lane.reset ∧ State.reset.position = Position.reset ∧
    State.reset.inputs = Vector.replicate 16 Input.reset ∧ State.reset.timers = Vector.replicate 4 Timer.reset ∧
    State.reset.reactions = Vector.replicate 12 Reaction.reset ∧ State.reset.notices = Notices.reset ∧
    State.reset.link = Link.reset ∧ State.reset.pins = Vector.replicate 16 .low ∧ State.reset.choices = 0 ∧
    State.reset.agenda = [] ∧ State.reset.pending = []) ∧
  Verdicts.reset =
    { dispositions := Vector.replicate 16 { firings := [], confirm := none }, advance := Vector.replicate 4 [] } ∧
  Output.reset =
    { role := .unused, polarity := .activeHigh, lane := 0, holders := [], latch := false, pulse := none } ∧
  Lane.reset =
    { config :=
        { entryInput := none, d := 0, x := 0, l := 0, stations := Vector.replicate 4 none, default := 0, limit := 48
          holdOutput := none, holdMark := 0 }
      state := .off
      causes := { overrun := false, jam := false, reverse := false, encoder := false, reaction := false }
      first := none, blanked := false, untracked := 0, nextTag := 0, noticeFlag := false, struck := none } ∧
  Position.reset =
    { bp := 0, hw := 0, direction := .none, mode := .quad4, rl := 256, ft := 4, encoderFault := false
      ea := .low, eb := .low, eaRun := 0, ebRun := 0, eaPin := .low, ebPin := .low, ts := 0, subMs := 0
      tickDue := false, timersTaken := false } ∧
  Input.reset =
    { role := .unused, active := .high, filterOn := false, period := 0, stable := 4, edge := .activate
      accepted := .low, awaiting := true, mark := .due, run := none } ∧
  Timer.reset = { period := 1000, mode := .oneShot, running := false, remaining := 0 } ∧
  Reaction.reset = { trigger := .none, action := .none, mode := .repeating, chain := 0, enabled := false } ∧
  NoticeSettings.reset =
    { entryOn := true, commitOn := true, outcomeOn := true, inputsOn := 0, timersOn := 0, confirmOn := true
      levelItem := 2, levelLane := 3, levelInput := 1, levelTimer := 1, levelReaction := 1, levelConfirm := 1
      window := 4, timeout := 100, retryLimit := 5 } ∧
  Notices.reset =
    { settings := NoticeSettings.reset, sent := [], unsent := [], refs := []
      missed := { input := 0, timer := 0, reaction := 0, confirm := 0 }
      nextNumber := 0, ackTimer := none, ackEarly := false, retry := 0, stalled := false } ∧
  Link.reset =
    { baud := .b115200, receiver := .hunting, requests := [], slot := none, last := none, transmitter := .idle
      badFrames := 0, overruns := 0 }

/-- R72, R119, R126, R134, R145, R151: every step keeps the registers and settings of the blocks in their ranges: HW −
BP is never negative, no lane is in RUN or DRAIN while it exceeds the reverse limit, but for one to which a REVERSE of
the moment is still to be taken (none between commands, EveryMomentEnds), a channel has shown a level that is not
accepted at two samples at most, a stopped timer is at 0, a reaction without a trigger is disabled, a run has fewer
than the stable count's samples, a hold set has at most 4 members. -/
def Obligations.StepsKeepTheRegisters : Prop :=
  ∀ s t : State, step s = .next t → s.dataOk → t.dataOk

/-- R161, R165, R168, R170, R178 to R184: every step keeps the notice queue and the line within their bounds. -/
def Obligations.StepsKeepTheLine : Prop :=
  ∀ s t : State, step s = .next t → s.lineOk → t.lineOk

/-- R1, R2, R29, R41, R51, R108: every step keeps the records, the entries and the verdict lists within their bounds, and
each item queue in the order of R2: tags rise by exactly 1, up to the one before the lane's next tag, entry positions
do not decrease, and no item but the newest is covering. -/
def Obligations.StepsKeepTheRecords : Prop :=
  ∀ s t : State, step s = .next t → s.recordsOk → t.recordsOk

end
end

