-- ==== Sys2Proof/Laws/Bytes.lean ====
section
/-! SUPPORT. Multi-byte fields written and read back, and bytes that name things. -/

namespace Sys2Proof.Machine

/-- The two bytes of a 16-bit field, joined. -/
@[simp] theorem half_join (h : Half) : h.extractLsb' 8 8 ++ h.extractLsb' 0 8 = h := by
  apply BitVec.eq_of_getLsbD_eq
  intro i hi
  simp only [BitVec.getLsbD_append, BitVec.getLsbD_extractLsb']
  by_cases h1 : i < 8
  · simp [h1]
  · have : i - 8 < 8 := by omega
    have e : 8 + (i - 8) = i := by omega
    simp [h1, this, e]

/-- The four bytes of a 32-bit field, joined. -/
@[simp] theorem word_join (w : Pos) :
    w.extractLsb' 24 8 ++ (w.extractLsb' 16 8 ++ (w.extractLsb' 8 8 ++ w.extractLsb' 0 8)) = w := by
  apply BitVec.eq_of_getLsbD_eq
  intro i hi
  simp only [BitVec.getLsbD_append, BitVec.getLsbD_extractLsb']
  by_cases h1 : i < 8
  · have a : i < 16 := by omega
    have b : i < 24 := by omega
    simp [h1, a, b]
  · by_cases h2 : i < 16
    · have b : i < 24 := by omega
      have c : i - 8 < 8 := by omega
      have e : 8 + (i - 8) = i := by omega
      simp [h1, h2, b, c, e]
    · by_cases h3 : i < 24
      · have c : i - 16 < 8 := by omega
        have e : 16 + (i - 16) = i := by omega
        simp [h2, h3, c, e]
      · have c : i - 24 < 8 := by omega
        have e : 24 + (i - 24) = i := by omega
        simp [h3, c, e]

/-- The number that names a thing, sent as a byte and read back. -/
theorem finOf_natByte {n : Nat} (i : Fin n) (h : n ≤ 256) : finOf n (natByte i) = some i := by
  have : (natByte i).toNat = i.val := by
    simp only [natByte, BitVec.toNat_ofNat]
    exact Nat.mod_eq_of_lt (by have := i.isLt; omega)
  unfold finOf
  simp [this]

/-- A byte in range names what its value says. -/
theorem finOf_some {n : Nat} {b : Byte} (h : b.toNat < n) : finOf n b = some ⟨b.toNat, h⟩ := by
  simp [finOf, h]

/-- A byte out of range names nothing. -/
theorem finOf_none {n : Nat} {b : Byte} (h : n ≤ b.toNat) : finOf n b = none := by
  simp [finOf, Nat.not_lt.mpr h]

/-- What `finOf` finds has the byte's value. -/
theorem finOf_eq_some {n : Nat} {b : Byte} {i : Fin n} (h : finOf n b = some i) : i.val = b.toNat := by
  unfold finOf at h
  split at h
  · cases h; rfl
  · cases h

@[simp] theorem byteAt_cons_zero (b : Byte) (p : List Byte) : byteAt (b :: p) 0 = b := rfl

@[simp] theorem byteAt_cons_succ (b : Byte) (p : List Byte) (i : Nat) : byteAt (b :: p) (i + 1) = byteAt p i := rfl

end Sys2Proof.Machine
end

