-- ==== Sys2Proof/Laws/State.lean ====
section
/-! SUPPORT. The tables' reads and writes, and one lemma per field for each plain update of the state: each says what the
update leaves alone and, where it is short, what it writes. -/

namespace Sys2Proof

/-! ### Tables -/

/-- The row that was set. -/
@[simp] theorem tset_get_self {α : Type} {n : Nat} (v : Vector α n) (i : Fin n) (x : α) : (tset v i x)[i] = x := by
  simp [tset]

/-- A row that was not set. -/
theorem tset_get_ne {α : Type} {n : Nat} (v : Vector α n) (i j : Fin n) (x : α) (h : i ≠ j) : (tset v i x)[j] = v[j] := by
  have : i.val ≠ j.val := fun e => h (Fin.ext e)
  simp [tset, this]

/-- Any row after a row was set. -/
theorem tset_get {α : Type} {n : Nat} (v : Vector α n) (i j : Fin n) (x : α) :
    (tset v i x)[j] = if i = j then x else v[j] := by
  by_cases h : i = j
  · subst h; rw [if_pos rfl, tset_get_self]
  · rw [if_neg h, tset_get_ne v i j x h]

/-- A row set to what it holds. -/
@[simp] theorem tset_same {α : Type} {n : Nat} (v : Vector α n) (i : Fin n) : tset v i v[i] = v := by
  simp [tset]

/-- A row set twice. -/
@[simp] theorem tset_tset {α : Type} {n : Nat} (v : Vector α n) (i : Fin n) (x y : α) :
    tset (tset v i x) i y = tset v i y := by
  apply Vector.ext
  intro k hk
  by_cases h : i.val = k <;> simp [tset, h]

/-- Any row of a table through a function. -/
@[simp] theorem tmap_get {α β : Type} {n : Nat} (f : α → β) (v : Vector α n) (i : Fin n) : (tmap f v)[i] = f v[i] := by
  simp [tmap]

/-- A row of a table of equal rows. -/
@[simp] theorem replicate_get {α : Type} {n : Nat} (x : α) (i : Fin n) : (Vector.replicate n x)[i] = x := by
  simp

end Sys2Proof

namespace Sys2Proof.Machine

/-! ### mapLane -/

@[simp] theorem mapLane_items (s : State) (l : LaneId) (f : Lane → Lane) : (s.mapLane l f).items = s.items := rfl

@[simp] theorem mapLane_verdicts (s : State) (l : LaneId) (f : Lane → Lane) : (s.mapLane l f).verdicts = s.verdicts := rfl

@[simp] theorem mapLane_schedule (s : State) (l : LaneId) (f : Lane → Lane) : (s.mapLane l f).schedule = s.schedule := rfl

@[simp] theorem mapLane_outputs (s : State) (l : LaneId) (f : Lane → Lane) : (s.mapLane l f).outputs = s.outputs := rfl

@[simp] theorem mapLane_windows (s : State) (l : LaneId) (f : Lane → Lane) : (s.mapLane l f).windows = s.windows := rfl

@[simp] theorem mapLane_lanes (s : State) (l : LaneId) (f : Lane → Lane) : (s.mapLane l f).lanes = tset s.lanes l (f s.lanes[l]) := rfl

@[simp] theorem mapLane_position (s : State) (l : LaneId) (f : Lane → Lane) : (s.mapLane l f).position = s.position := rfl

@[simp] theorem mapLane_inputs (s : State) (l : LaneId) (f : Lane → Lane) : (s.mapLane l f).inputs = s.inputs := rfl

@[simp] theorem mapLane_timers (s : State) (l : LaneId) (f : Lane → Lane) : (s.mapLane l f).timers = s.timers := rfl

@[simp] theorem mapLane_reactions (s : State) (l : LaneId) (f : Lane → Lane) : (s.mapLane l f).reactions = s.reactions := rfl

@[simp] theorem mapLane_notices (s : State) (l : LaneId) (f : Lane → Lane) : (s.mapLane l f).notices = s.notices := rfl

@[simp] theorem mapLane_link (s : State) (l : LaneId) (f : Lane → Lane) : (s.mapLane l f).link = s.link := rfl

@[simp] theorem mapLane_pins (s : State) (l : LaneId) (f : Lane → Lane) : (s.mapLane l f).pins = s.pins := rfl

@[simp] theorem mapLane_choices (s : State) (l : LaneId) (f : Lane → Lane) : (s.mapLane l f).choices = s.choices := rfl

@[simp] theorem mapLane_agenda (s : State) (l : LaneId) (f : Lane → Lane) : (s.mapLane l f).agenda = s.agenda := rfl

@[simp] theorem mapLane_pending (s : State) (l : LaneId) (f : Lane → Lane) : (s.mapLane l f).pending = s.pending := rfl

/-! ### mapOutput -/

@[simp] theorem mapOutput_items (s : State) (o : OutputId) (f : Output → Output) : (s.mapOutput o f).items = s.items := rfl

@[simp] theorem mapOutput_verdicts (s : State) (o : OutputId) (f : Output → Output) : (s.mapOutput o f).verdicts = s.verdicts := rfl

@[simp] theorem mapOutput_schedule (s : State) (o : OutputId) (f : Output → Output) : (s.mapOutput o f).schedule = s.schedule := rfl

@[simp] theorem mapOutput_outputs (s : State) (o : OutputId) (f : Output → Output) : (s.mapOutput o f).outputs = tset s.outputs o (f s.outputs[o]) := rfl

@[simp] theorem mapOutput_windows (s : State) (o : OutputId) (f : Output → Output) : (s.mapOutput o f).windows = s.windows := rfl

@[simp] theorem mapOutput_lanes (s : State) (o : OutputId) (f : Output → Output) : (s.mapOutput o f).lanes = s.lanes := rfl

@[simp] theorem mapOutput_position (s : State) (o : OutputId) (f : Output → Output) : (s.mapOutput o f).position = s.position := rfl

@[simp] theorem mapOutput_inputs (s : State) (o : OutputId) (f : Output → Output) : (s.mapOutput o f).inputs = s.inputs := rfl

@[simp] theorem mapOutput_timers (s : State) (o : OutputId) (f : Output → Output) : (s.mapOutput o f).timers = s.timers := rfl

@[simp] theorem mapOutput_reactions (s : State) (o : OutputId) (f : Output → Output) : (s.mapOutput o f).reactions = s.reactions := rfl

@[simp] theorem mapOutput_notices (s : State) (o : OutputId) (f : Output → Output) : (s.mapOutput o f).notices = s.notices := rfl

@[simp] theorem mapOutput_link (s : State) (o : OutputId) (f : Output → Output) : (s.mapOutput o f).link = s.link := rfl

@[simp] theorem mapOutput_pins (s : State) (o : OutputId) (f : Output → Output) : (s.mapOutput o f).pins = s.pins := rfl

@[simp] theorem mapOutput_choices (s : State) (o : OutputId) (f : Output → Output) : (s.mapOutput o f).choices = s.choices := rfl

@[simp] theorem mapOutput_agenda (s : State) (o : OutputId) (f : Output → Output) : (s.mapOutput o f).agenda = s.agenda := rfl

@[simp] theorem mapOutput_pending (s : State) (o : OutputId) (f : Output → Output) : (s.mapOutput o f).pending = s.pending := rfl

/-! ### mapInput -/

@[simp] theorem mapInput_items (s : State) (i : InputId) (f : Input → Input) : (s.mapInput i f).items = s.items := rfl

@[simp] theorem mapInput_verdicts (s : State) (i : InputId) (f : Input → Input) : (s.mapInput i f).verdicts = s.verdicts := rfl

@[simp] theorem mapInput_schedule (s : State) (i : InputId) (f : Input → Input) : (s.mapInput i f).schedule = s.schedule := rfl

@[simp] theorem mapInput_outputs (s : State) (i : InputId) (f : Input → Input) : (s.mapInput i f).outputs = s.outputs := rfl

@[simp] theorem mapInput_windows (s : State) (i : InputId) (f : Input → Input) : (s.mapInput i f).windows = s.windows := rfl

@[simp] theorem mapInput_lanes (s : State) (i : InputId) (f : Input → Input) : (s.mapInput i f).lanes = s.lanes := rfl

@[simp] theorem mapInput_position (s : State) (i : InputId) (f : Input → Input) : (s.mapInput i f).position = s.position := rfl

@[simp] theorem mapInput_inputs (s : State) (i : InputId) (f : Input → Input) : (s.mapInput i f).inputs = tset s.inputs i (f s.inputs[i]) := rfl

@[simp] theorem mapInput_timers (s : State) (i : InputId) (f : Input → Input) : (s.mapInput i f).timers = s.timers := rfl

@[simp] theorem mapInput_reactions (s : State) (i : InputId) (f : Input → Input) : (s.mapInput i f).reactions = s.reactions := rfl

@[simp] theorem mapInput_notices (s : State) (i : InputId) (f : Input → Input) : (s.mapInput i f).notices = s.notices := rfl

@[simp] theorem mapInput_link (s : State) (i : InputId) (f : Input → Input) : (s.mapInput i f).link = s.link := rfl

@[simp] theorem mapInput_pins (s : State) (i : InputId) (f : Input → Input) : (s.mapInput i f).pins = s.pins := rfl

@[simp] theorem mapInput_choices (s : State) (i : InputId) (f : Input → Input) : (s.mapInput i f).choices = s.choices := rfl

@[simp] theorem mapInput_agenda (s : State) (i : InputId) (f : Input → Input) : (s.mapInput i f).agenda = s.agenda := rfl

@[simp] theorem mapInput_pending (s : State) (i : InputId) (f : Input → Input) : (s.mapInput i f).pending = s.pending := rfl

/-! ### mapTimer -/

@[simp] theorem mapTimer_items (s : State) (t : TimerId) (f : Timer → Timer) : (s.mapTimer t f).items = s.items := rfl

@[simp] theorem mapTimer_verdicts (s : State) (t : TimerId) (f : Timer → Timer) : (s.mapTimer t f).verdicts = s.verdicts := rfl

@[simp] theorem mapTimer_schedule (s : State) (t : TimerId) (f : Timer → Timer) : (s.mapTimer t f).schedule = s.schedule := rfl

@[simp] theorem mapTimer_outputs (s : State) (t : TimerId) (f : Timer → Timer) : (s.mapTimer t f).outputs = s.outputs := rfl

@[simp] theorem mapTimer_windows (s : State) (t : TimerId) (f : Timer → Timer) : (s.mapTimer t f).windows = s.windows := rfl

@[simp] theorem mapTimer_lanes (s : State) (t : TimerId) (f : Timer → Timer) : (s.mapTimer t f).lanes = s.lanes := rfl

@[simp] theorem mapTimer_position (s : State) (t : TimerId) (f : Timer → Timer) : (s.mapTimer t f).position = s.position := rfl

@[simp] theorem mapTimer_inputs (s : State) (t : TimerId) (f : Timer → Timer) : (s.mapTimer t f).inputs = s.inputs := rfl

@[simp] theorem mapTimer_timers (s : State) (t : TimerId) (f : Timer → Timer) : (s.mapTimer t f).timers = tset s.timers t (f s.timers[t]) := rfl

@[simp] theorem mapTimer_reactions (s : State) (t : TimerId) (f : Timer → Timer) : (s.mapTimer t f).reactions = s.reactions := rfl

@[simp] theorem mapTimer_notices (s : State) (t : TimerId) (f : Timer → Timer) : (s.mapTimer t f).notices = s.notices := rfl

@[simp] theorem mapTimer_link (s : State) (t : TimerId) (f : Timer → Timer) : (s.mapTimer t f).link = s.link := rfl

@[simp] theorem mapTimer_pins (s : State) (t : TimerId) (f : Timer → Timer) : (s.mapTimer t f).pins = s.pins := rfl

@[simp] theorem mapTimer_choices (s : State) (t : TimerId) (f : Timer → Timer) : (s.mapTimer t f).choices = s.choices := rfl

@[simp] theorem mapTimer_agenda (s : State) (t : TimerId) (f : Timer → Timer) : (s.mapTimer t f).agenda = s.agenda := rfl

@[simp] theorem mapTimer_pending (s : State) (t : TimerId) (f : Timer → Timer) : (s.mapTimer t f).pending = s.pending := rfl

/-! ### mapReaction -/

@[simp] theorem mapReaction_items (s : State) (r : ReactionId) (f : Reaction → Reaction) : (s.mapReaction r f).items = s.items := rfl

@[simp] theorem mapReaction_verdicts (s : State) (r : ReactionId) (f : Reaction → Reaction) : (s.mapReaction r f).verdicts = s.verdicts := rfl

@[simp] theorem mapReaction_schedule (s : State) (r : ReactionId) (f : Reaction → Reaction) : (s.mapReaction r f).schedule = s.schedule := rfl

@[simp] theorem mapReaction_outputs (s : State) (r : ReactionId) (f : Reaction → Reaction) : (s.mapReaction r f).outputs = s.outputs := rfl

@[simp] theorem mapReaction_windows (s : State) (r : ReactionId) (f : Reaction → Reaction) : (s.mapReaction r f).windows = s.windows := rfl

@[simp] theorem mapReaction_lanes (s : State) (r : ReactionId) (f : Reaction → Reaction) : (s.mapReaction r f).lanes = s.lanes := rfl

@[simp] theorem mapReaction_position (s : State) (r : ReactionId) (f : Reaction → Reaction) : (s.mapReaction r f).position = s.position := rfl

@[simp] theorem mapReaction_inputs (s : State) (r : ReactionId) (f : Reaction → Reaction) : (s.mapReaction r f).inputs = s.inputs := rfl

@[simp] theorem mapReaction_timers (s : State) (r : ReactionId) (f : Reaction → Reaction) : (s.mapReaction r f).timers = s.timers := rfl

@[simp] theorem mapReaction_reactions (s : State) (r : ReactionId) (f : Reaction → Reaction) : (s.mapReaction r f).reactions = tset s.reactions r (f s.reactions[r]) := rfl

@[simp] theorem mapReaction_notices (s : State) (r : ReactionId) (f : Reaction → Reaction) : (s.mapReaction r f).notices = s.notices := rfl

@[simp] theorem mapReaction_link (s : State) (r : ReactionId) (f : Reaction → Reaction) : (s.mapReaction r f).link = s.link := rfl

@[simp] theorem mapReaction_pins (s : State) (r : ReactionId) (f : Reaction → Reaction) : (s.mapReaction r f).pins = s.pins := rfl

@[simp] theorem mapReaction_choices (s : State) (r : ReactionId) (f : Reaction → Reaction) : (s.mapReaction r f).choices = s.choices := rfl

@[simp] theorem mapReaction_agenda (s : State) (r : ReactionId) (f : Reaction → Reaction) : (s.mapReaction r f).agenda = s.agenda := rfl

@[simp] theorem mapReaction_pending (s : State) (r : ReactionId) (f : Reaction → Reaction) : (s.mapReaction r f).pending = s.pending := rfl

/-! ### mapWindows -/

@[simp] theorem mapWindows_items (s : State) (i : InputId) (f : List Window → List Window) : (s.mapWindows i f).items = s.items := rfl

@[simp] theorem mapWindows_verdicts (s : State) (i : InputId) (f : List Window → List Window) : (s.mapWindows i f).verdicts = s.verdicts := rfl

@[simp] theorem mapWindows_schedule (s : State) (i : InputId) (f : List Window → List Window) : (s.mapWindows i f).schedule = s.schedule := rfl

@[simp] theorem mapWindows_outputs (s : State) (i : InputId) (f : List Window → List Window) : (s.mapWindows i f).outputs = s.outputs := rfl

@[simp] theorem mapWindows_windows (s : State) (i : InputId) (f : List Window → List Window) : (s.mapWindows i f).windows = tset s.windows i (f s.windows[i]) := rfl

@[simp] theorem mapWindows_lanes (s : State) (i : InputId) (f : List Window → List Window) : (s.mapWindows i f).lanes = s.lanes := rfl

@[simp] theorem mapWindows_position (s : State) (i : InputId) (f : List Window → List Window) : (s.mapWindows i f).position = s.position := rfl

@[simp] theorem mapWindows_inputs (s : State) (i : InputId) (f : List Window → List Window) : (s.mapWindows i f).inputs = s.inputs := rfl

@[simp] theorem mapWindows_timers (s : State) (i : InputId) (f : List Window → List Window) : (s.mapWindows i f).timers = s.timers := rfl

@[simp] theorem mapWindows_reactions (s : State) (i : InputId) (f : List Window → List Window) : (s.mapWindows i f).reactions = s.reactions := rfl

@[simp] theorem mapWindows_notices (s : State) (i : InputId) (f : List Window → List Window) : (s.mapWindows i f).notices = s.notices := rfl

@[simp] theorem mapWindows_link (s : State) (i : InputId) (f : List Window → List Window) : (s.mapWindows i f).link = s.link := rfl

@[simp] theorem mapWindows_pins (s : State) (i : InputId) (f : List Window → List Window) : (s.mapWindows i f).pins = s.pins := rfl

@[simp] theorem mapWindows_choices (s : State) (i : InputId) (f : List Window → List Window) : (s.mapWindows i f).choices = s.choices := rfl

@[simp] theorem mapWindows_agenda (s : State) (i : InputId) (f : List Window → List Window) : (s.mapWindows i f).agenda = s.agenda := rfl

@[simp] theorem mapWindows_pending (s : State) (i : InputId) (f : List Window → List Window) : (s.mapWindows i f).pending = s.pending := rfl

/-! ### showPin -/

@[simp] theorem showPin_items (s : State) (i : InputId) (v : Level) : (s.showPin i v).items = s.items := rfl

@[simp] theorem showPin_verdicts (s : State) (i : InputId) (v : Level) : (s.showPin i v).verdicts = s.verdicts := rfl

@[simp] theorem showPin_schedule (s : State) (i : InputId) (v : Level) : (s.showPin i v).schedule = s.schedule := rfl

@[simp] theorem showPin_outputs (s : State) (i : InputId) (v : Level) : (s.showPin i v).outputs = s.outputs := rfl

@[simp] theorem showPin_windows (s : State) (i : InputId) (v : Level) : (s.showPin i v).windows = s.windows := rfl

@[simp] theorem showPin_lanes (s : State) (i : InputId) (v : Level) : (s.showPin i v).lanes = s.lanes := rfl

@[simp] theorem showPin_position (s : State) (i : InputId) (v : Level) : (s.showPin i v).position = s.position := rfl

@[simp] theorem showPin_inputs (s : State) (i : InputId) (v : Level) : (s.showPin i v).inputs = s.inputs := rfl

@[simp] theorem showPin_timers (s : State) (i : InputId) (v : Level) : (s.showPin i v).timers = s.timers := rfl

@[simp] theorem showPin_reactions (s : State) (i : InputId) (v : Level) : (s.showPin i v).reactions = s.reactions := rfl

@[simp] theorem showPin_notices (s : State) (i : InputId) (v : Level) : (s.showPin i v).notices = s.notices := rfl

@[simp] theorem showPin_link (s : State) (i : InputId) (v : Level) : (s.showPin i v).link = s.link := rfl

@[simp] theorem showPin_pins (s : State) (i : InputId) (v : Level) : (s.showPin i v).pins = tset s.pins i v := rfl

@[simp] theorem showPin_choices (s : State) (i : InputId) (v : Level) : (s.showPin i v).choices = s.choices := rfl

@[simp] theorem showPin_agenda (s : State) (i : InputId) (v : Level) : (s.showPin i v).agenda = s.agenda := rfl

@[simp] theorem showPin_pending (s : State) (i : InputId) (v : Level) : (s.showPin i v).pending = s.pending := rfl

/-! ### mapRecord -/

@[simp] theorem mapRecord_verdicts (s : State) (rid : Nat) (f : Item → Item) : (s.mapRecord rid f).verdicts = s.verdicts := rfl

@[simp] theorem mapRecord_schedule (s : State) (rid : Nat) (f : Item → Item) : (s.mapRecord rid f).schedule = s.schedule := rfl

@[simp] theorem mapRecord_outputs (s : State) (rid : Nat) (f : Item → Item) : (s.mapRecord rid f).outputs = s.outputs := rfl

@[simp] theorem mapRecord_windows (s : State) (rid : Nat) (f : Item → Item) : (s.mapRecord rid f).windows = s.windows := rfl

@[simp] theorem mapRecord_lanes (s : State) (rid : Nat) (f : Item → Item) : (s.mapRecord rid f).lanes = s.lanes := rfl

@[simp] theorem mapRecord_position (s : State) (rid : Nat) (f : Item → Item) : (s.mapRecord rid f).position = s.position := rfl

@[simp] theorem mapRecord_inputs (s : State) (rid : Nat) (f : Item → Item) : (s.mapRecord rid f).inputs = s.inputs := rfl

@[simp] theorem mapRecord_timers (s : State) (rid : Nat) (f : Item → Item) : (s.mapRecord rid f).timers = s.timers := rfl

@[simp] theorem mapRecord_reactions (s : State) (rid : Nat) (f : Item → Item) : (s.mapRecord rid f).reactions = s.reactions := rfl

@[simp] theorem mapRecord_notices (s : State) (rid : Nat) (f : Item → Item) : (s.mapRecord rid f).notices = s.notices := rfl

@[simp] theorem mapRecord_link (s : State) (rid : Nat) (f : Item → Item) : (s.mapRecord rid f).link = s.link := rfl

@[simp] theorem mapRecord_pins (s : State) (rid : Nat) (f : Item → Item) : (s.mapRecord rid f).pins = s.pins := rfl

@[simp] theorem mapRecord_choices (s : State) (rid : Nat) (f : Item → Item) : (s.mapRecord rid f).choices = s.choices := rfl

@[simp] theorem mapRecord_agenda (s : State) (rid : Nat) (f : Item → Item) : (s.mapRecord rid f).agenda = s.agenda := rfl

@[simp] theorem mapRecord_pending (s : State) (rid : Nat) (f : Item → Item) : (s.mapRecord rid f).pending = s.pending := rfl

/-! ### dropRecord -/

@[simp] theorem dropRecord_verdicts (s : State) (rid : Nat) : (s.dropRecord rid).verdicts = s.verdicts := rfl

@[simp] theorem dropRecord_schedule (s : State) (rid : Nat) : (s.dropRecord rid).schedule = s.schedule := rfl

@[simp] theorem dropRecord_outputs (s : State) (rid : Nat) : (s.dropRecord rid).outputs = s.outputs := rfl

@[simp] theorem dropRecord_windows (s : State) (rid : Nat) : (s.dropRecord rid).windows = s.windows := rfl

@[simp] theorem dropRecord_lanes (s : State) (rid : Nat) : (s.dropRecord rid).lanes = s.lanes := rfl

@[simp] theorem dropRecord_position (s : State) (rid : Nat) : (s.dropRecord rid).position = s.position := rfl

@[simp] theorem dropRecord_inputs (s : State) (rid : Nat) : (s.dropRecord rid).inputs = s.inputs := rfl

@[simp] theorem dropRecord_timers (s : State) (rid : Nat) : (s.dropRecord rid).timers = s.timers := rfl

@[simp] theorem dropRecord_reactions (s : State) (rid : Nat) : (s.dropRecord rid).reactions = s.reactions := rfl

@[simp] theorem dropRecord_notices (s : State) (rid : Nat) : (s.dropRecord rid).notices = s.notices := rfl

@[simp] theorem dropRecord_link (s : State) (rid : Nat) : (s.dropRecord rid).link = s.link := rfl

@[simp] theorem dropRecord_pins (s : State) (rid : Nat) : (s.dropRecord rid).pins = s.pins := rfl

@[simp] theorem dropRecord_choices (s : State) (rid : Nat) : (s.dropRecord rid).choices = s.choices := rfl

@[simp] theorem dropRecord_agenda (s : State) (rid : Nat) : (s.dropRecord rid).agenda = s.agenda := rfl

@[simp] theorem dropRecord_pending (s : State) (rid : Nat) : (s.dropRecord rid).pending = s.pending := rfl

/-! ### setQueue -/

@[simp] theorem setQueue_items (s : State) (l : LaneId) (q : List Item) : (s.setQueue l q).items = { s.items with queues := tset s.items.queues l q } := rfl

@[simp] theorem setQueue_verdicts (s : State) (l : LaneId) (q : List Item) : (s.setQueue l q).verdicts = s.verdicts := rfl

@[simp] theorem setQueue_schedule (s : State) (l : LaneId) (q : List Item) : (s.setQueue l q).schedule = s.schedule := rfl

@[simp] theorem setQueue_outputs (s : State) (l : LaneId) (q : List Item) : (s.setQueue l q).outputs = s.outputs := rfl

@[simp] theorem setQueue_windows (s : State) (l : LaneId) (q : List Item) : (s.setQueue l q).windows = s.windows := rfl

@[simp] theorem setQueue_lanes (s : State) (l : LaneId) (q : List Item) : (s.setQueue l q).lanes = s.lanes := rfl

@[simp] theorem setQueue_position (s : State) (l : LaneId) (q : List Item) : (s.setQueue l q).position = s.position := rfl

@[simp] theorem setQueue_inputs (s : State) (l : LaneId) (q : List Item) : (s.setQueue l q).inputs = s.inputs := rfl

@[simp] theorem setQueue_timers (s : State) (l : LaneId) (q : List Item) : (s.setQueue l q).timers = s.timers := rfl

@[simp] theorem setQueue_reactions (s : State) (l : LaneId) (q : List Item) : (s.setQueue l q).reactions = s.reactions := rfl

@[simp] theorem setQueue_notices (s : State) (l : LaneId) (q : List Item) : (s.setQueue l q).notices = s.notices := rfl

@[simp] theorem setQueue_link (s : State) (l : LaneId) (q : List Item) : (s.setQueue l q).link = s.link := rfl

@[simp] theorem setQueue_pins (s : State) (l : LaneId) (q : List Item) : (s.setQueue l q).pins = s.pins := rfl

@[simp] theorem setQueue_choices (s : State) (l : LaneId) (q : List Item) : (s.setQueue l q).choices = s.choices := rfl

@[simp] theorem setQueue_agenda (s : State) (l : LaneId) (q : List Item) : (s.setQueue l q).agenda = s.agenda := rfl

@[simp] theorem setQueue_pending (s : State) (l : LaneId) (q : List Item) : (s.setQueue l q).pending = s.pending := rfl

/-! ### addRef -/

@[simp] theorem addRef_items (s : State) (r : NoticeRef) : (s.addRef r).items = s.items := rfl

@[simp] theorem addRef_verdicts (s : State) (r : NoticeRef) : (s.addRef r).verdicts = s.verdicts := rfl

@[simp] theorem addRef_schedule (s : State) (r : NoticeRef) : (s.addRef r).schedule = s.schedule := rfl

@[simp] theorem addRef_outputs (s : State) (r : NoticeRef) : (s.addRef r).outputs = s.outputs := rfl

@[simp] theorem addRef_windows (s : State) (r : NoticeRef) : (s.addRef r).windows = s.windows := rfl

@[simp] theorem addRef_lanes (s : State) (r : NoticeRef) : (s.addRef r).lanes = s.lanes := rfl

@[simp] theorem addRef_position (s : State) (r : NoticeRef) : (s.addRef r).position = s.position := rfl

@[simp] theorem addRef_inputs (s : State) (r : NoticeRef) : (s.addRef r).inputs = s.inputs := rfl

@[simp] theorem addRef_timers (s : State) (r : NoticeRef) : (s.addRef r).timers = s.timers := rfl

@[simp] theorem addRef_reactions (s : State) (r : NoticeRef) : (s.addRef r).reactions = s.reactions := rfl

@[simp] theorem addRef_notices (s : State) (r : NoticeRef) : (s.addRef r).notices = { s.notices with refs := s.notices.refs ++ [r] } := rfl

@[simp] theorem addRef_link (s : State) (r : NoticeRef) : (s.addRef r).link = s.link := rfl

@[simp] theorem addRef_pins (s : State) (r : NoticeRef) : (s.addRef r).pins = s.pins := rfl

@[simp] theorem addRef_choices (s : State) (r : NoticeRef) : (s.addRef r).choices = s.choices := rfl

@[simp] theorem addRef_agenda (s : State) (r : NoticeRef) : (s.addRef r).agenda = s.agenda := rfl

@[simp] theorem addRef_pending (s : State) (r : NoticeRef) : (s.addRef r).pending = s.pending := rfl

/-! ### dropRef -/

@[simp] theorem dropRef_items (s : State) (r : NoticeRef) : (s.dropRef r).items = s.items := rfl

@[simp] theorem dropRef_verdicts (s : State) (r : NoticeRef) : (s.dropRef r).verdicts = s.verdicts := rfl

@[simp] theorem dropRef_schedule (s : State) (r : NoticeRef) : (s.dropRef r).schedule = s.schedule := rfl

@[simp] theorem dropRef_outputs (s : State) (r : NoticeRef) : (s.dropRef r).outputs = s.outputs := rfl

@[simp] theorem dropRef_windows (s : State) (r : NoticeRef) : (s.dropRef r).windows = s.windows := rfl

@[simp] theorem dropRef_lanes (s : State) (r : NoticeRef) : (s.dropRef r).lanes = s.lanes := rfl

@[simp] theorem dropRef_position (s : State) (r : NoticeRef) : (s.dropRef r).position = s.position := rfl

@[simp] theorem dropRef_inputs (s : State) (r : NoticeRef) : (s.dropRef r).inputs = s.inputs := rfl

@[simp] theorem dropRef_timers (s : State) (r : NoticeRef) : (s.dropRef r).timers = s.timers := rfl

@[simp] theorem dropRef_reactions (s : State) (r : NoticeRef) : (s.dropRef r).reactions = s.reactions := rfl

@[simp] theorem dropRef_notices (s : State) (r : NoticeRef) : (s.dropRef r).notices = { s.notices with refs := s.notices.refs.erase r } := rfl

@[simp] theorem dropRef_link (s : State) (r : NoticeRef) : (s.dropRef r).link = s.link := rfl

@[simp] theorem dropRef_pins (s : State) (r : NoticeRef) : (s.dropRef r).pins = s.pins := rfl

@[simp] theorem dropRef_choices (s : State) (r : NoticeRef) : (s.dropRef r).choices = s.choices := rfl

@[simp] theorem dropRef_agenda (s : State) (r : NoticeRef) : (s.dropRef r).agenda = s.agenda := rfl

@[simp] theorem dropRef_pending (s : State) (r : NoticeRef) : (s.dropRef r).pending = s.pending := rfl

/-! ### enqueue -/

@[simp] theorem enqueue_items (s : State) (e : NoticeEntry) : (s.enqueue e).items = s.items := rfl

@[simp] theorem enqueue_verdicts (s : State) (e : NoticeEntry) : (s.enqueue e).verdicts = s.verdicts := rfl

@[simp] theorem enqueue_schedule (s : State) (e : NoticeEntry) : (s.enqueue e).schedule = s.schedule := rfl

@[simp] theorem enqueue_outputs (s : State) (e : NoticeEntry) : (s.enqueue e).outputs = s.outputs := rfl

@[simp] theorem enqueue_windows (s : State) (e : NoticeEntry) : (s.enqueue e).windows = s.windows := rfl

@[simp] theorem enqueue_lanes (s : State) (e : NoticeEntry) : (s.enqueue e).lanes = s.lanes := rfl

@[simp] theorem enqueue_position (s : State) (e : NoticeEntry) : (s.enqueue e).position = s.position := rfl

@[simp] theorem enqueue_inputs (s : State) (e : NoticeEntry) : (s.enqueue e).inputs = s.inputs := rfl

@[simp] theorem enqueue_timers (s : State) (e : NoticeEntry) : (s.enqueue e).timers = s.timers := rfl

@[simp] theorem enqueue_reactions (s : State) (e : NoticeEntry) : (s.enqueue e).reactions = s.reactions := rfl

@[simp] theorem enqueue_notices (s : State) (e : NoticeEntry) : (s.enqueue e).notices = { s.notices with unsent := s.notices.unsent ++ [e] } := rfl

@[simp] theorem enqueue_link (s : State) (e : NoticeEntry) : (s.enqueue e).link = s.link := rfl

@[simp] theorem enqueue_pins (s : State) (e : NoticeEntry) : (s.enqueue e).pins = s.pins := rfl

@[simp] theorem enqueue_choices (s : State) (e : NoticeEntry) : (s.enqueue e).choices = s.choices := rfl

@[simp] theorem enqueue_agenda (s : State) (e : NoticeEntry) : (s.enqueue e).agenda = s.agenda := rfl

@[simp] theorem enqueue_pending (s : State) (e : NoticeEntry) : (s.enqueue e).pending = s.pending := rfl

/-! ### setMissed -/

@[simp] theorem setMissed_items (s : State) (c : NoticeClass) (n : Nat) : (s.setMissed c n).items = s.items := rfl

@[simp] theorem setMissed_verdicts (s : State) (c : NoticeClass) (n : Nat) : (s.setMissed c n).verdicts = s.verdicts := rfl

@[simp] theorem setMissed_schedule (s : State) (c : NoticeClass) (n : Nat) : (s.setMissed c n).schedule = s.schedule := rfl

@[simp] theorem setMissed_outputs (s : State) (c : NoticeClass) (n : Nat) : (s.setMissed c n).outputs = s.outputs := rfl

@[simp] theorem setMissed_windows (s : State) (c : NoticeClass) (n : Nat) : (s.setMissed c n).windows = s.windows := rfl

@[simp] theorem setMissed_lanes (s : State) (c : NoticeClass) (n : Nat) : (s.setMissed c n).lanes = s.lanes := rfl

@[simp] theorem setMissed_position (s : State) (c : NoticeClass) (n : Nat) : (s.setMissed c n).position = s.position := rfl

@[simp] theorem setMissed_inputs (s : State) (c : NoticeClass) (n : Nat) : (s.setMissed c n).inputs = s.inputs := rfl

@[simp] theorem setMissed_timers (s : State) (c : NoticeClass) (n : Nat) : (s.setMissed c n).timers = s.timers := rfl

@[simp] theorem setMissed_reactions (s : State) (c : NoticeClass) (n : Nat) : (s.setMissed c n).reactions = s.reactions := rfl

@[simp] theorem setMissed_notices (s : State) (c : NoticeClass) (n : Nat) : (s.setMissed c n).notices = { s.notices with missed := s.notices.missed.set c n } := rfl

@[simp] theorem setMissed_link (s : State) (c : NoticeClass) (n : Nat) : (s.setMissed c n).link = s.link := rfl

@[simp] theorem setMissed_pins (s : State) (c : NoticeClass) (n : Nat) : (s.setMissed c n).pins = s.pins := rfl

@[simp] theorem setMissed_choices (s : State) (c : NoticeClass) (n : Nat) : (s.setMissed c n).choices = s.choices := rfl

@[simp] theorem setMissed_agenda (s : State) (c : NoticeClass) (n : Nat) : (s.setMissed c n).agenda = s.agenda := rfl

@[simp] theorem setMissed_pending (s : State) (c : NoticeClass) (n : Nat) : (s.setMissed c n).pending = s.pending := rfl

/-! ### dropWindows -/

@[simp] theorem dropWindows_items (s : State) (rid : Nat) : (s.dropWindows rid).items = s.items := rfl

@[simp] theorem dropWindows_verdicts (s : State) (rid : Nat) : (s.dropWindows rid).verdicts = s.verdicts := rfl

@[simp] theorem dropWindows_schedule (s : State) (rid : Nat) : (s.dropWindows rid).schedule = s.schedule := rfl

@[simp] theorem dropWindows_outputs (s : State) (rid : Nat) : (s.dropWindows rid).outputs = s.outputs := rfl

@[simp] theorem dropWindows_lanes (s : State) (rid : Nat) : (s.dropWindows rid).lanes = s.lanes := rfl

@[simp] theorem dropWindows_position (s : State) (rid : Nat) : (s.dropWindows rid).position = s.position := rfl

@[simp] theorem dropWindows_inputs (s : State) (rid : Nat) : (s.dropWindows rid).inputs = s.inputs := rfl

@[simp] theorem dropWindows_timers (s : State) (rid : Nat) : (s.dropWindows rid).timers = s.timers := rfl

@[simp] theorem dropWindows_reactions (s : State) (rid : Nat) : (s.dropWindows rid).reactions = s.reactions := rfl

@[simp] theorem dropWindows_notices (s : State) (rid : Nat) : (s.dropWindows rid).notices = s.notices := rfl

@[simp] theorem dropWindows_link (s : State) (rid : Nat) : (s.dropWindows rid).link = s.link := rfl

@[simp] theorem dropWindows_pins (s : State) (rid : Nat) : (s.dropWindows rid).pins = s.pins := rfl

@[simp] theorem dropWindows_choices (s : State) (rid : Nat) : (s.dropWindows rid).choices = s.choices := rfl

@[simp] theorem dropWindows_agenda (s : State) (rid : Nat) : (s.dropWindows rid).agenda = s.agenda := rfl

@[simp] theorem dropWindows_pending (s : State) (rid : Nat) : (s.dropWindows rid).pending = s.pending := rfl

/-! ### dropEntry -/

@[simp] theorem dropEntry_items (s : State) (serial : Nat) : (s.dropEntry serial).items = s.items := rfl

@[simp] theorem dropEntry_verdicts (s : State) (serial : Nat) : (s.dropEntry serial).verdicts = s.verdicts := rfl

@[simp] theorem dropEntry_outputs (s : State) (serial : Nat) : (s.dropEntry serial).outputs = s.outputs := rfl

@[simp] theorem dropEntry_windows (s : State) (serial : Nat) : (s.dropEntry serial).windows = s.windows := rfl

@[simp] theorem dropEntry_lanes (s : State) (serial : Nat) : (s.dropEntry serial).lanes = s.lanes := rfl

@[simp] theorem dropEntry_position (s : State) (serial : Nat) : (s.dropEntry serial).position = s.position := rfl

@[simp] theorem dropEntry_inputs (s : State) (serial : Nat) : (s.dropEntry serial).inputs = s.inputs := rfl

@[simp] theorem dropEntry_timers (s : State) (serial : Nat) : (s.dropEntry serial).timers = s.timers := rfl

@[simp] theorem dropEntry_reactions (s : State) (serial : Nat) : (s.dropEntry serial).reactions = s.reactions := rfl

@[simp] theorem dropEntry_notices (s : State) (serial : Nat) : (s.dropEntry serial).notices = s.notices := rfl

@[simp] theorem dropEntry_link (s : State) (serial : Nat) : (s.dropEntry serial).link = s.link := rfl

@[simp] theorem dropEntry_pins (s : State) (serial : Nat) : (s.dropEntry serial).pins = s.pins := rfl

@[simp] theorem dropEntry_choices (s : State) (serial : Nat) : (s.dropEntry serial).choices = s.choices := rfl

@[simp] theorem dropEntry_agenda (s : State) (serial : Nat) : (s.dropEntry serial).agenda = s.agenda := rfl

@[simp] theorem dropEntry_pending (s : State) (serial : Nat) : (s.dropEntry serial).pending = s.pending := rfl

/-! ### emptyAdvance -/

@[simp] theorem emptyAdvance_items (s : State) (l : LaneId) : (s.emptyAdvance l).items = s.items := rfl

@[simp] theorem emptyAdvance_schedule (s : State) (l : LaneId) : (s.emptyAdvance l).schedule = s.schedule := rfl

@[simp] theorem emptyAdvance_outputs (s : State) (l : LaneId) : (s.emptyAdvance l).outputs = s.outputs := rfl

@[simp] theorem emptyAdvance_windows (s : State) (l : LaneId) : (s.emptyAdvance l).windows = s.windows := rfl

@[simp] theorem emptyAdvance_lanes (s : State) (l : LaneId) : (s.emptyAdvance l).lanes = s.lanes := rfl

@[simp] theorem emptyAdvance_position (s : State) (l : LaneId) : (s.emptyAdvance l).position = s.position := rfl

@[simp] theorem emptyAdvance_inputs (s : State) (l : LaneId) : (s.emptyAdvance l).inputs = s.inputs := rfl

@[simp] theorem emptyAdvance_timers (s : State) (l : LaneId) : (s.emptyAdvance l).timers = s.timers := rfl

@[simp] theorem emptyAdvance_reactions (s : State) (l : LaneId) : (s.emptyAdvance l).reactions = s.reactions := rfl

@[simp] theorem emptyAdvance_notices (s : State) (l : LaneId) : (s.emptyAdvance l).notices = s.notices := rfl

@[simp] theorem emptyAdvance_link (s : State) (l : LaneId) : (s.emptyAdvance l).link = s.link := rfl

@[simp] theorem emptyAdvance_pins (s : State) (l : LaneId) : (s.emptyAdvance l).pins = s.pins := rfl

@[simp] theorem emptyAdvance_choices (s : State) (l : LaneId) : (s.emptyAdvance l).choices = s.choices := rfl

@[simp] theorem emptyAdvance_agenda (s : State) (l : LaneId) : (s.emptyAdvance l).agenda = s.agenda := rfl

@[simp] theorem emptyAdvance_pending (s : State) (l : LaneId) : (s.emptyAdvance l).pending = s.pending := rfl

/-! ### dropAdvance -/

@[simp] theorem dropAdvance_items (s : State) (l : LaneId) (tag : Half) : (s.dropAdvance l tag).items = s.items := rfl

@[simp] theorem dropAdvance_schedule (s : State) (l : LaneId) (tag : Half) : (s.dropAdvance l tag).schedule = s.schedule := rfl

@[simp] theorem dropAdvance_outputs (s : State) (l : LaneId) (tag : Half) : (s.dropAdvance l tag).outputs = s.outputs := rfl

@[simp] theorem dropAdvance_windows (s : State) (l : LaneId) (tag : Half) : (s.dropAdvance l tag).windows = s.windows := rfl

@[simp] theorem dropAdvance_lanes (s : State) (l : LaneId) (tag : Half) : (s.dropAdvance l tag).lanes = s.lanes := rfl

@[simp] theorem dropAdvance_position (s : State) (l : LaneId) (tag : Half) : (s.dropAdvance l tag).position = s.position := rfl

@[simp] theorem dropAdvance_inputs (s : State) (l : LaneId) (tag : Half) : (s.dropAdvance l tag).inputs = s.inputs := rfl

@[simp] theorem dropAdvance_timers (s : State) (l : LaneId) (tag : Half) : (s.dropAdvance l tag).timers = s.timers := rfl

@[simp] theorem dropAdvance_reactions (s : State) (l : LaneId) (tag : Half) : (s.dropAdvance l tag).reactions = s.reactions := rfl

@[simp] theorem dropAdvance_notices (s : State) (l : LaneId) (tag : Half) : (s.dropAdvance l tag).notices = s.notices := rfl

@[simp] theorem dropAdvance_link (s : State) (l : LaneId) (tag : Half) : (s.dropAdvance l tag).link = s.link := rfl

@[simp] theorem dropAdvance_pins (s : State) (l : LaneId) (tag : Half) : (s.dropAdvance l tag).pins = s.pins := rfl

@[simp] theorem dropAdvance_choices (s : State) (l : LaneId) (tag : Half) : (s.dropAdvance l tag).choices = s.choices := rfl

@[simp] theorem dropAdvance_agenda (s : State) (l : LaneId) (tag : Half) : (s.dropAdvance l tag).agenda = s.agenda := rfl

@[simp] theorem dropAdvance_pending (s : State) (l : LaneId) (tag : Half) : (s.dropAdvance l tag).pending = s.pending := rfl

/-! ### setReference -/

@[simp] theorem setReference_items (s : State) (r : Level × Level) : (s.setReference r).items = s.items := rfl

@[simp] theorem setReference_verdicts (s : State) (r : Level × Level) : (s.setReference r).verdicts = s.verdicts := rfl

@[simp] theorem setReference_schedule (s : State) (r : Level × Level) : (s.setReference r).schedule = s.schedule := rfl

@[simp] theorem setReference_outputs (s : State) (r : Level × Level) : (s.setReference r).outputs = s.outputs := rfl

@[simp] theorem setReference_windows (s : State) (r : Level × Level) : (s.setReference r).windows = s.windows := rfl

@[simp] theorem setReference_lanes (s : State) (r : Level × Level) : (s.setReference r).lanes = s.lanes := rfl

@[simp] theorem setReference_position (s : State) (r : Level × Level) : (s.setReference r).position = { s.position with ea := r.1, eb := r.2 } := rfl

@[simp] theorem setReference_inputs (s : State) (r : Level × Level) : (s.setReference r).inputs = s.inputs := rfl

@[simp] theorem setReference_timers (s : State) (r : Level × Level) : (s.setReference r).timers = s.timers := rfl

@[simp] theorem setReference_reactions (s : State) (r : Level × Level) : (s.setReference r).reactions = s.reactions := rfl

@[simp] theorem setReference_notices (s : State) (r : Level × Level) : (s.setReference r).notices = s.notices := rfl

@[simp] theorem setReference_link (s : State) (r : Level × Level) : (s.setReference r).link = s.link := rfl

@[simp] theorem setReference_pins (s : State) (r : Level × Level) : (s.setReference r).pins = s.pins := rfl

@[simp] theorem setReference_choices (s : State) (r : Level × Level) : (s.setReference r).choices = s.choices := rfl

@[simp] theorem setReference_agenda (s : State) (r : Level × Level) : (s.setReference r).agenda = s.agenda := rfl

@[simp] theorem setReference_pending (s : State) (r : Level × Level) : (s.setReference r).pending = s.pending := rfl

/-! ### pushEach -/

@[simp] theorem pushEach_items (s : State) (es : List Event) : (s.pushEach es).items = s.items := rfl

@[simp] theorem pushEach_verdicts (s : State) (es : List Event) : (s.pushEach es).verdicts = s.verdicts := rfl

@[simp] theorem pushEach_schedule (s : State) (es : List Event) : (s.pushEach es).schedule = s.schedule := rfl

@[simp] theorem pushEach_outputs (s : State) (es : List Event) : (s.pushEach es).outputs = s.outputs := rfl

@[simp] theorem pushEach_windows (s : State) (es : List Event) : (s.pushEach es).windows = s.windows := rfl

@[simp] theorem pushEach_lanes (s : State) (es : List Event) : (s.pushEach es).lanes = s.lanes := rfl

@[simp] theorem pushEach_position (s : State) (es : List Event) : (s.pushEach es).position = s.position := rfl

@[simp] theorem pushEach_inputs (s : State) (es : List Event) : (s.pushEach es).inputs = s.inputs := rfl

@[simp] theorem pushEach_timers (s : State) (es : List Event) : (s.pushEach es).timers = s.timers := rfl

@[simp] theorem pushEach_reactions (s : State) (es : List Event) : (s.pushEach es).reactions = s.reactions := rfl

@[simp] theorem pushEach_notices (s : State) (es : List Event) : (s.pushEach es).notices = s.notices := rfl

@[simp] theorem pushEach_link (s : State) (es : List Event) : (s.pushEach es).link = s.link := rfl

@[simp] theorem pushEach_pins (s : State) (es : List Event) : (s.pushEach es).pins = s.pins := rfl

@[simp] theorem pushEach_choices (s : State) (es : List Event) : (s.pushEach es).choices = s.choices := rfl

@[simp] theorem pushEach_agenda (s : State) (es : List Event) : (s.pushEach es).agenda = s.agenda ++ es.map (fun e => [e]) := rfl

@[simp] theorem pushEach_pending (s : State) (es : List Event) : (s.pushEach es).pending = s.pending := rfl

/-! ### nextMoment -/

@[simp] theorem nextMoment_items (s : State) : s.nextMoment.items = s.items := rfl

@[simp] theorem nextMoment_verdicts (s : State) : s.nextMoment.verdicts = s.verdicts := rfl

@[simp] theorem nextMoment_schedule (s : State) : s.nextMoment.schedule = s.schedule := rfl

@[simp] theorem nextMoment_outputs (s : State) : s.nextMoment.outputs = s.outputs := rfl

@[simp] theorem nextMoment_windows (s : State) : s.nextMoment.windows = s.windows := rfl

@[simp] theorem nextMoment_position (s : State) : s.nextMoment.position = s.position := rfl

@[simp] theorem nextMoment_inputs (s : State) : s.nextMoment.inputs = s.inputs := rfl

@[simp] theorem nextMoment_timers (s : State) : s.nextMoment.timers = s.timers := rfl

@[simp] theorem nextMoment_reactions (s : State) : s.nextMoment.reactions = s.reactions := rfl

@[simp] theorem nextMoment_notices (s : State) : s.nextMoment.notices = s.notices := rfl

@[simp] theorem nextMoment_link (s : State) : s.nextMoment.link = s.link := rfl

@[simp] theorem nextMoment_pins (s : State) : s.nextMoment.pins = s.pins := rfl

@[simp] theorem nextMoment_choices (s : State) : s.nextMoment.choices = s.choices := rfl

@[simp] theorem nextMoment_agenda (s : State) : s.nextMoment.agenda = s.agenda := rfl

@[simp] theorem nextMoment_pending (s : State) : s.nextMoment.pending = s.pending := rfl

@[simp] theorem nextMoment_lane (s : State) (l : LaneId) : s.nextMoment.lanes[l] = { s.lanes[l] with struck := none } :=
  tmap_get _ _ _

/-! ### stepEnded -/

@[simp] theorem stepEnded_items (s : State) : s.stepEnded.items = s.items := rfl

@[simp] theorem stepEnded_verdicts (s : State) : s.stepEnded.verdicts = s.verdicts := rfl

@[simp] theorem stepEnded_schedule (s : State) : s.stepEnded.schedule = s.schedule := rfl

@[simp] theorem stepEnded_outputs (s : State) : s.stepEnded.outputs = s.outputs := rfl

@[simp] theorem stepEnded_windows (s : State) : s.stepEnded.windows = s.windows := rfl

@[simp] theorem stepEnded_position (s : State) : s.stepEnded.position = s.position := rfl

@[simp] theorem stepEnded_inputs (s : State) : s.stepEnded.inputs = s.inputs := rfl

@[simp] theorem stepEnded_timers (s : State) : s.stepEnded.timers = s.timers := rfl

@[simp] theorem stepEnded_reactions (s : State) : s.stepEnded.reactions = s.reactions := rfl

@[simp] theorem stepEnded_notices (s : State) : s.stepEnded.notices = s.notices := rfl

@[simp] theorem stepEnded_link (s : State) : s.stepEnded.link = s.link := rfl

@[simp] theorem stepEnded_pins (s : State) : s.stepEnded.pins = s.pins := rfl

@[simp] theorem stepEnded_choices (s : State) : s.stepEnded.choices = s.choices := rfl

@[simp] theorem stepEnded_agenda (s : State) : s.stepEnded.agenda = s.agenda := rfl

@[simp] theorem stepEnded_pending (s : State) : s.stepEnded.pending = s.pending := rfl

@[simp] theorem stepEnded_lane (s : State) (l : LaneId) : s.stepEnded.lanes[l] = s.lanes[l].stepEnded :=
  tmap_get _ _ _

end Sys2Proof.Machine
end

