-- ==== Sys2Proof/Laws/Touches.lean ====
section
/-! SUPPORT. Which blocks each shared operation can change: one lemma per operation, cited in place of unfolding it. -/

namespace Sys2Proof.Machine

set_option Elab.async false

/-! ### The relation -/

theorem OnlyChanges.refl (bs : List Block) (s : State) : OnlyChanges bs s s := by
  intro b _; cases b <;> rfl

theorem OnlyChanges.trans {bs : List Block} {s t u : State} (h : OnlyChanges bs s t) (k : OnlyChanges bs t u) :
    OnlyChanges bs s u := by
  intro b hb
  have h1 := h b hb
  have h2 := k b hb
  cases b <;> exact Eq.trans h2 h1

theorem OnlyChanges.mono {bs cs : List Block} {s t : State} (h : OnlyChanges bs s t)
    (sub : bs.all (fun b => cs.contains b) = true := by rfl) : OnlyChanges cs s t := by
  intro b hb
  refine h b (fun hm => hb ?_)
  have := List.all_eq_true.mp sub b hm
  simpa using this

/-- A chain of updates, each within the blocks. -/
theorem OnlyChanges.foldl {α : Type} {bs : List Block} (f : State → α → State) (h : ∀ s a, OnlyChanges bs s (f s a)) :
    ∀ (l : List α) (s : State), OnlyChanges bs s (l.foldl f s)
  | [], s => .refl bs s
  | a :: l, s => (h s a).trans (OnlyChanges.foldl f h l (f s a))

/-! ### Plain updates -/

theorem items_changes (s : State) (x : Items) : OnlyChanges [.items] s { s with items := x } := by
  intro b h; cases b <;> first | rfl | simp at h

theorem verdicts_changes (s : State) (x : Verdicts) : OnlyChanges [.verdicts] s { s with verdicts := x } := by
  intro b h; cases b <;> first | rfl | simp at h

theorem schedule_changes (s : State) (x : Schedule) : OnlyChanges [.schedule] s { s with schedule := x } := by
  intro b h; cases b <;> first | rfl | simp at h

theorem position_changes (s : State) (x : Position) : OnlyChanges [.position] s { s with position := x } := by
  intro b h; cases b <;> first | rfl | simp at h

theorem notices_changes (s : State) (x : Notices) : OnlyChanges [.notices] s { s with notices := x } := by
  intro b h; cases b <;> first | rfl | simp at h

theorem link_changes (s : State) (x : Link) : OnlyChanges [.link] s { s with link := x } := by
  intro b h; cases b <;> first | rfl | simp at h

theorem outputs_changes (s : State) (x : Vector Output 16) : OnlyChanges [.outputs] s { s with outputs := x } := by
  intro b h; cases b <;> first | rfl | simp at h

theorem agenda_changes (s : State) (x : List (List Event)) : OnlyChanges [.agenda] s { s with agenda := x } := by
  intro b h; cases b <;> first | rfl | simp at h

theorem choices_changes (s : State) (x : Nat) : OnlyChanges [.choices] s { s with choices := x } := by
  intro b h; cases b <;> first | rfl | simp at h

theorem mapLane_changes (s : State) (l : LaneId) (f : Lane → Lane) : OnlyChanges [.lanes] s (s.mapLane l f) := by
  intro b h; cases b <;> first | rfl | simp at h

theorem mapOutput_changes (s : State) (o : OutputId) (f : Output → Output) :
    OnlyChanges [.outputs] s (s.mapOutput o f) := by
  intro b h; cases b <;> first | rfl | simp at h

theorem mapInput_changes (s : State) (i : InputId) (f : Input → Input) : OnlyChanges [.inputs] s (s.mapInput i f) := by
  intro b h; cases b <;> first | rfl | simp at h

theorem mapTimer_changes (s : State) (t : TimerId) (f : Timer → Timer) : OnlyChanges [.timers] s (s.mapTimer t f) := by
  intro b h; cases b <;> first | rfl | simp at h

theorem mapReaction_changes (s : State) (r : ReactionId) (f : Reaction → Reaction) :
    OnlyChanges [.reactions] s (s.mapReaction r f) := by
  intro b h; cases b <;> first | rfl | simp at h

theorem mapWindows_changes (s : State) (i : InputId) (f : List Window → List Window) :
    OnlyChanges [.windows] s (s.mapWindows i f) := by
  intro b h; cases b <;> first | rfl | simp at h

theorem showPin_changes (s : State) (i : InputId) (v : Level) : OnlyChanges [.pins] s (s.showPin i v) := by
  intro b h; cases b <;> first | rfl | simp at h

theorem mapRecord_changes (s : State) (rid : Nat) (f : Item → Item) : OnlyChanges [.items] s (s.mapRecord rid f) :=
  items_changes s _

theorem dropRecord_changes (s : State) (rid : Nat) : OnlyChanges [.items] s (s.dropRecord rid) :=
  items_changes s _

theorem setQueue_changes (s : State) (l : LaneId) (q : List Item) : OnlyChanges [.items] s (s.setQueue l q) :=
  items_changes s _

theorem setFlag_changes (s : State) (rid : Nat) (sub : SubKind) (f : NoticeFlag) :
    OnlyChanges [.items] s (s.setFlag rid sub f) :=
  mapRecord_changes s rid _

theorem addRef_changes (s : State) (r : NoticeRef) : OnlyChanges [.notices] s (s.addRef r) :=
  notices_changes s _

theorem dropRef_changes (s : State) (r : NoticeRef) : OnlyChanges [.notices] s (s.dropRef r) :=
  notices_changes s _

theorem enqueue_changes (s : State) (e : NoticeEntry) : OnlyChanges [.notices] s (s.enqueue e) :=
  notices_changes s _

theorem setMissed_changes (s : State) (c : NoticeClass) (n : Nat) : OnlyChanges [.notices] s (s.setMissed c n) :=
  notices_changes s _

theorem choose_changes (s : State) (n : Nat) : OnlyChanges [.choices] s (s.choose n).2 := by
  unfold State.choose
  split
  · exact .refl _ s
  · exact choices_changes s _

theorem push_changes (s : State) (c : List Event) : OnlyChanges [.agenda] s (s.push c) := by
  unfold State.push
  split
  · exact .refl _ s
  · exact agenda_changes s _

theorem pushEach_changes (s : State) (es : List Event) : OnlyChanges [.agenda] s (s.pushEach es) :=
  agenda_changes s _

/-! ### Notice Queue -/

theorem admitRef_changes (s t : State) (r : NoticeRef) (h : s.admitRef r = some t) :
    OnlyChanges [.items, .notices, .lanes] s t := by
  unfold State.admitRef at h
  cases r with
  | item rid sub =>
    simp only at h
    split at h
    · cases h
      exact ((dropRef_changes s _).mono).trans (setFlag_changes _ _ _ _).mono
    · split at h
      · split at h
        · cases h; exact (dropRef_changes s _).mono
        · cases h
          exact ((dropRef_changes s _).mono.trans (enqueue_changes _ _).mono).trans (setFlag_changes _ _ _ _).mono
      · cases h
  | lane l =>
    simp only at h
    split at h
    · cases h
      exact ((dropRef_changes s _).mono.trans (enqueue_changes _ _).mono).trans (mapLane_changes _ _ _).mono
    · cases h

theorem admitUpTo_changes (n : Nat) : ∀ s : State, OnlyChanges [.items, .notices, .lanes] s (State.admitUpTo n s) := by
  induction n with
  | zero => exact fun s => .refl _ s
  | succ n ih =>
    intro s
    unfold State.admitUpTo
    split
    · exact .refl _ s
    · split
      · exact .refl _ s
      · rename_i h
        exact (admitRef_changes _ _ _ h).trans (ih _)

/-- R163: admission changes the queue, flags of records and flags of lanes. -/
theorem admit_changes (s : State) : OnlyChanges [.items, .notices, .lanes] s s.admitAll :=
  admitUpTo_changes _ s

theorem admitIfRoom_changes (s : State) : OnlyChanges [.items, .notices, .lanes] s s.admitIfRoom := by
  unfold State.admitIfRoom
  split
  · exact admit_changes s
  · exact .refl _ s

theorem raiseItem_changes (s : State) (rid : Nat) (sub : SubKind) :
    OnlyChanges [.items, .notices, .lanes] s (s.raiseItem rid sub) :=
  ((setFlag_changes s rid sub _).mono.trans (addRef_changes _ _).mono).trans (admitIfRoom_changes _)

theorem raiseLane_changes (s : State) (l : LaneId) : OnlyChanges [.items, .notices, .lanes] s (s.raiseLane l) := by
  unfold State.raiseLane
  split
  · exact (mapLane_changes s l _).mono
  · split
    · exact .refl _ s
    · exact ((mapLane_changes s l _).mono.trans (addRef_changes _ _).mono).trans (admitIfRoom_changes _)

theorem produce_changes (s : State) (k : NoticeKind) (c : List Byte) : OnlyChanges [.notices] s (s.produce k c) := by
  unfold State.produce
  simp only
  split
  · exact (enqueue_changes s _).trans (setMissed_changes _ _ _)
  · exact setMissed_changes s _ _

theorem flagLinked_changes (s : State) (e : NoticeEntry) (f : NoticeFlag) :
    OnlyChanges [.items] s (s.flagLinked e f) := by
  unfold State.flagLinked
  split
  · exact setFlag_changes s _ _ _
  all_goals exact .refl _ s

theorem sendFirst_changes (s : State) (e : NoticeEntry) :
    OnlyChanges [.items, .notices, .link] s (s.sendFirst e) := by
  unfold State.sendFirst
  simp only
  have h := ((notices_changes s { s.notices with
      unsent := s.notices.unsent.erase e
      sent := s.notices.sent ++
        [{ e with number := some s.notices.nextNumber, contents := some (s.sentContents e) }]
      nextNumber := s.notices.nextNumber + 1
      ackTimer := if s.notices.sent.isEmpty then some s.notices.settings.timeout else s.notices.ackTimer }).mono
      (cs := [.items, .notices, .link])).trans (link_changes _ { s.link with
        transmitter := .notice (NoticeEntry.frame
          { e with number := some s.notices.nextNumber, contents := some (s.sentContents e) }) }).mono
  exact h.trans (flagLinked_changes _ _ _).mono

theorem sendNotice_changes (s : State) : OnlyChanges [.items, .notices, .link] s s.sendNotice := by
  unfold State.sendNotice
  split
  · exact .refl _ s
  · split
    · rename_i e _
      exact ((notices_changes s { s.notices with sent := unmarkFirst s.notices.sent }).mono).trans
        (link_changes _ { s.link with transmitter := .notice e.frame }).mono
    · split
      · split
        · exact .refl _ s
        · exact sendFirst_changes s _
      · exact .refl _ s

theorem freeRecord_changes (s : State) (rid : Nat) : OnlyChanges [.items, .notices] s (s.freeRecord rid) :=
  (items_changes s { s.items with done := dropRid rid s.items.done }).mono.trans (notices_changes _ _).mono

theorem acknowledge_changes (s : State) (e : NoticeEntry) : OnlyChanges [.items, .notices] s (s.acknowledge e) := by
  unfold State.acknowledge
  split
  · split
    · exact freeRecord_changes s _
    · exact (flagLinked_changes s _ _).mono
  all_goals exact .refl _ s

/-- R169: an acknowledgement changes the queue, records and flags of lanes. -/
theorem ackNotice_changes (s : State) (n : Byte) : OnlyChanges [.items, .notices, .lanes] s (s.ackNotice n) := by
  unfold State.ackNotice
  simp only
  split
  · exact .refl _ s
  · exact ((((notices_changes s _).mono).trans
      ((OnlyChanges.foldl _ acknowledge_changes _ _).mono)).trans (notices_changes _ _).mono).trans (admit_changes _)

/-! ### Output Driver -/

theorem addHolder_changes (s : State) (o : OutputId) (h : Holder) : OnlyChanges [.outputs] s (s.addHolder o h) :=
  mapOutput_changes s o _

theorem release_changes (s : State) (o : OutputId) (h : Holder) : OnlyChanges [.outputs] s (s.release o h) :=
  mapOutput_changes s o _

theorem mapGeneral_changes (s : State) (o : OutputId) (f : Output → Output) :
    OnlyChanges [.outputs] s (s.mapGeneral o f) := by
  unfold State.mapGeneral
  split
  · exact mapOutput_changes s o f
  · exact .refl _ s

theorem outPulse_changes (s : State) (o : OutputId) (ms : Half) : OnlyChanges [.outputs] s (s.outPulse o ms) := by
  unfold State.outPulse
  split
  · exact .refl _ s
  · exact mapGeneral_changes s o _

theorem endPulse_changes (s : State) (o : OutputId) : OnlyChanges [.outputs] s (s.endPulse o) := by
  unfold State.endPulse
  split
  · exact mapOutput_changes s o _
  · exact .refl _ s

theorem inhibitOutputs_changes (s : State) : OnlyChanges [.outputs] s s.inhibitOutputs :=
  outputs_changes s _

/-! ### How an item ends -/

theorem becomeDone_changes (s : State) (it : Item) (r : Summary) :
    OnlyChanges [.items, .notices, .lanes] s (s.becomeDone it r) := by
  unfold State.becomeDone
  split
  · exact (items_changes s _).mono.trans (raiseItem_changes _ _ _)
  · exact (notices_changes s _).mono

theorem checkDone_changes (s : State) (rid : Nat) :
    OnlyChanges [.items, .notices, .lanes, .agenda] s (s.checkDone rid) := by
  unfold State.checkDone
  split
  · exact .refl _ s
  · split
    · exact ((dropRecord_changes s rid).mono.trans (becomeDone_changes _ _ _).mono).trans (push_changes _ _).mono
    · exact .refl _ s

theorem dropEntry_changes (s : State) (serial : Nat) : OnlyChanges [.schedule] s (s.dropEntry serial) :=
  schedule_changes s _

theorem fileEntry_changes (s : State) (e : ScheduleEntry) : OnlyChanges [.schedule] s (s.fileEntry e) := by
  unfold State.fileEntry
  split <;> exact schedule_changes s _

theorem releaseEntry_changes (s : State) (e : ScheduleEntry) : OnlyChanges [.outputs] s (s.releaseEntry e) := by
  unfold State.releaseEntry
  split
  · exact release_changes s _ _
  · exact .refl _ s

theorem endEntry_changes (s : State) (e : ScheduleEntry) (r : FiringResult) :
    OnlyChanges [.outputs, .schedule, .items] s (s.endEntry e r) :=
  ((releaseEntry_changes s e).mono.trans (dropEntry_changes _ _).mono).trans (mapRecord_changes _ _ _).mono

theorem endReported_changes (s : State) (e : ScheduleEntry) (r : FiringResult) :
    OnlyChanges [.outputs, .schedule, .items, .notices, .lanes, .agenda] s (s.endReported e r) :=
  (endEntry_changes s e r).mono.trans (checkDone_changes _ _).mono

theorem dropEntries_changes (s : State) (rid : Nat) : OnlyChanges [.outputs, .schedule] s (s.dropEntries rid) :=
  ((OnlyChanges.foldl _ releaseEntry_changes _ s).mono).trans (schedule_changes _ _).mono

theorem dropWindows_changes (s : State) (rid : Nat) : OnlyChanges [.windows] s (s.dropWindows rid) := by
  intro b h; cases b <;> first | rfl | simp at h

theorem resolveWindow_changes (s : State) (i : InputId) (rid : Nat) (r : ConfirmResult) :
    OnlyChanges [.windows, .items, .notices, .lanes, .agenda] s (s.resolveWindow i rid r) :=
  ((mapWindows_changes s i _).mono.trans (mapRecord_changes _ _ _).mono).trans (checkDone_changes _ _).mono

theorem abandonItem_changes (s : State) (rid : Nat) :
    OnlyChanges [.items, .notices, .lanes, .outputs, .schedule, .windows] s (s.abandonItem rid) := by
  unfold State.abandonItem
  split
  · exact .refl _ s
  · exact (((dropEntries_changes s rid).mono.trans (dropWindows_changes _ _).mono).trans
      (dropRecord_changes _ _).mono).trans (becomeDone_changes _ _ _).mono

/-- R23: an abandon touches the records, their entries and windows, the holds of those entries, and the notices. -/
theorem abandon_changes (s : State) (l : LaneId) :
    OnlyChanges [.items, .notices, .lanes, .outputs, .schedule, .windows] s (s.abandon l) :=
  OnlyChanges.foldl _ abandonItem_changes _ s

theorem discardRecord_changes (s : State) (rid : Nat) :
    OnlyChanges [.items, .notices, .outputs, .schedule, .windows] s (s.discardRecord rid) :=
  (((dropEntries_changes s rid).mono.trans (dropWindows_changes _ _).mono).trans
    (dropRecord_changes _ _).mono).trans (notices_changes _ _).mono

theorem discardAll_changes (s : State) (l : LaneId) :
    OnlyChanges [.items, .notices, .outputs, .schedule, .windows] s (s.discardAll l) :=
  OnlyChanges.foldl _ discardRecord_changes _ s

theorem discardLane_changes (s : State) (l : LaneId) :
    OnlyChanges [.items, .notices, .lanes, .outputs, .schedule, .windows] s (s.discardLane l) := by
  unfold State.discardLane
  split
  · exact (discardAll_changes s l).mono.trans (admit_changes _).mono
  · exact (discardAll_changes s l).mono

/-! ### Lane Controller -/

theorem toLaneState_changes (s : State) (l : LaneId) (st : LaneState) :
    OnlyChanges [.items, .notices, .lanes] s (s.toLaneState l st) :=
  (mapLane_changes s l _).mono.trans (raiseLane_changes _ _)

theorem emptyAdvance_changes (s : State) (l : LaneId) : OnlyChanges [.verdicts] s (s.emptyAdvance l) :=
  verdicts_changes s _

theorem enterOff_changes (s : State) (l : LaneId) :
    OnlyChanges [.items, .notices, .lanes, .verdicts] s (s.enterOff l) := by
  unfold State.enterOff
  simp only
  have h : OnlyChanges [.items, .notices, .lanes, .verdicts] s
      ((s.emptyAdvance l).mapLane l (fun lane => { lane with blanked := false })) :=
    (emptyAdvance_changes s l).mono.trans (mapLane_changes _ _ _).mono
  split
  · exact h
  · exact h.trans (toLaneState_changes _ _ _).mono

theorem reportCount_changes (s : State) (l : LaneId) :
    OnlyChanges [.items, .notices, .lanes, .verdicts] s (s.reportCount l) := by
  unfold State.reportCount
  split
  · exact enterOff_changes s l
  · exact .refl _ s

theorem countUntracked_changes (s : State) (l : LaneId) : OnlyChanges [.lanes] s (s.countUntracked l) :=
  mapLane_changes s l _

theorem enterFault_changes (s : State) (l : LaneId) (c : Cause) :
    OnlyChanges [.items, .notices, .lanes, .outputs, .schedule, .windows, .agenda] s (s.enterFault l c) := by
  unfold State.enterFault
  simp only
  have h := (mapLane_changes s l (fun lane =>
      { lane with causes := CauseSet.empty.add c, first := some c
                  struck := some { full := s.lanes[l].state = .run && s.noRoom l, stepped := false } })).mono
    (cs := [.items, .notices, .lanes, .outputs, .schedule, .windows, .agenda])
  have h2 := h.trans (toLaneState_changes _ l .fault).mono
  split
  · exact (h2.trans (abandon_changes _ _).mono).trans (push_changes _ _).mono
  · exact h2.trans (push_changes _ _).mono

theorem joinCause_changes (s : State) (l : LaneId) (c : Cause) :
    OnlyChanges [.items, .notices, .lanes, .outputs, .schedule, .windows, .agenda] s (s.joinCause l c) := by
  have h : OnlyChanges [.items, .notices, .lanes, .outputs, .schedule, .windows, .agenda] s
      (if s.lanes[l].causes.has c then s
        else (s.mapLane l (fun lane => { lane with causes := lane.causes.add c })).raiseLane l) := by
    split
    · exact .refl _ s
    · exact (mapLane_changes s l _).mono.trans (raiseLane_changes _ _).mono
  unfold State.joinCause
  simp only
  by_cases hc : c.abandons = true
  · rw [if_pos hc]
    exact (h.trans (abandon_changes _ _).mono).trans (push_changes _ _).mono
  · rw [if_neg hc]
    exact h

/-- R109 to R112: what a cause taken by a lane can change. -/
theorem takeCause_changes (s : State) (l : LaneId) (c : Cause) :
    OnlyChanges [.items, .notices, .lanes, .outputs, .schedule, .windows, .agenda] s (s.takeCause l c) := by
  unfold State.takeCause
  split
  · exact .refl _ s
  · exact enterFault_changes s l c
  · exact enterFault_changes s l c
  · exact joinCause_changes s l c

theorem sameMoment_changes (s : State) : OnlyChanges [.choices] s s.sameMoment.2 :=
  choose_changes s _

theorem offerAll_changes (s : State) (c : Cause) : OnlyChanges [.agenda, .choices] s (s.offerAll c) :=
  (sameMoment_changes s).mono.trans (pushEach_changes _ _).mono

theorem nextMoment_changes (s : State) : OnlyChanges [.lanes] s s.nextMoment := by
  intro b h; cases b <;> first | rfl | simp at h

theorem stepEnded_changes (s : State) : OnlyChanges [.lanes] s s.stepEnded := by
  intro b h; cases b <;> first | rfl | simp at h

theorem overrunSecond_of_room {s : State} {l : LaneId} (h : s.lanes[l].justFull = false) : s.overrunSecond l = s := by
  unfold State.overrunSecond
  rw [h]
  rfl

theorem overrunSecond_of_full {s : State} {l : LaneId} (h : s.lanes[l].justFull = true) :
    s.overrunSecond l = if Config.choice s.choices % 2 = 1
      then State.joinCause { s with choices := s.choices + 1 } l .overrun else { s with choices := s.choices + 1 } := by
  unfold State.overrunSecond
  rw [h]
  rfl

/-- R112: what an overrun taken second can change: the cause set with its notice, and the free value. -/
theorem overrunSecond_changes (s : State) (l : LaneId) :
    OnlyChanges [.items, .notices, .lanes, .outputs, .schedule, .windows, .agenda, .choices] s (s.overrunSecond l) := by
  unfold State.overrunSecond
  simp only
  split
  · split
    · exact (choose_changes s 2).mono.trans (joinCause_changes _ l _).mono
    · exact (choose_changes s 2).mono
  · exact .refl _ s

theorem laneHold_changes (s : State) (l : LaneId) :
    OnlyChanges [.items, .notices, .lanes, .outputs, .schedule, .windows, .agenda] s (s.laneHold l) := by
  unfold State.laneHold
  split
  · exact takeCause_changes s l _
  · exact .refl _ s

/-! ### Firing Scheduler -/

theorem goOn_changes (s : State) (e : ScheduleEntry) : OnlyChanges [.outputs, .schedule] s (s.goOn e) :=
  ((addHolder_changes s _ _).mono.trans (dropEntry_changes _ _).mono).trans (fileEntry_changes _ _).mono

theorem takeOn_changes (s : State) (e : ScheduleEntry) :
    OnlyChanges [.outputs, .schedule, .items] s (s.takeOn e) := by
  unfold State.takeOn
  split
  · exact endEntry_changes s e _
  · split
    · exact (goOn_changes s e).mono
    · exact endEntry_changes s e _

theorem takePoint_changes (s : State) (e : ScheduleEntry) :
    OnlyChanges [.outputs, .schedule, .items, .notices, .lanes, .agenda] s (s.takePoint e) := by
  unfold State.takePoint
  split
  · exact (takeOn_changes s e).mono
  · exact endReported_changes s e _
  · exact .refl _ s

theorem schedulePoint_changes (s : State) (serial : Nat) :
    OnlyChanges [.outputs, .schedule, .items, .notices, .lanes, .agenda] s (s.schedulePoint serial) := by
  unfold State.schedulePoint
  split
  · exact .refl _ s
  · split
    · exact takePoint_changes s _
    · exact .refl _ s

theorem offTime_changes (s : State) (serial : Nat) :
    OnlyChanges [.outputs, .schedule, .items, .notices, .lanes, .agenda] s (s.offTime serial) := by
  unfold State.offTime
  split
  · exact .refl _ s
  · split
    · exact endReported_changes s _ _
    · exact .refl _ s

theorem cutEntry_changes (s : State) (serial : Nat) :
    OnlyChanges [.outputs, .schedule, .items, .notices, .lanes, .agenda] s (s.cutEntry serial) := by
  unfold State.cutEntry
  split
  · exact .refl _ s
  · split
    · exact endReported_changes s _ _
    · exact .refl _ s

theorem inhibitActive_changes (s : State) : OnlyChanges [.agenda] s s.inhibitActive :=
  pushEach_changes s _

theorem reportInhibit_changes (s : State) (old : Bool) : OnlyChanges [.agenda] s (s.reportInhibit old) := by
  unfold State.reportInhibit
  split
  · exact inhibitActive_changes s
  · exact .refl _ s

/-! ### Confirm Monitor -/

theorem openWindow_changes (s : State) (i : InputId) (rid : Nat) : OnlyChanges [.windows] s (s.openWindow i rid) := by
  unfold State.openWindow
  split
  · exact .refl _ s
  · split
    · exact mapWindows_changes s i _
    · exact .refl _ s

theorem closeWindow_changes (s : State) (i : InputId) (rid : Nat) :
    OnlyChanges [.windows, .items, .notices, .lanes, .agenda] s (s.closeWindow i rid) := by
  unfold State.closeWindow
  split
  · exact .refl _ s
  · split
    · split
      · exact (mapWindows_changes s i _).mono
      · exact resolveWindow_changes s i _ _
    · exact .refl _ s

theorem stray_changes (s : State) (i : InputId) (c : Capture) : OnlyChanges [.notices] s (s.stray i c) := by
  unfold State.stray
  split
  · exact produce_changes s _ _
  · exact .refl _ s

theorem confirmEdge_changes (s : State) (i : InputId) (c : Capture) :
    OnlyChanges [.windows, .items, .notices, .lanes, .agenda] s (s.confirmEdge i c) := by
  unfold State.confirmEdge
  split
  · exact (stray_changes s i c).mono
  · exact resolveWindow_changes s i _ _

theorem resolveHolding_changes (n : Nat) (i : InputId) :
    ∀ s : State, OnlyChanges [.windows, .items, .notices, .lanes, .agenda, .choices] s (State.resolveHolding n i s) := by
  induction n with
  | zero => exact fun s => .refl _ s
  | succ n ih =>
    intro s
    unfold State.resolveHolding
    simp only
    split
    · exact .refl _ s
    · exact ((choose_changes s _).mono.trans (resolveWindow_changes _ _ _ _).mono).trans (ih _)

/-- R90: what the end of a run can change. -/
theorem endRun_changes (s : State) (i : InputId) (edge : Option Capture) :
    OnlyChanges [.windows, .items, .notices, .lanes, .agenda, .choices] s (s.endRun i edge) := by
  cases edge with
  | none => exact resolveHolding_changes _ i s
  | some c => exact (confirmEdge_changes s i c).mono.trans (resolveHolding_changes _ i _)

/-! ### Verdict Unit -/

theorem createEntry_changes (s : State) (it : Item) (k : Fin 4) (f : CommittedFiring) :
    OnlyChanges [.schedule] s (s.createEntry it k f) :=
  (schedule_changes s _).trans (fileEntry_changes _ _)

theorem createEntries_changes (s : State) (it : Item) (fs : List CommittedFiring) :
    OnlyChanges [.schedule] s (s.createEntries it fs) :=
  OnlyChanges.foldl (fun (s : State) (p : CommittedFiring × Fin 4) => s.createEntry it p.2 p.1)
    (fun s p => createEntry_changes s it p.2 p.1) _ s

theorem createWindow_changes (s : State) (it : Item) (c : Option CommittedConfirm) :
    OnlyChanges [.windows] s (s.createWindow it c) := by
  unfold State.createWindow
  split
  · exact .refl _ s
  · exact mapWindows_changes s _ _

theorem commitDecision_changes (s : State) (it : Item) (d : Decision) :
    OnlyChanges [.items, .notices, .lanes, .schedule, .windows] s (s.commitDecision it d) := by
  unfold State.commitDecision
  simp only
  split
  · exact (((createEntries_changes s it _).mono.trans (createWindow_changes _ _ _).mono).trans
      (mapRecord_changes _ _ _).mono).trans (raiseItem_changes _ _ _).mono
  · exact (mapRecord_changes s _ _).mono.trans (raiseItem_changes _ _ _).mono

/-- R43 to R47: what a commit can change. -/
theorem commit_changes (s : State) (l : LaneId) (rid : Nat) :
    OnlyChanges [.items, .notices, .lanes, .schedule, .windows] s (s.commit l rid) := by
  unfold State.commit
  split
  · exact .refl _ s
  · split
    · exact commitDecision_changes s _ _
    · exact .refl _ s

theorem dropAdvance_changes (s : State) (l : LaneId) (tag : Half) : OnlyChanges [.verdicts] s (s.dropAdvance l tag) :=
  verdicts_changes s _

/-! ### Points and edges -/

theorem jamPoint_changes (s : State) (l : LaneId) (rid : Nat) :
    OnlyChanges [.items, .notices, .lanes, .outputs, .schedule, .windows, .agenda] s (s.jamPoint l rid) := by
  unfold State.jamPoint
  split
  · exact .refl _ s
  · split
    · exact (mapRecord_changes s rid _).mono.trans (takeCause_changes _ _ _)
    · exact .refl _ s

theorem leaveQueue_changes (s : State) (it : Item) :
    OnlyChanges [.items, .notices, .lanes, .agenda] s (s.leaveQueue it) := by
  unfold State.leaveQueue
  simp only
  split
  · exact ((dropRecord_changes s _).mono.trans (becomeDone_changes _ _ _).mono).trans (push_changes _ _).mono
  · exact (dropRecord_changes s _).mono.trans (items_changes _ _).mono

theorem exitPoint_changes (s : State) (l : LaneId) (rid : Nat) :
    OnlyChanges [.items, .notices, .lanes, .agenda, .verdicts] s (s.exitPoint l rid) := by
  unfold State.exitPoint
  split
  · exact .refl _ s
  · split
    · exact (leaveQueue_changes s _).mono.trans (reportCount_changes _ _).mono
    · exact .refl _ s

theorem takeCreated_changes (s : State) (e : Event) :
    OnlyChanges [.items, .notices, .lanes, .outputs, .schedule, .windows, .agenda] s (s.takeCreated e) := by
  unfold State.takeCreated
  split
  · exact jamPoint_changes s _ _
  · exact (commit_changes s _ _).mono
  · exact (schedulePoint_changes s _).mono
  · exact (openWindow_changes s _ _).mono
  · exact (closeWindow_changes s _ _).mono
  · exact .refl _ s

theorem takeReached_changes (n : Nat) (l : LaneId) (rid : Nat) :
    ∀ s : State, OnlyChanges
      [.items, .notices, .lanes, .outputs, .schedule, .windows, .agenda, .verdicts, .choices] s
      (State.takeReached n l rid s) := by
  induction n with
  | zero => exact fun s => .refl _ s
  | succ n ih =>
    intro s
    unfold State.takeReached
    split
    · exact .refl _ s
    · simp only
      split
      · exact ((choose_changes s _).mono.trans (takeCreated_changes _ _).mono).trans (ih _)
      · split
        · exact (exitPoint_changes s _ _).mono
        · exact .refl _ s

theorem addItem_changes (s : State) (l : LaneId) (it : Item) :
    OnlyChanges [.items, .verdicts, .lanes] s (s.addItem l it) :=
  ((items_changes s _).mono.trans (dropAdvance_changes _ _ _).mono).trans (mapLane_changes _ _ _).mono

theorem createItem_changes (s : State) (l : LaneId) (c : Capture) :
    OnlyChanges [.items, .notices, .lanes, .outputs, .schedule, .windows, .agenda, .verdicts, .choices] s
      (s.createItem l c) :=
  ((addItem_changes s l _).mono.trans (raiseItem_changes _ _ _).mono).trans (takeReached_changes _ _ _ _)

theorem leadingEdge_changes (s : State) (l : LaneId) (c : Capture) :
    OnlyChanges [.items, .notices, .lanes, .outputs, .schedule, .windows, .agenda, .verdicts, .choices] s
      (s.leadingEdge l c) := by
  unfold State.leadingEdge
  split
  · exact .refl _ s
  · split
    · exact .refl _ s
    · split
      · exact (countUntracked_changes s l).mono.trans (takeCause_changes _ _ _).mono
      · exact createItem_changes s l c
  · split
    · exact (countUntracked_changes s l).mono
    · exact .refl _ s
  · split
    · exact (countUntracked_changes s l).mono.trans (overrunSecond_changes _ l).mono
    · exact .refl _ s

theorem trailingEdge_changes (s : State) (l : LaneId) (c : Capture) : OnlyChanges [.items] s (s.trailingEdge l c) := by
  unfold State.trailingEdge
  split
  · exact setQueue_changes s l _
  · exact .refl _ s

/-! ### Timer Unit and Reaction Table -/

theorem reportExpiry_changes (s : State) (t : TimerId) : OnlyChanges [.notices, .agenda] s (s.reportExpiry t) := by
  unfold State.reportExpiry
  simp only
  split
  · exact (produce_changes s _ _).mono.trans (push_changes _ _).mono
  · exact (push_changes s _).mono

/-- R147: a tick taken by the Timer Unit changes the timers and hands their expiries on. -/
theorem tickTimers_changes (s : State) : OnlyChanges [.timers, .agenda] s s.tickTimers := by
  intro b h; cases b <;> first | rfl | simp at h

/-- R154: an action touches nothing beyond its own owner; LANE_HOLD reaches what a cause reaches. -/
theorem perform_changes (s : State) (r : ReactionId) :
    OnlyChanges [.items, .notices, .lanes, .outputs, .schedule, .windows, .agenda, .timers] s (s.perform r) := by
  unfold State.perform
  split
  · exact .refl _ s
  · exact (mapGeneral_changes s _ _).mono
  · exact (mapGeneral_changes s _ _).mono
  · exact (outPulse_changes s _ _).mono
  · exact (mapTimer_changes s _ _).mono
  · exact (mapTimer_changes s _ _).mono
  · exact (laneHold_changes s _).mono
  · exact (produce_changes s _ _).mono
  · exact (produce_changes s _ _).mono

theorem performAll_changes (s : State) (c : List ReactionId) :
    OnlyChanges [.items, .notices, .lanes, .outputs, .schedule, .windows, .agenda, .timers, .reactions] s
      (s.performAll c) :=
  ((OnlyChanges.foldl _ perform_changes c s).mono).trans
    ((OnlyChanges.foldl _ (fun s r => mapReaction_changes s r _) c _).mono)

theorem takeTrigger_changes (s : State) (e : TriggerEvent) :
    OnlyChanges [.items, .notices, .lanes, .outputs, .schedule, .windows, .agenda, .timers, .reactions] s
      (s.takeTrigger e) :=
  performAll_changes s _

/-! ### Input Conditioner -/

theorem deliverEntry_changes (s : State) (i : InputId) (e : Edge) (c : Capture) :
    OnlyChanges [.items, .notices, .lanes, .outputs, .schedule, .windows, .agenda, .verdicts, .choices] s
      (s.deliverEntry i e c) := by
  unfold State.deliverEntry
  split
  · exact .refl _ s
  · exact leadingEdge_changes s _ c
  · unfold State.laneDeactivation
    split
    · exact (mapLane_changes s _ _).mono
    · exact (trailingEdge_changes s _ c).mono

theorem deliverConfirm_changes (s : State) (i : InputId) (e : Edge) (c : Capture) :
    OnlyChanges [.windows, .items, .notices, .lanes, .agenda, .choices] s (s.deliverConfirm i e c) :=
  endRun_changes s i _

theorem deliverGeneral_changes (s : State) (i : InputId) (e : Edge) (c : Capture) :
    OnlyChanges [.notices, .agenda] s (s.deliverGeneral i e c) := by
  unfold State.deliverGeneral
  simp only
  split
  · split
    · exact (produce_changes s _ _).mono.trans (push_changes _ _).mono
    · exact (push_changes s _).mono
  · exact .refl _ s

/-- R134, R138 to R141: what an accepted transition can change before the events it gives are taken. -/
theorem accept_changes (s : State) (i : InputId) (v : Level) (c : Capture) :
    OnlyChanges [.items, .notices, .lanes, .outputs, .schedule, .windows, .agenda, .verdicts, .choices, .inputs] s
      (s.accept i v c) := by
  have h (f : Input → Input) := (mapInput_changes s i f).mono
    (cs := [.items, .notices, .lanes, .outputs, .schedule, .windows, .agenda, .verdicts, .choices, .inputs])
  unfold State.accept
  simp only
  split
  · exact h _
  · exact (h _).trans (deliverEntry_changes _ _ _ _).mono
  · exact (h _).trans (deliverConfirm_changes _ _ _ _).mono
  · exact (h _).trans (reportInhibit_changes _ _).mono
  · exact (h _).trans (deliverGeneral_changes _ _ _ _).mono

theorem settleInput_changes (s : State) (i : InputId) : OnlyChanges [.inputs] s (s.settleInput i) := by
  unfold State.settleInput
  split
  · exact mapInput_changes s i _
  · exact .refl _ s

theorem takeRequested_changes (s : State) (i : InputId) (raw : Level) :
    OnlyChanges [.inputs, .agenda] s (s.takeRequested i raw) :=
  (mapInput_changes s i _).mono.trans (reportInhibit_changes _ _).mono

theorem compare_changes (s : State) (i : InputId) (raw : Level) :
    OnlyChanges
      [.items, .notices, .lanes, .outputs, .schedule, .windows, .agenda, .verdicts, .choices, .inputs, .pins] s
      (s.compare i raw) := by
  have h := (showPin_changes s i raw).mono
    (cs := [.items, .notices, .lanes, .outputs, .schedule, .windows, .agenda, .verdicts, .choices, .inputs, .pins])
  unfold State.compare
  simp only
  split
  · exact h.trans (settleInput_changes _ _).mono
  · split
    · exact h
    · split
      · exact h
      · exact h.trans (takeRequested_changes _ _ _).mono
      · split
        · exact h.trans (mapInput_changes _ _ _).mono
        · split
          · exact h.trans (mapInput_changes _ _ _).mono
          · exact h.trans (accept_changes _ _ _ _).mono

theorem sample_changes (s : State) (i : InputId) (r : Run) (v : Level) :
    OnlyChanges
      [.items, .notices, .lanes, .outputs, .schedule, .windows, .agenda, .verdicts, .choices, .inputs, .pins] s
      (s.sample i r v) := by
  have h := (showPin_changes s i v).mono
    (cs := [.items, .notices, .lanes, .outputs, .schedule, .windows, .agenda, .verdicts, .choices, .inputs, .pins])
  unfold State.sample
  simp only
  split
  · split
    · exact h.trans (accept_changes _ _ _ _).mono
    · exact h.trans (mapInput_changes _ _ _).mono
  · unfold State.abandonRun
    simp only
    split
    · exact (h.trans (mapInput_changes _ _ _).mono).trans (endRun_changes _ _ _).mono
    · exact h.trans (mapInput_changes _ _ _).mono

theorem takeSample_changes (s : State) (i : InputId) :
    OnlyChanges
      [.items, .notices, .lanes, .outputs, .schedule, .windows, .agenda, .verdicts, .choices, .inputs, .pins] s
      (s.takeSample i) := by
  unfold State.takeSample
  split
  · exact compare_changes s i _
  · exact sample_changes s i _ _

/-! ### Position Unit -/

theorem offerStep_changes (s : State) : OnlyChanges [.agenda] s s.offerStep := by
  refine ((OnlyChanges.foldl (bs := [.agenda]) _ ?_ allLanes s).trans (pushEach_changes _ _)).trans (pushEach_changes _ _)
  intro acc l
  exact ((push_changes acc _).trans (push_changes _ _)).trans (pushEach_changes _ _)

theorem stepForward_changes (s : State) : OnlyChanges [.position, .agenda] s s.stepForward := by
  unfold State.stepForward
  simp only
  split
  · exact (position_changes s _).mono.trans (offerStep_changes _).mono
  · exact (position_changes s _).mono

theorem stepReverse_changes (s : State) : OnlyChanges [.position, .agenda, .choices] s s.stepReverse := by
  unfold State.stepReverse
  simp only
  split
  · exact (position_changes s _).mono.trans (offerAll_changes _ _).mono
  · exact (position_changes s _).mono

theorem setReference_changes (s : State) (r : Level × Level) : OnlyChanges [.position] s (s.setReference r) :=
  position_changes s _

theorem illegal_changes (s : State) : OnlyChanges [.position, .agenda, .choices] s s.illegal :=
  (position_changes s _).mono.trans (offerAll_changes _ _).mono

theorem quadrature_changes (s : State) (old : Level × Level) : OnlyChanges [.position, .agenda, .choices] s (s.quadrature old) := by
  unfold State.quadrature
  simp only
  split
  · exact illegal_changes s
  · split <;>
      (split
       · exact (stepForward_changes s).mono
       · split
         · exact stepReverse_changes s
         · exact .refl _ s)

theorem pulseStep_changes (s : State) (old : Level × Level) : OnlyChanges [.position, .agenda, .choices] s (s.pulseStep old) := by
  unfold State.pulseStep
  split
  · split
    · exact stepReverse_changes s
    · exact (stepForward_changes s).mono
  · exact .refl _ s

/-- R119 to R122: a change of the channels moves the belt and offers points or causes; nothing else. -/
theorem decode_changes (s : State) (new : Level × Level) : OnlyChanges [.position, .agenda, .choices] s (s.decode new) := by
  have h := (setReference_changes s new).mono (cs := [.position, .agenda, .choices])
  unfold State.decode
  simp only
  split
  · exact h.trans (quadrature_changes _ _)
  · exact h.trans (quadrature_changes _ _)
  · exact h.trans (pulseStep_changes _ _)
  · exact h.trans (pulseStep_changes _ _)

theorem setPins_changes (s : State) (r : Level × Level) : OnlyChanges [.position] s (s.setPins r) :=
  position_changes s _

theorem setChannels_changes (s : State) (r : Level × Level) : OnlyChanges [.position] s (s.setChannels r) :=
  (setPins_changes s r).trans (setReference_changes _ r)

theorem flipChannel_changes (s : State) (c : Channel) : OnlyChanges [.position] s (s.flipChannel c) := by
  cases c <;> exact position_changes s _

/-- R119: a sample of the channels reaches what the decoder reaches. -/
theorem sampleChannels_changes (s : State) : OnlyChanges [.position, .agenda, .choices] s s.sampleChannels := by
  unfold State.sampleChannels
  simp only
  split
  · exact (position_changes s _).mono
  · exact (position_changes s _).mono.trans (decode_changes _ _)

theorem tick_changes (s : State) : OnlyChanges [.position, .agenda] s s.tick :=
  (position_changes s _).mono.trans (pushEach_changes _ _).mono

theorem ackTick_changes (s : State) : OnlyChanges [.notices] s s.ackTick :=
  notices_changes s _

/-! ### The events of a moment -/

/-- No event of a moment moves the belt or the time, touches an input, the line or the pins. -/
theorem handle_changes (s : State) (e : Event) :
    OnlyChanges [.items, .notices, .lanes, .outputs, .schedule, .windows, .agenda, .verdicts, .timers, .reactions] s
      (s.handle e) := by
  unfold State.handle
  split
  · exact (commit_changes s _ _).mono
  · exact (jamPoint_changes s _ _).mono
  · exact (exitPoint_changes s _ _).mono
  · exact (schedulePoint_changes s _).mono
  · exact (openWindow_changes s _ _).mono
  · exact (closeWindow_changes s _ _).mono
  · exact (offTime_changes s _).mono
  · exact (endPulse_changes s _).mono
  · exact (tickTimers_changes s).mono
  · exact (reportExpiry_changes s _).mono
  · exact (ackTick_changes s).mono
  · exact (cutEntry_changes s _).mono
  · exact (inhibitOutputs_changes s).mono
  · exact (takeCause_changes s _ _).mono
  · exact (takeTrigger_changes s _).mono

theorem takeOne_changes (s : State) :
    OnlyChanges
      [.items, .notices, .lanes, .outputs, .schedule, .windows, .agenda, .verdicts, .timers, .reactions, .choices] s
      s.takeOne := by
  unfold State.takeOne
  simp only
  split
  · exact (choose_changes s _).mono.trans (agenda_changes _ _).mono
  · exact ((choose_changes s _).mono.trans (agenda_changes _ _).mono).trans (handle_changes _ _).mono

theorem settle_changes (n : Nat) :
    ∀ s : State, OnlyChanges
      [.items, .notices, .lanes, .outputs, .schedule, .windows, .agenda, .verdicts, .timers, .reactions, .choices] s
      (State.settle n s) := by
  induction n with
  | zero => exact fun s => .refl _ s
  | succ n ih =>
    intro s
    unfold State.settle
    split
    · exact .refl _ s
    · exact (takeOne_changes s).trans (ih _)

theorem grant_changes (s : State) : OnlyChanges [.items, .notices, .link] s s.grant := by
  unfold State.grant
  split
  · exact .refl _ s
  · split
    · exact (link_changes s _).mono
    · exact sendNotice_changes s

/-- The end of an event moves neither the belt nor the time and touches no input, no pin and no waiting command. -/
theorem finish_changes (s : State) :
    OnlyChanges
      [.items, .notices, .lanes, .outputs, .schedule, .windows, .agenda, .verdicts, .timers, .reactions, .choices,
        .link] s s.finish :=
  (settle_changes _ s).mono.trans (grant_changes _).mono

/-- R117: the end of an event moves the mark of a fresh fault alone. -/
theorem ended_changes (s t : State) : OnlyChanges [.lanes] t (s.ended t) := by
  unfold State.ended
  split
  · exact .refl _ t
  · exact stepEnded_changes t

theorem runChannels_changes (n : Nat) :
    ∀ s : State, OnlyChanges
      [.items, .notices, .lanes, .outputs, .schedule, .windows, .agenda, .verdicts, .timers, .reactions, .choices,
        .link, .position] s (State.runChannels n s) := by
  induction n with
  | zero => exact fun s => .refl _ s
  | succ n ih =>
    intro s
    unfold State.runChannels
    exact (((sampleChannels_changes s).mono.trans (finish_changes _).mono).trans (ended_changes s _).mono).trans (ih _)

/-! ### What is left of a µs -/

/-- One thing left of a µs, taken: the belt moves by the channels alone, and the line is not touched. -/
theorem takeLeftover_changes (s : State) (e : Leftover) :
    OnlyChanges
      [.items, .notices, .lanes, .outputs, .schedule, .windows, .agenda, .verdicts, .timers, .reactions, .choices,
        .position, .inputs, .pins] s (s.takeLeftover e) := by
  cases e with
  | channels => exact (sampleChannels_changes s).mono
  | tick => exact (tick_changes s).mono
  | input i => exact (takeSample_changes s i).mono

theorem takeLeftovers_changes (n : Nat) :
    ∀ s : State, OnlyChanges
      [.items, .notices, .lanes, .outputs, .schedule, .windows, .agenda, .verdicts, .timers, .reactions, .choices,
        .position, .inputs, .pins, .link] s (State.takeLeftovers n s) := by
  induction n with
  | zero => exact fun s => .refl _ s
  | succ n ih =>
    intro s
    unfold State.takeLeftovers
    simp only
    split
    · exact .refl _ s
    · exact ((((choose_changes s _).mono.trans (takeLeftover_changes _ _).mono).trans (finish_changes _).mono).trans
        (ended_changes _ _).mono).trans (ih _)

theorem openSamples_changes (s : State) : OnlyChanges [.inputs] s s.openSamples := by
  intro b h; cases b <;> first | rfl | simp at h

/-- What is left of a µs does not touch the waiting commands; the line is touched by the grants alone. -/
theorem endMicro_changes (s : State) :
    OnlyChanges
      [.items, .notices, .lanes, .outputs, .schedule, .windows, .agenda, .verdicts, .timers, .reactions, .choices,
        .position, .inputs, .pins, .link] s s.endMicro :=
  (OnlyChanges.foldl _ settleInput_changes _ _).mono.trans (takeLeftovers_changes _ _)

end Sys2Proof.Machine
end

