-- ==== Sys2Proof/Laws/Requests.lean ====
section
/-! SUPPORT. Requests: what executing one can change, how one is taken and answered, and what its payload reads back as. -/

namespace Sys2Proof.Machine

set_option Elab.async false

/-! ### The end of a command -/

/-- With no event of the moment left there is nothing to settle. -/
theorem settle_empty (n : Nat) (s : State) (h : s.agenda = []) : State.settle n s = s := by
  cases n with
  | zero => rfl
  | succ n => unfold State.settle; rw [h]

/-- Without a notice frame the Notice Queue sends nothing. -/
theorem sendNotice_none (s : State) (h : s.notices.hasFrame = false) : s.sendNotice = s := by
  unfold State.sendNotice
  by_cases hs : s.notices.stalled = true
  · rw [if_pos hs]
  · rw [if_neg hs]
    simp only [Notices.hasFrame, hs, Bool.not_false, Bool.true_and, Bool.or_eq_false_iff] at h
    have hr : s.notices.sent.find? (·.resend) = none := by
      rw [List.find?_eq_none]
      intro e he hre
      have := List.any_eq_false.mp h.1 e he
      exact this hre
    rw [hr]
    simp only
    by_cases hw : s.notices.sent.length < s.notices.settings.window
    · have hu : s.notices.unsent = [] := by
        have := h.2
        simp only [hw, decide_true, Bool.true_and, Bool.not_eq_false'] at this
        simpa using this
      rw [if_pos hw]
      simp [Notices.firstUnsent, hu]
    · rw [if_neg hw]

/-- A state with nothing left to do stays as it is at the end of a command. -/
theorem finish_quiet (s : State) (h : s.quiet) : s.finish = s := by
  unfold State.finish
  rw [settle_empty _ s h.1]
  unfold State.grant
  rcases h.2 with ht | ⟨hr, hf⟩
  · rw [if_pos ht]
  · by_cases ht : s.link.transmitter ≠ .idle
    · rw [if_pos ht]
    · rw [if_neg ht, if_neg (by simp [hr]), sendNotice_none s hf]

/-- A reply that waits while the transmitter is IDLE begins to be sent at the end of the command. -/
theorem finish_reply (s : State) (h : s.agenda = []) (r : ReplySlot) (hs : s.link.slot = some r)
    (hb : r.begun = false) (ht : s.link.transmitter = .idle) : s.finish = { s with link := s.link.beginReply } := by
  unfold State.finish
  rw [settle_empty _ s h]
  unfold State.grant
  rw [if_neg (by simp [ht]), if_pos (by simp [Link.replyWaits, hs, hb])]

/-- While the transmitter is busy the end of a command takes the events of the moment and no more. -/
theorem finish_busy (s : State) (h : s.agenda = []) (ht : s.link.transmitter ≠ .idle) : s.finish = s :=
  finish_quiet s ⟨h, Or.inl ht⟩

/-! ### What executing a request can change -/

theorem named_changes {bs : List Block} (s : State) (n : Nat) (b : Byte) (f : Fin n → Answer)
    (h : ∀ i, OnlyChanges bs s (f i).2) : OnlyChanges bs s (s.named n b f).2 := by
  unfold State.named
  split
  · exact .refl _ s
  · exact h _

theorem refuse_changes {bs : List Block} (s : State) (st : Status) : OnlyChanges bs s (s.refuse st).2 :=
  .refl _ s

theorem reqAckNotice_changes (s : State) (n : Byte) :
    OnlyChanges [.items, .notices, .lanes] s (s.reqAckNotice n).2 :=
  ackNotice_changes s n

theorem reqSetNotice_changes (s : State) (f : NoticeFields) :
    OnlyChanges [.items, .notices, .lanes] s (s.reqSetNotice f).2 := by
  unfold State.reqSetNotice
  split
  · exact .refl _ s
  · exact (notices_changes s _).mono.trans (admit_changes _)

theorem reqSetLane_changes (s : State) (lane : Byte) (f : LaneFields) :
    OnlyChanges [.lanes] s (s.reqSetLane lane f).2 := by
  refine named_changes s _ _ _ (fun l => ?_)
  split
  · exact .refl _ s
  · split
    · exact .refl _ s
    · exact mapLane_changes s l _

theorem armLane_changes (s : State) (l : LaneId) :
    OnlyChanges [.lanes, .position, .items, .notices] s (s.armLane l) :=
  ((position_changes s _).mono.trans (mapLane_changes _ _ _).mono).trans (toLaneState_changes _ _ _).mono

theorem reqArm_changes (s : State) (lane : Byte) :
    OnlyChanges [.lanes, .position, .items, .notices] s (s.reqArm lane).2 := by
  refine named_changes s _ _ _ (fun l => ?_)
  split
  · exact .refl _ s
  · split
    · exact .refl _ s
    · exact armLane_changes s l

theorem reqDisarm_changes (s : State) (lane : Byte) :
    OnlyChanges [.items, .notices, .lanes, .verdicts] s (s.reqDisarm lane).2 := by
  refine named_changes s _ _ _ (fun l => ?_)
  split
  · exact .refl _ s
  · exact .refl _ s
  · split
    · exact enterOff_changes s l
    · exact (toLaneState_changes s l _).mono
  · split
    · exact enterOff_changes s l
    · split
      · exact .refl _ s
      · exact (toLaneState_changes s l _).mono

theorem reqClear_changes (s : State) (lane : Byte) :
    OnlyChanges [.items, .notices, .lanes, .outputs, .schedule, .windows, .verdicts] s (s.reqClear lane).2 :=
  named_changes s _ _ _ (fun l => (discardLane_changes s l).mono.trans (enterOff_changes _ l).mono)

theorem reqSetDisposition_changes (s : State) (index : Byte) (fs : List FiringField) (present : Byte)
    (c : Option ConfirmField) : OnlyChanges [.verdicts] s (s.reqSetDisposition index fs present c).2 := by
  refine named_changes s _ _ _ (fun i => ?_)
  split
  · exact .refl _ s
  · split
    · exact .refl _ s
    · split
      · exact verdicts_changes s _
      · exact .refl _ s

theorem reqVerdict_changes (s : State) (lane : Byte) (tag : Half) (index : Byte) :
    OnlyChanges [.items, .verdicts] s (s.reqVerdict lane tag index).2 := by
  refine named_changes s _ _ _ (fun l => named_changes s _ _ _ (fun k => ?_))
  split
  · unfold State.verdictFor
    split
    · split
      · exact (mapRecord_changes s _ _).mono
      · exact .refl _ s
    · split
      · exact .refl _ s
      · split
        · exact (verdicts_changes s _).mono
        · exact .refl _ s
  · exact .refl _ s

theorem reqGetItem_state (s : State) (lane : Byte) (tag : Half) : (s.reqGetItem lane tag).2 = s := by
  unfold State.reqGetItem State.named
  split
  · rfl
  · simp only
    split <;> rfl

theorem reqListItems_state (s : State) (lane start : Byte) : (s.reqListItems lane start).2 = s := by
  unfold State.reqListItems State.named
  split
  · rfl
  · simp only
    split <;> rfl

theorem reqGetLane_state (s : State) (lane : Byte) : (s.reqGetLane lane).2 = s := by
  unfold State.reqGetLane State.named
  split <;> rfl

theorem reqGetConfig_state (s : State) (kind index : Byte) : (s.reqGetConfig kind index).2 = s := by
  unfold State.reqGetConfig
  split <;> rfl

theorem reqSetOutput_changes (s : State) (output role polarity lane : Byte) :
    OnlyChanges [.outputs] s (s.reqSetOutput output role polarity lane).2 := by
  refine named_changes s _ _ _ (fun o => ?_)
  split
  · split
    · exact .refl _ s
    · split
      · exact .refl _ s
      · exact mapOutput_changes s o _
  · exact .refl _ s

theorem forceReply_state (s : State) (o : OutputId) : (s.forceReply o).2 = s := rfl

theorem forceActuator_changes (s : State) (o : OutputId) (active : Bool) (pulse : Half) :
    OnlyChanges [.outputs] s (s.forceActuator o active pulse).2 := by
  unfold State.forceActuator
  split
  · exact .refl _ s
  · split
    · exact .refl _ s
    · split
      · exact .refl _ s
      · split
        · exact .refl _ s
        · split
          · split
            · exact .refl _ s
            · exact addHolder_changes s o _
          · exact release_changes s o _

theorem forceGeneral_changes (s : State) (o : OutputId) (active : Bool) (pulse : Half) :
    OnlyChanges [.outputs] s (s.forceGeneral o active pulse).2 := by
  unfold State.forceGeneral
  split
  · exact mapOutput_changes s o _
  · split
    · exact mapOutput_changes s o _
    · split
      · exact .refl _ s
      · exact mapOutput_changes s o _

theorem reqForceOutput_changes (s : State) (output level : Byte) (pulse : Half) :
    OnlyChanges [.outputs] s (s.reqForceOutput output level pulse).2 := by
  refine named_changes s _ _ _ (fun o => ?_)
  split
  · exact .refl _ s
  · split
    · exact .refl _ s
    · split
      · exact .refl _ s
      · exact .refl _ s
      · exact forceActuator_changes s o _ _
      · exact forceGeneral_changes s o _ _

theorem reqSetInput_changes (s : State) (input role active filter period stable edge : Byte) :
    OnlyChanges [.inputs, .agenda] s (s.reqSetInput input role active filter period stable edge).2 := by
  refine named_changes s _ _ _ (fun i => ?_)
  split
  · split
    · exact .refl _ s
    · split
      · exact .refl _ s
      · split
        · exact .refl _ s
        · exact (mapInput_changes s i _).mono.trans (reportInhibit_changes _ _).mono
  · exact .refl _ s

theorem reqSetEncoder_changes (s : State) (mode : Byte) (rl : Half) (ft : Byte) :
    OnlyChanges [.position] s (s.reqSetEncoder mode rl ft).2 := by
  unfold State.reqSetEncoder
  split
  · exact .refl _ s
  · split
    · exact position_changes s _
    · exact .refl _ s

theorem reqSetPosition_changes (s : State) (v : Pos) : OnlyChanges [.position] s (s.reqSetPosition v).2 := by
  unfold State.reqSetPosition
  split
  · exact position_changes s _
  · exact .refl _ s

theorem reqSetTimer_changes (s : State) (timer : Byte) (period : Half) (mode : Byte) :
    OnlyChanges [.timers] s (s.reqSetTimer timer period mode).2 := by
  refine named_changes s _ _ _ (fun t => ?_)
  split
  · exact .refl _ s
  · split
    · exact .refl _ s
    · exact mapTimer_changes s t _

theorem reqStartTimer_changes (s : State) (timer : Byte) : OnlyChanges [.timers] s (s.reqStartTimer timer).2 :=
  named_changes s _ _ _ (fun t => mapTimer_changes s t _)

theorem reqStopTimer_changes (s : State) (timer : Byte) : OnlyChanges [.timers] s (s.reqStopTimer timer).2 :=
  named_changes s _ _ _ (fun t => mapTimer_changes s t _)

theorem reqSetReaction_changes (s : State) (reaction : Byte) (f : ReactionFields) :
    OnlyChanges [.reactions] s (s.reqSetReaction reaction f).2 := by
  refine named_changes s _ _ _ (fun r => ?_)
  split
  · split
    · exact .refl _ s
    · exact mapReaction_changes s r _
  · exact .refl _ s

theorem reqEnableReaction_changes (s : State) (enable disable : Half) :
    OnlyChanges [.reactions] s (s.reqEnableReaction enable disable).2 := by
  unfold State.reqEnableReaction
  split
  · split
    · exact .refl _ s
    · split
      · exact .refl _ s
      · rename_i on off _ _ _ _
        exact OnlyChanges.foldl (fun (acc : State) (r : ReactionId) => acc.mapReaction r (fun x => x.masked r on off))
          (fun s r => mapReaction_changes s r _) allReactions s
  · exact .refl _ s

theorem reqFireReaction_changes (s : State) (reaction : Byte) :
    OnlyChanges [.items, .notices, .lanes, .outputs, .schedule, .windows, .agenda, .timers, .reactions] s
      (s.reqFireReaction reaction).2 := by
  refine named_changes s _ _ _ (fun r => ?_)
  split
  · exact performAll_changes s _
  · exact .refl _ s

theorem sized_changes {bs : List Block} (s : State) (p : List Byte) (n : Nat) (a : Answer)
    (h : OnlyChanges bs s a.2) : OnlyChanges bs s (s.sized p n a).2 := by
  unfold State.sized
  split
  · exact h
  · exact .refl _ s

theorem takeDisposition_changes (s : State) (p : List Byte) :
    OnlyChanges [.items, .verdicts, .schedule, .outputs, .windows, .lanes, .position, .inputs, .timers, .reactions,
      .notices, .agenda] s (s.takeDisposition p).2 := by
  unfold State.takeDisposition
  split
  · exact .refl _ s
  · exact sized_changes s _ _ _ (reqSetDisposition_changes s _ _ _ _).mono

theorem ite_changes {bs : List Block} {s : State} {c : Prop} [Decidable c] {a b : Answer}
    (h : OnlyChanges bs s a.2) (k : OnlyChanges bs s b.2) : OnlyChanges bs s (if c then a else b).2 := by
  split
  · exact h
  · exact k

/-- Executing a request leaves the line, the pins, the free values and the waiting commands alone. -/
theorem dispatch_changes (s : State) (kind : Byte) (p : List Byte) :
    OnlyChanges [.items, .verdicts, .schedule, .outputs, .windows, .lanes, .position, .inputs, .timers, .reactions,
      .notices, .agenda] s (s.dispatch kind p).2 := by
  unfold State.dispatch
  refine ite_changes (sized_changes s _ _ _ (.refl _ s)) ?_
  refine ite_changes (sized_changes s _ _ _ (.refl _ s)) ?_
  refine ite_changes (sized_changes s _ _ _ (by rw [reqGetConfig_state]; exact .refl _ s)) ?_
  refine ite_changes (sized_changes s _ _ _ (reqAckNotice_changes s _).mono) ?_
  refine ite_changes (sized_changes s _ _ _ (reqSetNotice_changes s _).mono) ?_
  refine ite_changes (sized_changes s _ _ _ (reqSetLane_changes s _ _).mono) ?_
  refine ite_changes (sized_changes s _ _ _ (by rw [reqGetLane_state]; exact .refl _ s)) ?_
  refine ite_changes (sized_changes s _ _ _ (reqArm_changes s _).mono) ?_
  refine ite_changes (sized_changes s _ _ _ (reqDisarm_changes s _).mono) ?_
  refine ite_changes (sized_changes s _ _ _ (reqClear_changes s _).mono) ?_
  refine ite_changes (takeDisposition_changes s p) ?_
  refine ite_changes (sized_changes s _ _ _ (reqVerdict_changes s _ _ _).mono) ?_
  refine ite_changes (sized_changes s _ _ _ (by rw [reqGetItem_state]; exact .refl _ s)) ?_
  refine ite_changes (sized_changes s _ _ _ (by rw [reqListItems_state]; exact .refl _ s)) ?_
  refine ite_changes (sized_changes s _ _ _ (reqSetOutput_changes s _ _ _ _).mono) ?_
  refine ite_changes (sized_changes s _ _ _ (reqForceOutput_changes s _ _ _).mono) ?_
  refine ite_changes (sized_changes s _ _ _ (reqSetInput_changes s _ _ _ _ _ _ _).mono) ?_
  refine ite_changes (sized_changes s _ _ _ (reqSetEncoder_changes s _ _ _).mono) ?_
  refine ite_changes (sized_changes s _ _ _ (reqSetPosition_changes s _).mono) ?_
  refine ite_changes (sized_changes s _ _ _ (.refl _ s)) ?_
  refine ite_changes (sized_changes s _ _ _ (reqSetTimer_changes s _ _ _).mono) ?_
  refine ite_changes (sized_changes s _ _ _ (reqStartTimer_changes s _).mono) ?_
  refine ite_changes (sized_changes s _ _ _ (reqStopTimer_changes s _).mono) ?_
  refine ite_changes (sized_changes s _ _ _ (reqSetReaction_changes s _ _).mono) ?_
  refine ite_changes (sized_changes s _ _ _ (reqEnableReaction_changes s _ _).mono) ?_
  refine ite_changes (sized_changes s _ _ _ (reqFireReaction_changes s _).mono) ?_
  exact .refl _ s

/-! ### A request taken at once -/

/-- The state in which a request that is taken at once is executed: STALLED has ended and the receiver hunts. -/
def State.received (s : State) : State :=
  { s with notices := s.notices.endStall, link := { s.link with receiver := .hunting } }

/-! `received` leaves every block but the Notice Queue and the link, and what is read from them. -/

@[simp] theorem received_items (s : State) : s.received.items = s.items := rfl

@[simp] theorem received_verdicts (s : State) : s.received.verdicts = s.verdicts := rfl

@[simp] theorem received_schedule (s : State) : s.received.schedule = s.schedule := rfl

@[simp] theorem received_outputs (s : State) : s.received.outputs = s.outputs := rfl

@[simp] theorem received_windows (s : State) : s.received.windows = s.windows := rfl

@[simp] theorem received_lanes (s : State) : s.received.lanes = s.lanes := rfl

@[simp] theorem received_position (s : State) : s.received.position = s.position := rfl

@[simp] theorem received_inputs (s : State) : s.received.inputs = s.inputs := rfl

@[simp] theorem received_timers (s : State) : s.received.timers = s.timers := rfl

@[simp] theorem received_reactions (s : State) : s.received.reactions = s.reactions := rfl

@[simp] theorem received_pins (s : State) : s.received.pins = s.pins := rfl

@[simp] theorem received_choices (s : State) : s.received.choices = s.choices := rfl

@[simp] theorem received_agenda (s : State) : s.received.agenda = s.agenda := rfl

@[simp] theorem received_pending (s : State) : s.received.pending = s.pending := rfl

@[simp] theorem received_notices (s : State) : s.received.notices = s.notices.endStall := rfl

@[simp] theorem received_inhibit (s : State) : s.received.inhibit = s.inhibit := rfl

@[simp] theorem received_allOff (s : State) : s.received.allOff = s.allOff := rfl

@[simp] theorem received_stationInUse (s : State) (o : OutputId) : s.received.stationInUse o = s.stationInUse o := rfl

@[simp] theorem received_holdOutputInUse (s : State) (o : OutputId) :
    s.received.holdOutputInUse o = s.holdOutputInUse o := rfl

@[simp] theorem received_entryInUse (s : State) (i : InputId) : s.received.entryInUse i = s.entryInUse i := rfl

@[simp] theorem received_holdCondition (s : State) (l : LaneId) : s.received.holdCondition l = s.holdCondition l := rfl

@[simp] theorem received_valid (s : State) (l : LaneId) (d : Disposition) : s.received.valid l d = s.valid l d := rfl

@[simp] theorem received_armChecks (s : State) (l : LaneId) : s.received.armChecks l = s.armChecks l := rfl

@[simp] theorem received_closure (s : State) (rs : List ReactionId) : s.received.closure rs = s.closure rs := rfl

/-- R180, R183: the link with the reply in the slot, before the grant. -/
def Link.replied (l : Link) (kind seq : Byte) (payload : List Byte) (resets : Bool) : Link :=
  let reply : Frame := { kind := kind + 0x40, seq := seq, payload := payload }
  { l with
    receiver := .hunting
    slot := some { frame := reply, begun := false, resets := resets }
    last := if kind = 0x04 then l.last else some { kind := kind, seq := seq, reply := reply } }

/-- The request that changes nothing but the link leaves it replied. -/
theorem place_replied (l : Link) (kind seq : Byte) (p q : List Byte) (resets : Bool) :
    Link.place { l with receiver := .hunting } { kind := kind, seq := seq, payload := p }
      (Frame.answer { kind := kind, seq := seq, payload := p } q) resets = l.replied kind seq q resets := rfl

/-- R180: a frame that joins an empty queue while the slot is empty is taken. -/
theorem takeNext_head (s : State) (f : Frame) (hs : s.link.slot = none) (hq : s.link.requests = []) :
    State.takeNext { s with link := { s.link with requests := s.link.requests ++ [f] } } = s.takeRequest f := by
  cases s with
  | mk items verdicts schedule outputs windows lanes position inputs timers reactions notices link pins choices agenda
      pending =>
    cases link with
    | mk baud receiver requests slot last transmitter badFrames overruns =>
      simp only at hs hq
      subst hs hq
      rfl

/-- R180 to R183: a request taken at once: it is executed on `received` and its reply stands in the slot as the events of
its moment are taken. -/
theorem request_taken (s : State) (kind seq : Byte) (p : List Byte) (h : s.takesNow kind seq) :
    s.request kind seq p = .next (State.finish
      { (s.received.dispatch kind p).2 with
        link := s.link.replied kind seq (s.received.dispatch kind p).1 (kind = 0x02 && p.isEmpty) }) := by
  obtain ⟨hq, hs, hd, _⟩ := h
  have hl : (s.received.dispatch kind p).2.link = { s.link with receiver := .hunting } :=
    dispatch_changes s.received kind p .link (by simp)
  have ha : s.acceptFrame { kind := kind, seq := seq, payload := p } =
      s.received.takeRequest { kind := kind, seq := seq, payload := p } := by
    unfold State.acceptFrame
    simp only
    rw [if_pos (by rw [hq]; decide)]
    exact takeNext_head s.received _ hs hq
  have hd' : s.received.link.isDuplicate { kind := kind, seq := seq, payload := p } = false := hd
  unfold State.request State.done
  rw [ha]
  unfold State.takeRequest
  rw [if_neg (by rw [hd']; simp)]
  simp only [hl]
  rfl

/-- A request taken at once that leaves no event of its moment: its reply stands in the slot, and begins to be sent when
the transmitter is IDLE. -/
theorem request_answered (s : State) (kind seq : Byte) (p : List Byte) (h : s.takesNow kind seq)
    (ha : (s.received.dispatch kind p).2.agenda = []) (hk : (kind = 0x02 && p.isEmpty) = false) :
    s.request kind seq p = .next
      { (s.received.dispatch kind p).2 with link := s.link.answered kind seq (s.received.dispatch kind p).1 } := by
  rw [request_taken s kind seq p h, hk]
  by_cases ht : s.link.transmitter = .idle
  · rw [finish_reply
      { (s.received.dispatch kind p).2 with
        link := s.link.replied kind seq (s.received.dispatch kind p).1 false } ha _ rfl rfl ht]
    simp [Link.beginReply, Link.replied, Link.answered, ht]
  · rw [finish_busy
      { (s.received.dispatch kind p).2 with
        link := s.link.replied kind seq (s.received.dispatch kind p).1 false } ha ht]
    simp [Link.replied, Link.answered, ht]

/-- A request taken at once that changes no block: the state answers. -/
theorem request_reads (s : State) (kind seq : Byte) (p payload : List Byte) (h : s.takesNow kind seq)
    (hd : s.received.dispatch kind p = (payload, s.received)) (hk : (kind = 0x02 && p.isEmpty) = false) :
    s.request kind seq p = .next (s.answers kind seq payload) := by
  rw [request_answered s kind seq p h (by rw [hd]; exact h.2.2.2) hk, hd]
  rfl

end Sys2Proof.Machine
end

