-- ==== Sys2Proof/Laws/Payloads.lean ====
section
/-! SUPPORT. The payload each request row sends reaches the block that owns the request with the fields it was given. -/

namespace Sys2Proof.Machine

set_option Elab.async false

/-- Both bytes of a 16-bit field. -/
theorem halfAt_cons_zero (h : Half) (p : List Byte) : halfAt (halfBytes h ++ p) 0 = h := half_join h

theorem dispatch_getStatus (s : State) : s.dispatch 0x01 [] = s.reqGetStatus := rfl

theorem dispatch_reset (s : State) : s.dispatch 0x02 [] = ([Status.ok.code], s) := rfl

theorem dispatch_getConfig (s : State) (k i : Byte) : s.dispatch 0x03 [k, i] = s.reqGetConfig k i := rfl

theorem dispatch_ackNotice (s : State) (n : Byte) : s.dispatch 0x04 [n] = s.reqAckNotice n := rfl

theorem noticeFields_join (n : NoticeFields) : noticeFieldsOf (NoticeFields.bytes n) = n := by
  cases n; simp [noticeFieldsOf, NoticeFields.bytes, halfAt, halfBytes, byteAt]

theorem dispatch_setNotice (s : State) (n : NoticeFields) :
    s.dispatch 0x05 (NoticeFields.bytes n) = s.reqSetNotice n := by
  have : s.dispatch 0x05 (NoticeFields.bytes n) = s.reqSetNotice (noticeFieldsOf (NoticeFields.bytes n)) := rfl
  rw [this, noticeFields_join]

theorem laneFields_join (l : Byte) (c : LaneFields) : laneFieldsOf (l :: LaneFields.bytes c) = c := by
  obtain ⟨e, d, x, l', ⟨o0, p0⟩, ⟨o1, p1⟩, ⟨o2, p2⟩, ⟨o3, p3⟩, df, lm, ho, hm⟩ := c
  simp [laneFieldsOf, LaneFields.bytes, StationField.bytes, wordAt, wordBytes, byteAt]
  exact ⟨word_join _, word_join _, word_join _, word_join _, word_join _, word_join _, word_join _⟩

theorem dispatch_setLane (s : State) (l : Byte) (c : LaneFields) :
    s.dispatch 0x08 (l :: LaneFields.bytes c) = s.reqSetLane l c := by
  have : s.dispatch 0x08 (l :: LaneFields.bytes c) = s.reqSetLane l (laneFieldsOf (l :: LaneFields.bytes c)) := rfl
  rw [this, laneFields_join]

theorem dispatch_getLane (s : State) (l : Byte) : s.dispatch 0x09 [l] = s.reqGetLane l := rfl

theorem dispatch_arm (s : State) (l : Byte) : s.dispatch 0x0A [l] = s.reqArm l := rfl

theorem dispatch_disarm (s : State) (l : Byte) : s.dispatch 0x0B [l] = s.reqDisarm l := rfl

theorem dispatch_clear (s : State) (l : Byte) : s.dispatch 0x0C [l] = s.reqClear l := rfl

theorem dispatch_verdict (s : State) (l : Byte) (tag : Half) (k : Byte) :
    s.dispatch 0x11 (l :: (halfBytes tag ++ [k])) = s.reqVerdict l tag k := by
  have : s.dispatch 0x11 (l :: (halfBytes tag ++ [k])) =
      s.reqVerdict l (tag.extractLsb' 8 8 ++ tag.extractLsb' 0 8) k := rfl
  rw [this, half_join]

theorem dispatch_getItem (s : State) (l : Byte) (tag : Half) :
    s.dispatch 0x12 (l :: halfBytes tag) = s.reqGetItem l tag := by
  have : s.dispatch 0x12 (l :: halfBytes tag) = s.reqGetItem l (tag.extractLsb' 8 8 ++ tag.extractLsb' 0 8) := rfl
  rw [this, half_join]

theorem dispatch_listItems (s : State) (l k : Byte) : s.dispatch 0x13 [l, k] = s.reqListItems l k := rfl

theorem dispatch_setOutput (s : State) (o r p l : Byte) : s.dispatch 0x18 [o, r, p, l] = s.reqSetOutput o r p l := rfl

theorem dispatch_forceOutput (s : State) (o v : Byte) (pulse : Half) :
    s.dispatch 0x19 (o :: v :: halfBytes pulse) = s.reqForceOutput o v pulse := by
  have : s.dispatch 0x19 (o :: v :: halfBytes pulse) =
      s.reqForceOutput o v (pulse.extractLsb' 8 8 ++ pulse.extractLsb' 0 8) := rfl
  rw [this, half_join]

theorem dispatch_setInput (s : State) (i r a f p n e : Byte) :
    s.dispatch 0x1C [i, r, a, f, p, n, e] = s.reqSetInput i r a f p n e := rfl

theorem dispatch_setEncoder (s : State) (m : Byte) (rl : Half) (ft : Byte) :
    s.dispatch 0x20 (m :: (halfBytes rl ++ [ft])) = s.reqSetEncoder m rl ft := by
  have : s.dispatch 0x20 (m :: (halfBytes rl ++ [ft])) =
      s.reqSetEncoder m (rl.extractLsb' 8 8 ++ rl.extractLsb' 0 8) ft := rfl
  rw [this, half_join]

theorem dispatch_setPosition (s : State) (v : Pos) : s.dispatch 0x21 (wordBytes v) = s.reqSetPosition v := by
  have : s.dispatch 0x21 (wordBytes v) = s.reqSetPosition
      (v.extractLsb' 24 8 ++ (v.extractLsb' 16 8 ++ (v.extractLsb' 8 8 ++ v.extractLsb' 0 8))) := rfl
  rw [this, word_join]

theorem dispatch_getPosition (s : State) : s.dispatch 0x22 [] = s.reqGetPosition := rfl

theorem dispatch_setTimer (s : State) (t : Byte) (period : Half) (m : Byte) :
    s.dispatch 0x28 (t :: (halfBytes period ++ [m])) = s.reqSetTimer t period m := by
  have : s.dispatch 0x28 (t :: (halfBytes period ++ [m])) =
      s.reqSetTimer t (period.extractLsb' 8 8 ++ period.extractLsb' 0 8) m := rfl
  rw [this, half_join]

theorem dispatch_startTimer (s : State) (t : Byte) : s.dispatch 0x29 [t] = s.reqStartTimer t := rfl

theorem dispatch_stopTimer (s : State) (t : Byte) : s.dispatch 0x2A [t] = s.reqStopTimer t := rfl

theorem reactionFields_join (r : Byte) (f : ReactionFields) : reactionFieldsOf (r :: ReactionFields.bytes f) = f := by
  cases f; simp [reactionFieldsOf, ReactionFields.bytes, halfAt, halfBytes, byteAt]

theorem dispatch_setReaction (s : State) (r : Byte) (f : ReactionFields) :
    s.dispatch 0x2C (r :: ReactionFields.bytes f) = s.reqSetReaction r f := by
  have : s.dispatch 0x2C (r :: ReactionFields.bytes f) =
      s.reqSetReaction r (reactionFieldsOf (r :: ReactionFields.bytes f)) := rfl
  rw [this, reactionFields_join]

theorem dispatch_enableReaction (s : State) (on off : Half) :
    s.dispatch 0x2D (halfBytes on ++ halfBytes off) = s.reqEnableReaction on off := by
  have : s.dispatch 0x2D (halfBytes on ++ halfBytes off) = s.reqEnableReaction
      (on.extractLsb' 8 8 ++ on.extractLsb' 0 8) (off.extractLsb' 8 8 ++ off.extractLsb' 0 8) := rfl
  rw [this, half_join, half_join]

theorem dispatch_fireReaction (s : State) (r : Byte) : s.dispatch 0x2E [r] = s.reqFireReaction r := rfl

/-! ### SET_DISPOSITION (R192) -/

theorem byteAt_append_right (p q : List Byte) (i : Nat) : byteAt (p ++ q) (p.length + i) = byteAt q i := by
  simp [byteAt, List.getD_eq_getElem?_getD, List.getElem?_append_right]

/-- The firings of a payload read back. -/
theorem firingFields_join (fs : List FiringField) : ∀ (p q : List Byte),
    firingFieldsOf (p ++ (fs.flatMap FiringField.bytes ++ q)) p.length fs.length = fs := by
  induction fs with
  | nil => intro p q; rfl
  | cons f fs ih =>
    intro p q
    have h (i : Nat) : byteAt (p ++ (List.flatMap FiringField.bytes (f :: fs) ++ q)) (p.length + i) =
        byteAt (List.flatMap FiringField.bytes (f :: fs) ++ q) i := byteAt_append_right p _ i
    have h0 := h 0
    have e : p ++ (List.flatMap FiringField.bytes (f :: fs) ++ q) =
        (p ++ FiringField.bytes f) ++ (fs.flatMap FiringField.bytes ++ q) := by
      simp [List.flatMap_cons, List.append_assoc]
    have l : (p ++ FiringField.bytes f).length = p.length + 6 := by
      simp [FiringField.bytes, halfBytes]
    have tail : firingFieldsOf (p ++ (List.flatMap FiringField.bytes (f :: fs) ++ q)) (p.length + 6) fs.length = fs := by
      rw [e, ← l]; exact ih _ q
    show firingFieldsOf _ p.length (fs.length + 1) = f :: fs
    unfold firingFieldsOf
    rw [tail]
    simp only [Nat.add_zero] at h0
    simp only [halfAt, Nat.add_assoc, Nat.reduceAdd, h, h0]
    simp [FiringField.bytes, halfBytes, byteAt, List.flatMap_cons]

/-- The confirm spec of a payload read back. -/
theorem confirmField_join (c : ConfirmField) (p : List Byte) :
    confirmFieldOf (p ++ ConfirmField.bytes c) p.length = c := by
  have h (i : Nat) : byteAt (p ++ ConfirmField.bytes c) (p.length + i) = byteAt (ConfirmField.bytes c) i :=
    byteAt_append_right p _ i
  have h0 := h 0
  simp only [Nat.add_zero] at h0
  unfold confirmFieldOf
  simp only [wordAt, Nat.add_assoc, Nat.reduceAdd, h, h0]
  cases c
  simp [ConfirmField.bytes, wordBytes, byteAt]
  exact ⟨word_join _, word_join _⟩

/-- The length of the firings' bytes. -/
theorem firingBytes_length (fs : List FiringField) : (fs.flatMap FiringField.bytes).length = 6 * fs.length := by
  induction fs with
  | nil => rfl
  | cons f fs ih => simp [List.flatMap_cons, FiringField.bytes, halfBytes, ih]; omega

/-- A SET_DISPOSITION that fits a frame reaches the Verdict Unit with its fields. -/
theorem dispatch_setDisposition (s : State) (index : Byte) (fs : List FiringField) (c : Option ConfirmField)
    (h : fs.length ≤ 255) :
    s.dispatch 0x10 (dispositionPayload index fs c) = s.reqSetDisposition index fs (boolCode c.isSome) c := by
  have hd : s.dispatch 0x10 (dispositionPayload index fs c) = s.takeDisposition (dispositionPayload index fs c) := rfl
  have hn : (natByte fs.length).toNat = fs.length := by
    simp only [natByte, BitVec.toNat_ofNat]; exact Nat.mod_eq_of_lt (by omega)
  have h0 : byteAt (dispositionPayload index fs c) 0 = index := rfl
  have h1 : byteAt (dispositionPayload index fs c) 1 = natByte fs.length := rfl
  have h2 : byteAt (dispositionPayload index fs c) 2 = boolCode c.isSome := rfl
  have hf (q : List Byte) : firingFieldsOf
      ([index, natByte fs.length, boolCode c.isSome] ++ (fs.flatMap FiringField.bytes ++ q)) 3 fs.length = fs :=
    firingFields_join fs [index, natByte fs.length, boolCode c.isSome] q
  rw [hd]
  unfold State.takeDisposition State.sized
  cases c with
  | none =>
    have hl : (dispositionPayload index fs none).length = 3 + 6 * fs.length := by
      simp only [dispositionPayload, List.length_append, firingBytes_length, List.length_cons, List.length_nil]
      omega
    rw [if_neg (by omega)]
    simp only [h0, h1, h2, hn, dispositionLength, Option.isSome_none, boolCode]
    rw [if_pos (by simpa using hl)]
    have := hf []
    simp only [Option.isSome_none, boolCode] at this
    simp only [dispositionPayload, Option.isSome_none, boolCode, List.append_assoc]
    rw [this]
    rfl
  | some k =>
    have hl : (dispositionPayload index fs (some k)).length = 3 + 6 * fs.length + 10 := by
      simp only [dispositionPayload, List.length_append, firingBytes_length, List.length_cons, List.length_nil,
        ConfirmField.bytes, wordBytes]
    rw [if_neg (by omega)]
    simp only [h0, h1, h2, hn, dispositionLength, Option.isSome_some, boolCode]
    rw [if_pos (by simpa using hl)]
    have := hf (ConfirmField.bytes k)
    simp only [Option.isSome_some, boolCode] at this
    have hc := confirmField_join k ([index, natByte fs.length, 1] ++ fs.flatMap FiringField.bytes)
    have hp : ([index, natByte fs.length, 1] ++ fs.flatMap FiringField.bytes).length = 3 + 6 * fs.length := by
      simp only [List.length_append, firingBytes_length, List.length_cons, List.length_nil]
    rw [hp] at hc
    simp only [List.append_assoc] at hc
    simp only [dispositionPayload, Option.isSome_some, boolCode, List.append_assoc, if_true] at this ⊢
    rw [this, hc]
    simp

end Sys2Proof.Machine
end

