-- ==== Sys2Proof/Laws/Records.lean ====
section
/-! SUPPORT. What notices do to records and lanes: their notice flags move, and nothing else of them does. With it the
small lemmas about requests on a named thing, the end of STALLED, and the end of a quiet command. -/

namespace Sys2Proof.Machine

set_option Elab.async false

/-! ### Small lemmas -/

/-- A request on a thing that a byte names. -/
theorem named_natByte {n : Nat} (s : State) (i : Fin n) (h : n ≤ 256) (f : Fin n → Answer) :
    s.named n (natByte i) f = f i := by
  unfold State.named
  rw [finOf_natByte i h]

/-- A request on a thing that no byte names. -/
theorem named_bad {n : Nat} (s : State) (b : Byte) (h : n ≤ b.toNat) (f : Fin n → Answer) :
    s.named n b f = s.refuse .badValue := by
  unfold State.named
  rw [finOf_none h]

/-- A byte names none of `n` things exactly when it is out of range. -/
theorem finOf_none_iff (n : Nat) (b : Byte) : finOf n b = none ↔ n ≤ b.toNat := by
  unfold finOf
  split <;> simp_all

/-- R171: the end of STALLED changes marks, the retry count and the timer alone. -/
theorem endStall_keeps (n : Notices) : n.endStall.unsent = n.unsent ∧ n.endStall.refs = n.refs ∧
    n.endStall.settings = n.settings ∧ n.endStall.missed = n.missed ∧ n.endStall.nextNumber = n.nextNumber ∧
    n.endStall.ackEarly = n.ackEarly ∧ n.endStall.stalled = false ∧ n.endStall.sent.length = n.sent.length := by
  unfold Notices.endStall
  split <;> simp_all [Notices.restartTimer, markAll]

/-- R171: a link that is not STALLED has no stall to end. -/
theorem endStall_idle (n : Notices) (h : n.stalled = false) : n.endStall = n := by
  unfold Notices.endStall
  rw [if_neg (by simp [h])]

/-- A command that leaves a quiet state ends with it. -/
theorem done_quiet (s : State) (h : s.quiet) : s.done = .next s := by
  unfold State.done
  rw [finish_quiet s h]

/-- R182: a request taken at once and refused. -/
theorem request_refused (s : State) (kind seq : Byte) (p : List Byte) (st : Status) (h : s.takesNow kind seq)
    (hd : s.received.dispatch kind p = s.received.refuse st) (hk : (kind = 0x02 && p.isEmpty) = false) :
    s.request kind seq p = .next (s.answers kind seq [st.code]) :=
  request_reads s kind seq p _ h hd hk

/-- R180: a request taken at once that writes blocks of its own. -/
theorem request_writes (s u : State) (kind seq : Byte) (p payload : List Byte) (h : s.takesNow kind seq)
    (hd : s.received.dispatch kind p = (payload, { u with notices := u.notices.endStall, link := s.received.link }))
    (hu : u.agenda = []) (hl : u.link = s.link) (hk : (kind = 0x02 && p.isEmpty) = false) :
    s.request kind seq p = .next (u.answers kind seq payload) := by
  rw [request_answered s kind seq p h (by rw [hd]; exact hu) hk, hd]
  simp [State.answers, hl]

/-- Every lane stands in the list of lanes. -/
theorem mem_allLanes (l : LaneId) : l ∈ allLanes := by
  fin_cases l <;> simp [allLanes]

/-- R76, R82: an output is in use as a station exactly when a lane outside OFF has a station on it. -/
theorem stationInUse_iff (s : State) (o : OutputId) : s.stationInUse o = true ↔ s.stationOfLive o := by
  unfold State.stationInUse State.stationOfLive Lane.live LaneConfig.hasStationOn
  simp only [List.any_eq_true, Bool.and_eq_true, decide_eq_true_eq]
  constructor
  · rintro ⟨l, _, h, st, hst, ho⟩
    obtain ⟨k, hk, rfl⟩ := Vector.mem_iff_getElem.mp (Vector.mem_toList_iff.mp hst)
    cases hx : s.lanes[l].config.stations[k] with
    | none => rw [hx] at ho; simp at ho
    | some x => rw [hx] at ho; exact ⟨l, h, ⟨k, hk⟩, x, hx, by simpa using ho⟩
  · rintro ⟨l, h, k, st, hst, ho⟩
    refine ⟨l, mem_allLanes l, h, some st, ?_, ?_⟩
    · exact Vector.mem_toList_iff.mpr (Vector.mem_iff_getElem.mpr ⟨k, k.isLt, hst⟩)
    · simpa using ho

/-! ### Records but for their flags -/

theorem State.sameRecords.refl (s : State) : s.sameRecords s :=
  ⟨fun _ => rfl, rfl, rfl⟩

theorem State.sameRecords.trans {s t u : State} (h : s.sameRecords t) (k : t.sameRecords u) : s.sameRecords u :=
  ⟨fun l => (k.1 l).trans (h.1 l), k.2.1.trans h.2.1, k.2.2.trans h.2.2⟩

/-- States with the same Item Table have the same records. -/
theorem sameRecords_of_items {s t : State} (h : t.items = s.items) : s.sameRecords t := by
  unfold State.sameRecords
  rw [h]
  exact ⟨fun _ => rfl, rfl, rfl⟩

@[simp] theorem withFlag_sansFlags (it : Item) (sub : SubKind) (f : NoticeFlag) :
    (it.withFlag sub f).sansFlags = it.sansFlags := by
  cases sub <;> rfl

/-- A flag of a record leaves the rest of every record of a list. -/
theorem mapRid_sansFlags (rid : Nat) (sub : SubKind) (f : NoticeFlag) (items : List Item) :
    (mapRid rid (fun it => it.withFlag sub f) items).map Item.sansFlags = items.map Item.sansFlags := by
  unfold mapRid
  rw [List.map_map]
  refine List.map_congr_left (fun it _ => ?_)
  simp only [Function.comp_apply]
  split
  · exact withFlag_sansFlags it sub f
  · rfl

theorem setFlag_sameRecords (s : State) (rid : Nat) (sub : SubKind) (f : NoticeFlag) :
    s.sameRecords (s.setFlag rid sub f) := by
  refine ⟨fun l => ?_, mapRid_sansFlags _ _ _ _, mapRid_sansFlags _ _ _ _⟩
  show (tmap (mapRid rid _) s.items.queues)[l].map Item.sansFlags = _
  rw [tmap_get]
  exact mapRid_sansFlags _ _ _ _

theorem admitRef_sameRecords (s t : State) (r : NoticeRef) (h : s.admitRef r = some t) : s.sameRecords t := by
  unfold State.admitRef at h
  cases r with
  | item rid sub =>
    simp only at h
    split at h
    · cases h; exact setFlag_sameRecords _ _ _ _
    · split at h
      · split at h
        · cases h; exact .refl s
        · cases h; exact setFlag_sameRecords _ _ _ _
      · cases h
  | lane l =>
    simp only at h
    split at h
    · cases h; exact .refl s
    · cases h

theorem admitUpTo_sameRecords (n : Nat) : ∀ s : State, s.sameRecords (State.admitUpTo n s) := by
  induction n with
  | zero => intro s; exact .refl s
  | succ n ih =>
    intro s
    unfold State.admitUpTo
    split
    · exact .refl s
    · split
      · exact .refl s
      · rename_i h
        exact (admitRef_sameRecords _ _ _ h).trans (ih _)

/-- R163: admission moves flags alone. -/
theorem admit_sameRecords (s : State) : s.sameRecords s.admitAll :=
  admitUpTo_sameRecords _ s

theorem admitIfRoom_sameRecords (s : State) : s.sameRecords s.admitIfRoom := by
  unfold State.admitIfRoom
  split
  · exact admit_sameRecords s
  · exact .refl s

theorem raiseItem_sameRecords (s : State) (rid : Nat) (sub : SubKind) : s.sameRecords (s.raiseItem rid sub) :=
  (setFlag_sameRecords s rid sub .pending).trans
    ((sameRecords_of_items (t := (s.setFlag rid sub .pending).addRef (.item rid sub)) rfl).trans
      (admitIfRoom_sameRecords _))

theorem raiseLane_sameRecords (s : State) (l : LaneId) : s.sameRecords (s.raiseLane l) := by
  unfold State.raiseLane
  split
  · exact .refl s
  · split
    · exact .refl s
    · exact (sameRecords_of_items rfl).trans (admitIfRoom_sameRecords _)

/-- R115: a change of a lane's state moves flags of records alone. -/
theorem toLaneState_sameRecords (s : State) (l : LaneId) (st : LaneState) : s.sameRecords (s.toLaneState l st) :=
  (sameRecords_of_items rfl).trans (raiseLane_sameRecords _ l)

theorem flagLinked_sameRecords (s : State) (e : NoticeEntry) (f : NoticeFlag) : s.sameRecords (s.flagLinked e f) := by
  unfold State.flagLinked
  split
  · exact setFlag_sameRecords _ _ _ _
  · exact .refl s
  · exact .refl s
  · exact .refl s

theorem sendFirst_sameRecords (s : State) (e : NoticeEntry) : s.sameRecords (s.sendFirst e) :=
  (sameRecords_of_items rfl).trans (flagLinked_sameRecords _ e .sent)

/-- R167: sending a notice moves flags alone. -/
theorem sendNotice_sameRecords (s : State) : s.sameRecords s.sendNotice := by
  unfold State.sendNotice
  split
  · exact .refl s
  · split
    · exact .refl s
    · split
      · split
        · exact .refl s
        · exact sendFirst_sameRecords s _
      · exact .refl s

theorem grant_sameRecords (s : State) : s.sameRecords s.grant := by
  unfold State.grant
  split
  · exact .refl s
  · split
    · exact .refl s
    · exact sendNotice_sameRecords s

/-! ### Lanes but for their flags -/

/-- Every lane is the same in two states but for its notice flag. -/
def State.sameLanes (s t : State) : Prop :=
  ∀ l : LaneId, t.lanes[l].sansNotice = s.lanes[l].sansNotice

theorem State.sameLanes.refl (s : State) : s.sameLanes s := fun _ => rfl

theorem State.sameLanes.trans {s t u : State} (h : s.sameLanes t) (k : t.sameLanes u) : s.sameLanes u :=
  fun l => (k l).trans (h l)

theorem sameLanes_of_lanes {s t : State} (h : t.lanes = s.lanes) : s.sameLanes t := by
  intro l
  rw [h]

theorem mapLane_flag_sameLanes (s : State) (l : LaneId) (b : Bool) :
    s.sameLanes (s.mapLane l (fun lane => { lane with noticeFlag := b })) := by
  intro m
  show (tset s.lanes l _)[m].sansNotice = _
  rw [tset_get]
  split
  · rename_i h; subst h; rfl
  · rfl

theorem admitRef_sameLanes (s t : State) (r : NoticeRef) (h : s.admitRef r = some t) : s.sameLanes t := by
  unfold State.admitRef at h
  cases r with
  | item rid sub =>
    simp only at h
    split at h
    · cases h; exact .refl s
    · split at h
      · split at h
        · cases h; exact .refl s
        · cases h; exact .refl s
      · cases h
  | lane l =>
    simp only at h
    split at h
    · cases h; exact mapLane_flag_sameLanes _ l false
    · cases h

theorem admitUpTo_sameLanes (n : Nat) : ∀ s : State, s.sameLanes (State.admitUpTo n s) := by
  induction n with
  | zero => intro s; exact .refl s
  | succ n ih =>
    intro s
    unfold State.admitUpTo
    split
    · exact .refl s
    · split
      · exact .refl s
      · rename_i h
        exact (admitRef_sameLanes _ _ _ h).trans (ih _)

/-- R163, R164: admission clears notice flags of lanes alone. -/
theorem admit_sameLanes (s : State) : s.sameLanes s.admitAll :=
  admitUpTo_sameLanes _ s

theorem admitIfRoom_sameLanes (s : State) : s.sameLanes s.admitIfRoom := by
  unfold State.admitIfRoom
  split
  · exact admit_sameLanes s
  · exact .refl s

theorem raiseItem_sameLanes (s : State) (rid : Nat) (sub : SubKind) : s.sameLanes (s.raiseItem rid sub) :=
  (sameLanes_of_lanes rfl).trans (admitIfRoom_sameLanes _)

/-- R115, R164: a lane's notice moves notice flags of lanes alone. -/
theorem raiseLane_sameLanes (s : State) (l : LaneId) : s.sameLanes (s.raiseLane l) := by
  unfold State.raiseLane
  split
  · exact mapLane_flag_sameLanes s l false
  · split
    · exact .refl s
    · exact (mapLane_flag_sameLanes s l true).trans ((sameLanes_of_lanes rfl).trans (admitIfRoom_sameLanes _))

/-- R163: what admission leaves of the Notice Queue: its settings, its sent part and its counts. -/
theorem admitRef_notices (s t : State) (r : NoticeRef) (h : s.admitRef r = some t) :
    t.notices.sent = s.notices.sent ∧ t.notices.settings = s.notices.settings ∧ t.notices.missed = s.notices.missed ∧
      t.notices.ackTimer = s.notices.ackTimer ∧ t.notices.retry = s.notices.retry ∧
      t.notices.stalled = s.notices.stalled ∧ t.notices.nextNumber = s.notices.nextNumber ∧
      t.notices.ackEarly = s.notices.ackEarly ∧ t.notices.refs = s.notices.refs.erase r := by
  unfold State.admitRef at h
  cases r with
  | item rid sub =>
    simp only at h
    split at h
    · cases h; exact ⟨rfl, rfl, rfl, rfl, rfl, rfl, rfl, rfl, rfl⟩
    · split at h
      · split at h
        · cases h; exact ⟨rfl, rfl, rfl, rfl, rfl, rfl, rfl, rfl, rfl⟩
        · cases h; exact ⟨rfl, rfl, rfl, rfl, rfl, rfl, rfl, rfl, rfl⟩
      · cases h
  | lane l =>
    simp only at h
    split at h
    · cases h; exact ⟨rfl, rfl, rfl, rfl, rfl, rfl, rfl, rfl, rfl⟩
    · cases h

theorem admitUpTo_notices (n : Nat) : ∀ s : State, let t := State.admitUpTo n s
    t.notices.sent = s.notices.sent ∧ t.notices.settings = s.notices.settings ∧ t.notices.missed = s.notices.missed ∧
      t.notices.ackTimer = s.notices.ackTimer ∧ t.notices.retry = s.notices.retry ∧
      t.notices.stalled = s.notices.stalled ∧ t.notices.nextNumber = s.notices.nextNumber ∧
      t.notices.ackEarly = s.notices.ackEarly := by
  induction n with
  | zero => intro s; exact ⟨rfl, rfl, rfl, rfl, rfl, rfl, rfl, rfl⟩
  | succ n ih =>
    intro s
    unfold State.admitUpTo
    split
    · exact ⟨rfl, rfl, rfl, rfl, rfl, rfl, rfl, rfl⟩
    · split
      · exact ⟨rfl, rfl, rfl, rfl, rfl, rfl, rfl, rfl⟩
      · rename_i r t h
        obtain ⟨a1, a2, a3, a4, a5, a6, a7, a8, _⟩ := admitRef_notices _ _ _ h
        obtain ⟨b1, b2, b3, b4, b5, b6, b7, b8⟩ := ih t
        exact ⟨b1.trans a1, b2.trans a2, b3.trans a3, b4.trans a4, b5.trans a5, b6.trans a6, b7.trans a7, b8.trans a8⟩

end Sys2Proof.Machine
end

