-- ==== Sys2Proof/Laws/Items.lean ====
section
/-! SUPPORT. How records, schedule entries and windows stand in their lists: where a new one is put, what changes when one
record of a queue does, and what the end of an item and a commit leave. -/

namespace Sys2Proof.Machine

set_option Elab.async false

/-! ### The place of a new entry -/

/-- R53, R54: an entry joins its list before the first that it precedes. -/
theorem insertEntry_split (e : ScheduleEntry) (list : List ScheduleEntry) :
    ∃ before after, list = before ++ after ∧ insertEntry e list = before ++ e :: after ∧
      (∀ x ∈ before, e.standsBefore x = false) ∧ ∀ x, after.head? = some x → e.standsBefore x = true := by
  induction list with
  | nil => exact ⟨[], [], rfl, rfl, nofun, nofun⟩
  | cons y ys ih =>
    unfold insertEntry
    by_cases h : e.standsBefore y = true
    · exact ⟨[], y :: ys, rfl, by simp [h], nofun, fun x hx => by cases hx; exact h⟩
    · obtain ⟨b, a, rfl, h2, h3, h4⟩ := ih
      refine ⟨y :: b, a, rfl, by simp [h, h2], ?_, h4⟩
      intro x hx
      rcases List.mem_cons.mp hx with rfl | hx
      · simpa using h
      · exact h3 x hx

/-- R83: a window joins its list before the first of larger open position. -/
theorem insertWindow_split (w : Window) (list : List Window) :
    ∃ b a, list = b ++ a ∧ insertWindow w list = b ++ w :: a ∧
      (∀ x ∈ b, before w.openPos x.openPos = false) ∧ ∀ x, a.head? = some x → before w.openPos x.openPos = true := by
  induction list with
  | nil => exact ⟨[], [], rfl, rfl, nofun, nofun⟩
  | cons y ys ih =>
    unfold insertWindow
    by_cases h : before w.openPos y.openPos = true
    · exact ⟨[], y :: ys, rfl, by simp [h], nofun, fun x hx => by cases hx; exact h⟩
    · obtain ⟨b, a, rfl, h2, h3, h4⟩ := ih
      refine ⟨y :: b, a, rfl, by simp [h, h2], ?_, h4⟩
      intro x hx
      rcases List.mem_cons.mp hx with rfl | hx
      · simpa using h
      · exact h3 x hx

/-- R53, R83: within half of the circle positions stand in the order of their distances from the base. -/
theorem before_iff_distance (base p q : Pos) (hp : (p - base).toNat < 0x80000000) (hq : (q - base).toNat < 0x80000000) :
    0 < (q - p).toInt ↔ (p - base).toNat < (q - base).toNat := by
  rw [BitVec.toInt_eq_toNat_cond]
  simp only [BitVec.toNat_sub] at *
  have := p.isLt; have := q.isLt; have := base.isLt
  split <;> omega

/-! ### One record of a queue -/

/-- A record of a queue is one of all. -/
theorem mem_all_of_queue (t : Items) (m : LaneId) (x : Item) (h : x ∈ t.queues[m]) : x ∈ t.all := by
  unfold Items.all
  fin_cases m <;> simp_all

/-- R1: a record of a queue stands in no other list. -/
theorem rid_only_in_queue (t : Items) (l : LaneId) (it : Item) (ok : t.Ok) (hq : it ∈ t.queues[l]) :
    (∀ m : LaneId, m ≠ l → ∀ x ∈ t.queues[m], x.rid ≠ it.rid) ∧ (∀ x ∈ t.done, x.rid ≠ it.rid) ∧
      ∀ x ∈ t.passed, x.rid ≠ it.rid := by
  obtain ⟨_, lanes, nd, _⟩ := ok
  refine ⟨fun m hm x hx he => ?_, ?_⟩
  · have := List.inj_on_of_nodup_map nd (mem_all_of_queue _ _ _ hx) (mem_all_of_queue _ l _ hq) he
    subst this
    exact hm ((lanes m x hx).symm.trans (lanes l x hq))
  · have apart : ∀ x, x ∈ t.done ++ t.passed → x.rid ≠ it.rid := by
      intro x hx he
      unfold Items.all at nd
      simp only [List.map_append, List.append_assoc, List.nodup_append, List.mem_append] at nd
      obtain ⟨_, ⟨_, ⟨_, ⟨_, _, c3⟩, c2⟩, c1⟩, c0⟩ := nd
      have hr : x.rid ∈ t.done.map (·.rid) ∨ x.rid ∈ t.passed.map (·.rid) :=
        (List.mem_append.mp hx).imp (fun h => List.mem_map_of_mem h) (fun h => List.mem_map_of_mem h)
      have hm : it.rid ∈ t.queues[l].map (·.rid) := List.mem_map_of_mem hq
      fin_cases l
      · exact c0 _ hm _ (Or.inr (Or.inr (Or.inr hr))) he.symm
      · exact c1 _ hm _ (Or.inr (Or.inr hr)) he.symm
      · exact c2 _ hm _ (Or.inr hr) he.symm
      · exact c3 _ hm _ hr he.symm
    exact ⟨fun x hx => apart x (List.mem_append_left _ hx), fun x hx => apart x (List.mem_append_right _ hx)⟩

/-- Records of other serial numbers stay. -/
theorem dropRid_of_ne (rid : Nat) (items : List Item) (h : ∀ x ∈ items, x.rid ≠ rid) : dropRid rid items = items := by
  unfold dropRid
  rw [List.filter_eq_self]
  simpa using h

/-- Records of other serial numbers stay as they are. -/
theorem mapRid_of_ne (rid : Nat) (f : Item → Item) (items : List Item) (h : ∀ x ∈ items, x.rid ≠ rid) :
    mapRid rid f items = items := by
  unfold mapRid
  conv_rhs => rw [← List.map_id items]
  exact List.map_congr_left (fun x hx => by simp [h x hx])

/-- Tables that differ at one row alone. -/
theorem tmap_eq_tset {α : Type} {n : Nat} (v : Vector α n) (l : Fin n) (f : α → α) (h : ∀ m : Fin n, m ≠ l → f v[m] = v[m]) :
    tmap f v = tset v l (f v[l]) := by
  apply Vector.ext
  intro k hk
  show (tmap f v)[(⟨k, hk⟩ : Fin n)] = (tset v l _)[(⟨k, hk⟩ : Fin n)]
  rw [tmap_get, tset_get]
  split
  · rename_i e; rw [e]
  · rename_i e; exact h _ (fun e' => e e'.symm)

/-- A record of a queue is changed in that queue alone. -/
theorem mapRecord_queue (s : State) (l : LaneId) (it : Item) (f : Item → Item) (ok : s.items.Ok) (hq : it ∈ s.items.queues[l]) :
    s.mapRecord it.rid f =
      { s with items := { s.items with queues := tset s.items.queues l (mapRid it.rid f s.items.queues[l]) } } := by
  obtain ⟨others, done, passed⟩ := rid_only_in_queue _ l it ok hq
  unfold State.mapRecord
  rw [mapRid_of_ne _ _ _ done, mapRid_of_ne _ _ _ passed,
    tmap_eq_tset _ l _ (fun m hm => mapRid_of_ne _ _ _ (others m hm))]

/-- R17: the oldest record of a queue leaves it and touches nothing else. -/
theorem dropRecord_head (s : State) (l : LaneId) (it : Item) (rest : List Item) (ok : s.items.Ok)
    (hq : s.items.queues[l] = it :: rest) :
    s.dropRecord it.rid = { s with items := { s.items with queues := tset s.items.queues l rest } } := by
  obtain ⟨others, done, passed⟩ := rid_only_in_queue _ l it ok (by rw [hq]; exact List.mem_cons_self)
  have tail : dropRid it.rid s.items.queues[l] = rest := by
    have nd : (s.items.queues[l].map (·.rid)).Nodup := by
      refine List.Nodup.sublist ?_ ok.2.2.1
      unfold Items.all
      simp only [List.map_append, List.append_assoc]
      have after (a b : List Nat) : b.Sublist (a ++ b) := List.sublist_append_right a b
      fin_cases l
      · exact List.sublist_append_left _ _
      · exact (List.sublist_append_left _ _).trans (after _ _)
      · exact ((List.sublist_append_left _ _).trans (after _ _)).trans (after _ _)
      · exact (((List.sublist_append_left _ _).trans (after _ _)).trans (after _ _)).trans (after _ _)
    rw [hq] at nd ⊢
    rw [List.map_cons, List.nodup_cons] at nd
    unfold dropRid
    rw [List.filter_cons_of_neg (by simp)]
    exact dropRid_of_ne _ _ (fun x hx he => nd.1 (he ▸ List.mem_map_of_mem hx))
  unfold State.dropRecord
  rw [dropRid_of_ne _ _ done, dropRid_of_ne _ _ passed, tmap_eq_tset _ l _ (fun m hm => dropRid_of_ne _ _ (others m hm)), tail]

/-! ### The end of an item -/

/-- R17, R19: an item has no work left exactly when no firing is PENDING and its confirm result is not WAITING. -/
theorem workDone_iff (it : Item) :
    it.workDone = true ↔ ¬ ((∃ f ∈ it.firings, f.result = .pending) ∨ it.confirmResult = some .waiting) := by
  unfold Item.workDone
  simp

/-- R20: becoming DONE offers nothing itself. -/
theorem becomeDone_agenda (s : State) (it : Item) (r : Summary) : (s.becomeDone it r).agenda = s.agenda :=
  becomeDone_changes s it r .agenda (by simp)

/-- R17: an item with work left is PASSED. -/
theorem leaveQueue_passes (s : State) (it : Item) (h : it.workDone = false) : s.leaveQueue it =
    { s.dropRecord it.rid with items := { (s.dropRecord it.rid).items with
        passed := (s.dropRecord it.rid).items.passed ++ [{ it with covering := false, state := .passed }] } } :=
  if_neg (by show ¬ it.workDone = true; simp [h])

/-- R17, R20: an item without work becomes DONE, and its OUTCOME trigger follows. -/
theorem leaveQueue_ends (s : State) (it : Item) (h : it.workDone = true) : s.leaveQueue it =
    ((s.dropRecord it.rid).becomeDone { it with covering := false } it.summary).push [it.outcomeEvent it.summary] :=
  if_pos h

/-- R2, R17: only the oldest item of a queue leaves it at an exit point. -/
theorem exitPoint_head (s : State) (l : LaneId) (it : Item) (rest : List Item) (hq : s.items.queues[l] = it :: rest) :
    s.exitPoint l it.rid = (s.leaveQueue it).reportCount l ∧ ∀ rid, rid ≠ it.rid → s.exitPoint l rid = s := by
  unfold State.exitPoint
  rw [hq]
  exact ⟨if_pos rfl, fun rid h => if_neg (fun e => h e.symm)⟩

/-! ### The entries of a commit -/

/-- R46, R52: the entries of a commit join the position list in firing-index order, each at its place. -/
theorem createEntries_eq (s : State) (it : Item) (fs : List CommittedFiring) (h : fs.length ≤ 4) :
    let entry (p : CommittedFiring × Fin 4) : ScheduleEntry :=
      { serial := s.schedule.nextSerial + p.2.val, rid := it.rid, owner := { lane := it.lane, tag := it.tag, firing := p.2 }
        output := s.lanes[it.lane].config.stationOutput p.1.station, widthKind := p.1.widthKind, width := p.1.width
        phase := .waiting, onPos := it.entryPos + p.1.fireOffset }
    ∃ n, s.createEntries it fs = { s with schedule := { s.schedule with
      positionList := ((fs.zip [0, 1, 2, 3]).map entry).foldl (fun list e => insertEntry e list) s.schedule.positionList
      nextSerial := n } } := by
  intro entry
  match fs, h with
  | [], _ => exact ⟨_, rfl⟩
  | [_], _ => exact ⟨_, rfl⟩
  | [_, _], _ => exact ⟨_, rfl⟩
  | [_, _, _], _ => exact ⟨_, rfl⟩
  | [_, _, _, _], _ => exact ⟨_, rfl⟩

end Sys2Proof.Machine
end

