-- ==== Sys2Proof/Laws/Samples.lean ====
section
/-! SUPPORT. Samples and ticks: what the filters of the channels, the marks and periods of the inputs, the Timer
Unit's share of a tick, and the end of a µs do, once for all uses. -/

namespace Sys2Proof.Machine

set_option Elab.async false

/-! ### Fields after the updates of the channels and the marks -/

@[simp] theorem setPins_bp (s : State) (r : Level × Level) : (s.setPins r).position.bp = s.position.bp := rfl

@[simp] theorem setPins_hw (s : State) (r : Level × Level) : (s.setPins r).position.hw = s.position.hw := rfl

@[simp] theorem setPins_ea (s : State) (r : Level × Level) : (s.setPins r).position.ea = s.position.ea := rfl

@[simp] theorem setPins_eb (s : State) (r : Level × Level) : (s.setPins r).position.eb = s.position.eb := rfl

@[simp] theorem setPins_eaPin (s : State) (r : Level × Level) : (s.setPins r).position.eaPin = r.1 := rfl

@[simp] theorem setPins_ebPin (s : State) (r : Level × Level) : (s.setPins r).position.ebPin = r.2 := rfl

@[simp] theorem setReference_ea (s : State) (r : Level × Level) : (s.setReference r).position.ea = r.1 := rfl

@[simp] theorem setReference_eb (s : State) (r : Level × Level) : (s.setReference r).position.eb = r.2 := rfl

@[simp] theorem flipChannel_ea (s : State) : (s.flipChannel .ea).position =
    { s.position with eaPin := s.position.eaPin.flip } := rfl

@[simp] theorem flipChannel_eb (s : State) : (s.flipChannel .eb).position =
    { s.position with ebPin := s.position.ebPin.flip } := rfl

@[simp] theorem openSamples_input (s : State) (i : InputId) :
    s.openSamples.inputs[i] = { s.inputs[i] with mark := .due } :=
  tmap_get _ _ i

@[simp] theorem openSamples_position (s : State) : s.openSamples.position = s.position := rfl

/-! ### The filters of the channels (R119) -/

@[simp] theorem filterSample_same (level : Level) (run : Nat) : filterSample level level run = (level, 0) :=
  if_pos rfl

theorem filterSample_first {level pin : Level} (h : pin ≠ level) : filterSample level pin 0 = (level, 1) := by
  simp [filterSample, h, Config.channelSamples]

theorem filterSample_second {level pin : Level} (h : pin ≠ level) : filterSample level pin 1 = (level, 2) := by
  simp [filterSample, h, Config.channelSamples]

theorem filterSample_third {level pin : Level} (h : pin ≠ level) : filterSample level pin 2 = (pin, 0) := by
  simp [filterSample, h, Config.channelSamples]

/-- A channel has shown a level that is not accepted at two samples at most. -/
theorem filterSample_run_le (level pin : Level) (run : Nat) : (filterSample level pin run).2 ≤ 2 := by
  unfold filterSample
  split
  · exact Nat.zero_le 2
  · split
    · next h => exact Nat.le_of_lt_succ h
    · exact Nat.zero_le 2

/-- Channels are at rest where their pins show the filtered levels and no sample has shown others. -/
theorem atRest_iff (p : Position) : p.atRest = true ↔ p.settled := by
  simp [Position.atRest, Position.settled, and_assoc]

/-- A sample of channels at rest changes nothing. -/
theorem sampleChannels_settled {s : State} (h : s.position.settled) : s.sampleChannels = s := by
  obtain ⟨ha, hb, hra, hrb⟩ := h
  have ea : filterSample s.position.ea s.position.eaPin s.position.eaRun = (s.position.ea, s.position.eaRun) := by
    rw [ha, filterSample_same, hra]
  have eb : filterSample s.position.eb s.position.ebPin s.position.ebRun = (s.position.eb, s.position.ebRun) := by
    rw [hb, filterSample_same, hrb]
  simp only [State.sampleChannels, ea, eb, if_true]

/-- R117: an event that leaves the filtered levels ends no moment. -/
theorem ended_same {s t : State} (ha : t.position.ea = s.position.ea) (hb : t.position.eb = s.position.eb) :
    s.ended t = t :=
  if_pos ⟨ha, hb⟩

/-- Samples of channels at rest change nothing, with nothing of the moment left over. -/
theorem runChannels_settled (n : Nat) {s : State} (h : s.position.settled) (hq : s.quiet) :
    State.runChannels n s = s := by
  induction n with
  | zero => rfl
  | succ n ih => rw [State.runChannels, sampleChannels_settled h, finish_quiet s hq, ended_same rfl rfl, ih]

/-! ### A sample of the channels moves the belt and nothing else of its unit (R119 to R126) -/

/-- A position that another one differs from in the belt, the direction and the encoder fault flag alone. -/
def Position.Moved (p q : Position) : Prop :=
  q = { p with bp := q.bp, hw := q.hw, direction := q.direction, encoderFault := q.encoderFault }

theorem stepForward_moved (s : State) : s.position.Moved s.stepForward.position := by
  unfold State.stepForward
  simp only
  split
  · rw [(offerStep_changes _) .position (by decide)]; rfl
  · rfl

theorem stepReverse_moved (s : State) : s.position.Moved s.stepReverse.position := by
  unfold State.stepReverse
  simp only
  split
  · rw [(offerAll_changes _ _) .position (by decide)]; rfl
  · rfl

theorem illegal_moved (s : State) : s.position.Moved s.illegal.position := by
  unfold State.illegal
  rw [(offerAll_changes _ _) .position (by decide)]; rfl

theorem decode_moved (s : State) (new : Level × Level) :
    (s.setReference new).position.Moved (s.decode new).position := by
  have q (u : State) (old : Level × Level) : u.position.Moved (u.quadrature old).position := by
    unfold State.quadrature
    simp only
    split
    · exact illegal_moved u
    · split <;>
        (split
         · exact stepForward_moved u
         · split
           · exact stepReverse_moved u
           · rfl)
  have p (u : State) (old : Level × Level) : u.position.Moved (u.pulseStep old).position := by
    unfold State.pulseStep
    split
    · split
      · exact stepReverse_moved u
      · exact stepForward_moved u
    · rfl
  unfold State.decode
  simp only
  split
  · exact q _ _
  · exact q _ _
  · exact p _ _
  · exact p _ _

/-- R119: a sample of the channels: each filter takes its pin, and the belt moves by what is accepted. -/
theorem sampleChannels_moved (s : State) :
    let p := s.position
    let a := filterSample p.ea p.eaPin p.eaRun
    let b := filterSample p.eb p.ebPin p.ebRun
    Position.Moved { p with ea := a.1, eb := b.1, eaRun := a.2, ebRun := b.2 } s.sampleChannels.position := by
  unfold State.sampleChannels
  simp only
  split
  · next h =>
    obtain ⟨ha, hb⟩ := Prod.mk.inj h
    rw [ha, hb]; rfl
  · exact decode_moved _ _

/-! ### The samples of the inputs (R136) -/

/-- The sample that `runDue` finds is the one that `awaitsSample` speaks of. -/
theorem runDue_eq_some {s : State} {i : InputId} {r : Run} : s.runDue i = some r ↔ s.awaitsSample i r := by
  have period : ∀ p : Fin 8, [1, 2, 5, 10, 20, 50, 100, 200][p.val]? = some (#v[1, 2, 5, 10, 20, 50, 100, 200][p]) := by
    decide
  unfold State.runDue State.awaitsSample
  cases hr : s.inputs[i].run with
  | none => simp
  | some q =>
    simp only [Input.sampleDue, Input.periodMicros, period, Bool.and_eq_true, decide_eq_true_eq]
    constructor
    · intro h
      split at h
      · next hd =>
        cases h
        exact ⟨rfl, hd.1, _, rfl, of_decide_eq_true hd.2⟩
      · cases h
    · rintro ⟨hq, hm, p, hp, hle⟩
      cases hq
      cases hp
      rw [if_pos ⟨hm, decide_eq_true hle⟩]

/-- With no sample due there is none to find. -/
theorem runDue_eq_none {s : State} {i : InputId} : s.runDue i = none ↔ ∀ r, ¬ s.awaitsSample i r := by
  rw [Option.eq_none_iff_forall_not_mem]
  exact forall_congr' (fun r => not_congr runDue_eq_some)

theorem accept_inputs (s : State) (i : InputId) (v : Level) (c : Capture) : (s.accept i v c).inputs =
    tset s.inputs i { s.inputs[i] with accepted := v, run := none, mark := .taken } := by
  unfold State.accept
  simp only
  split
  · rfl
  · exact (deliverEntry_changes _ _ _ _) .inputs (by decide)
  · exact (deliverConfirm_changes _ _ _ _) .inputs (by decide)
  · exact (reportInhibit_changes _ _) .inputs (by decide)
  · exact (deliverGeneral_changes _ _ _ _) .inputs (by decide)

theorem abandonRun_inputs (s : State) (i : InputId) : (s.abandonRun i).inputs =
    tset s.inputs i { s.inputs[i] with run := none, mark := .taken } := by
  unfold State.abandonRun
  simp only
  split
  · exact (endRun_changes _ _ _) .inputs (by decide)
  · rfl

theorem abandonRun_pins (s : State) (i : InputId) : (s.abandonRun i).pins = s.pins := by
  unfold State.abandonRun
  simp only
  split
  · exact (endRun_changes _ _ _) .pins (by decide)
  · rfl

/-- R135 to R137: a comparison or sample that does something with the level at the pin leaves the pins and all other
inputs, and its own input has had its sample of the present advance of TS. -/
theorem takeSample_inputs {s : State} {i : InputId} (h : s.sampleStirs i = true) :
    ∃ x : Input, x.mark = .taken ∧ (s.takeSample i).inputs = tset s.inputs i x ∧ (s.takeSample i).pins = s.pins := by
  have pin : s.showPin i s.pins[i] = s := by rw [State.showPin, tset_same]
  have acc (v : Level) (c : Capture) : (s.accept i v c).pins = s.pins := (accept_changes s i v c) .pins (by decide)
  cases hr : s.runDue i with
  | some r =>
    rw [State.takeSample, hr]
    simp only [State.sample, pin]
    split
    · split
      · exact ⟨_, rfl, accept_inputs _ _ _ _, acc _ _⟩
      · exact ⟨_, rfl, rfl, rfl⟩
    · exact ⟨_, rfl, abandonRun_inputs _ _, abandonRun_pins _ _⟩
  | none =>
    unfold State.sampleStirs at h
    rw [hr] at h
    split at h
    · cases h
    · next hrun =>
      simp only [Bool.and_eq_true, decide_eq_true_eq, bne_iff_ne] at h
      rw [State.takeSample, hr]
      simp only [State.compare, pin]
      split
      · next ha => rw [State.settleInput, if_pos ha]; exact ⟨_, rfl, rfl, rfl⟩
      · rw [h.1]
        simp only
        rw [if_neg (fun e => h.2 e.symm)]
        split
        · exact ⟨_, rfl, rfl, rfl⟩
        · exact ⟨_, rfl, accept_inputs _ _ _ _, acc _ _⟩

/-- Whether a sample does something is a matter of its input, the pins and TS. -/
theorem sampleStirs_congr {s t : State} {i : InputId} (hi : t.inputs[i] = s.inputs[i]) (hp : t.pins = s.pins)
    (ht : t.position.ts = s.position.ts) : t.sampleStirs i = s.sampleStirs i := by
  simp only [State.sampleStirs, State.runDue, hi, hp, ht]

/-- An input has one comparison or sample at an advance of TS. -/
theorem sampleStirs_taken {s : State} {i : InputId} (h : s.inputs[i].mark = .taken) : s.sampleStirs i = false := by
  unfold State.sampleStirs State.runDue
  split
  · split
    · rfl
    · rw [Input.sampleDue, h]; rfl
  · rw [h]; rfl

/-! ### The Timer Unit's share of a tick (R147) -/

@[simp] theorem tickTimers_timer (s : State) (t : TimerId) : s.tickTimers.timers[t] = s.timers[t].ticked :=
  tmap_get _ _ t

@[simp] theorem tickTimers_position (s : State) : s.tickTimers.position = s.position := rfl

@[simp] theorem tickTimers_agenda (s : State) : s.tickTimers.agenda =
    s.agenda ++ (allTimers.filter (fun t => s.timers[t].expires)).map (fun t => [.expired t]) := by
  simp [State.tickTimers, State.pushEach]

/-- A stopped timer is left by a tick. -/
theorem ticked_stopped {t : Timer} (h : t.running = false) : t.ticked = t := by
  simp [Timer.ticked, Timer.expires, h]

/-- A running timer with more than 1 ms left counts down. -/
theorem ticked_counts {t : Timer} (h : t.running = true) (hr : 1 < t.remaining) :
    t.ticked = { t with remaining := t.remaining - 1 } := by
  simp [Timer.ticked, Timer.expires, h, Nat.not_le.mpr hr]

/-- A running timer with 1 ms left expires. -/
theorem ticked_expires {t : Timer} (h : t.running = true) (hr : t.remaining ≤ 1) : t.ticked = t.expired := by
  simp [Timer.ticked, Timer.expires, h, hr]

/-! ### What is left of a µs (R119, R131, R135) -/

/-- A count falls with a member that is counted no more, where no other member is counted anew. -/
theorem countP_lt {α : Type} {f g : α → Bool} {a : α} {l : List α} (h : a ∈ l) (ha : g a = true) (hf : f a = false)
    (sub : ∀ b, f b = true → g b = true) : l.countP f < l.countP g := by
  induction l with
  | nil => cases h
  | cons b l ih =>
    have le : l.countP f ≤ l.countP g := List.countP_mono_left (fun b _ => sub b)
    rw [List.countP_cons, List.countP_cons]
    rcases List.mem_cons.mp h with rfl | h
    · rw [ha, hf]; simp; omega
    · have := ih h
      have hb := sub b
      cases hfb : f b <;> cases hgb : g b <;> simp_all

/-- How many samples a channel is from rest, at most. -/
def channelUnrest (level pin : Level) (run : Nat) : Nat :=
  if pin = level then (if run = 0 then 0 else 1) else 3 - min run 2

theorem channelUnrest_le (level pin : Level) (run : Nat) : channelUnrest level pin run ≤ 3 := by
  unfold channelUnrest
  split
  · split <;> decide
  · omega

theorem channelUnrest_zero {level pin : Level} {run : Nat} : channelUnrest level pin run = 0 ↔ pin = level ∧ run = 0 := by
  unfold channelUnrest
  split
  · next h => split <;> simp_all
  · next h => constructor
              · intro; omega
              · intro k; exact absurd k.1 h

/-- A sample brings a channel that is not at rest nearer to it. -/
theorem channelUnrest_sample (level pin : Level) (run : Nat) :
    let a := filterSample level pin run
    channelUnrest a.1 pin a.2 ≤ channelUnrest level pin run - 1 := by
  unfold filterSample
  simp only
  split
  · next h => simp [channelUnrest, h]
  · next h =>
    split
    · next hr =>
      simp only [Config.channelSamples] at hr
      simp only [channelUnrest, if_neg h]
      omega
    · simp [channelUnrest]

theorem mem_allInputs (i : InputId) : i ∈ allInputs := by
  revert i; decide

/-- How many events of a µs are left, at most: its samples of the channels, its tick, and its inputs. -/
def State.leftCount (s : State) : Nat :=
  max (channelUnrest s.position.ea s.position.eaPin s.position.eaRun)
      (channelUnrest s.position.eb s.position.ebPin s.position.ebRun) +
    s.position.tickDue.toNat + allInputs.countP s.sampleStirs

/-- A µs never has more left than the rounds take. -/
theorem leftCount_le (s : State) : s.leftCount ≤ Config.leftoverBound := by
  have ha := channelUnrest_le s.position.ea s.position.eaPin s.position.eaRun
  have hb := channelUnrest_le s.position.eb s.position.ebPin s.position.ebRun
  have hi : allInputs.countP s.sampleStirs ≤ 16 := Nat.le_trans List.countP_le_length (by decide)
  have ht : s.position.tickDue.toNat ≤ 1 := Bool.toNat_le _
  unfold State.leftCount Config.leftoverBound
  omega

theorem leftCount_congr {s t : State} (hp : t.position = s.position) (hi : t.inputs = s.inputs) (hpin : t.pins = s.pins) :
    t.leftCount = s.leftCount := by
  have : t.sampleStirs = s.sampleStirs := funext fun i => sampleStirs_congr (by rw [hi]) hpin (by rw [hp])
  rw [State.leftCount, State.leftCount, hp, this]

theorem ended_leftCount (s t : State) : (s.ended t).leftCount = t.leftCount :=
  leftCount_congr ((ended_changes s t) .position (by decide)) ((ended_changes s t) .inputs (by decide))
    ((ended_changes s t) .pins (by decide))

theorem finish_leftCount (s : State) : s.finish.leftCount = s.leftCount :=
  leftCount_congr ((finish_changes s) .position (by decide)) ((finish_changes s) .inputs (by decide))
    ((finish_changes s) .pins (by decide))

/-- Whatever of it is taken, less is left. -/
theorem takeLeftover_leftCount {s : State} {e : Leftover} (h : e ∈ s.leftovers) :
    (s.takeLeftover e).leftCount < s.leftCount := by
  cases e with
  | channels =>
    have rest : s.position.atRest = false := by
      cases hr : s.position.atRest with
      | false => rfl
      | true => simp [State.leftovers, hr] at h
    have hin := (sampleChannels_changes s) .inputs (by decide)
    have hpin := (sampleChannels_changes s) .pins (by decide)
    have hm := sampleChannels_moved s
    simp only [Position.Moved] at hm
    have hts : s.sampleChannels.position.ts = s.position.ts := by simpa using congrArg Position.ts hm
    have stirs : s.sampleChannels.sampleStirs = s.sampleStirs :=
      funext fun i => sampleStirs_congr (by rw [hin]) hpin hts
    have hz : ¬ (channelUnrest s.position.ea s.position.eaPin s.position.eaRun = 0 ∧
        channelUnrest s.position.eb s.position.ebPin s.position.ebRun = 0) := by
      intro hz
      have : s.position.atRest = true := by
        rw [atRest_iff]
        obtain ⟨ha, hb⟩ := hz
        rw [channelUnrest_zero] at ha hb
        exact ⟨ha.1, hb.1, ha.2, hb.2⟩
      rw [rest] at this; cases this
    have ha := channelUnrest_sample s.position.ea s.position.eaPin s.position.eaRun
    have hb := channelUnrest_sample s.position.eb s.position.ebPin s.position.ebRun
    simp only at ha hb
    simp only [State.takeLeftover, State.leftCount]
    rw [stirs, show s.sampleChannels.position.ea = _ from congrArg Position.ea hm,
      show s.sampleChannels.position.eb = _ from congrArg Position.eb hm,
      show s.sampleChannels.position.eaPin = _ from congrArg Position.eaPin hm,
      show s.sampleChannels.position.ebPin = _ from congrArg Position.ebPin hm,
      show s.sampleChannels.position.eaRun = _ from congrArg Position.eaRun hm,
      show s.sampleChannels.position.ebRun = _ from congrArg Position.ebRun hm,
      show s.sampleChannels.position.tickDue = _ from congrArg Position.tickDue hm]
    simp only
    omega
  | tick =>
    have due : s.position.tickDue = true := by
      cases hr : s.position.tickDue with
      | true => rfl
      | false => cases hq : s.position.atRest <;> simp [State.leftovers, hr, hq] at h
    have stirs : s.tick.sampleStirs = s.sampleStirs := funext fun i => sampleStirs_congr rfl rfl rfl
    simp only [State.takeLeftover, State.leftCount]
    rw [stirs, due]
    show max (channelUnrest s.position.ea s.position.eaPin s.position.eaRun)
      (channelUnrest s.position.eb s.position.ebPin s.position.ebRun) + 0 + _ < _ + 1 + _
    omega
  | input i =>
    have hs : s.sampleStirs i = true := by
      simp only [State.leftovers, List.mem_append, List.mem_map, List.mem_filter] at h
      rcases h with (h | h) | ⟨j, hj, e⟩
      · split at h <;> simp at h
      · split at h <;> simp at h
      · cases e; exact hj.2
    obtain ⟨x, hx, hin, hpin⟩ := takeSample_inputs hs
    have hpos := (takeSample_changes s i) .position (by decide)
    have off : (s.takeSample i).sampleStirs i = false := sampleStirs_taken (by rw [hin, tset_get_self]; exact hx)
    have rest (j : InputId) (h : j ≠ i) : (s.takeSample i).sampleStirs j = s.sampleStirs j :=
      sampleStirs_congr (by rw [hin, tset_get_ne _ _ _ _ (Ne.symm h)]) hpin (by rw [hpos])
    have fewer : allInputs.countP (s.takeSample i).sampleStirs < allInputs.countP s.sampleStirs := by
      refine countP_lt (a := i) (mem_allInputs i) hs off (fun j hj => ?_)
      by_cases e : j = i
      · rw [e, off] at hj; cases hj
      · rw [← rest j e]; exact hj
    simp only [State.takeLeftover, State.leftCount]
    rw [hpos]
    omega

/-- Nothing is left of a µs when the channels are at rest, no tick is due, and no input's comparison or sample does
anything. -/
theorem leftovers_eq_nil {s : State} : s.leftovers = [] ↔
    s.position.settled ∧ s.position.tickDue = false ∧ ∀ i : InputId, s.sampleStirs i = false := by
  rw [← atRest_iff]
  simp only [State.leftovers, List.append_eq_nil_iff, List.map_eq_nil_iff, List.filter_eq_nil_iff, and_assoc]
  refine and_congr ?_ (and_congr ?_ ⟨fun h i => by simpa using h i (mem_allInputs i), fun h i _ => by simp [h i]⟩)
  · cases s.position.atRest <;> simp
  · cases s.position.tickDue <;> simp

/-- Nothing is left when the count says so, and only then. -/
theorem leftovers_nil {s : State} : s.leftovers = [] ↔ s.leftCount = 0 := by
  constructor
  · intro h
    obtain ⟨⟨ha, hb, hra, hrb⟩, due, hi⟩ := leftovers_eq_nil.mp h
    have hz : allInputs.countP s.sampleStirs = 0 := List.countP_eq_zero.mpr (fun i _ => by simp [hi i])
    rw [State.leftCount, hz, due, channelUnrest_zero.mpr ⟨ha, hra⟩, channelUnrest_zero.mpr ⟨hb, hrb⟩]
    rfl
  · intro h
    cases hl : s.leftovers with
    | nil => rfl
    | cons e es =>
      have := takeLeftover_leftCount (s := s) (e := e) (by rw [hl]; exact List.mem_cons_self)
      omega

/-- With nothing left of the µs nothing is taken. -/
theorem takeLeftovers_none (n : Nat) {s : State} (h : s.leftovers = []) : State.takeLeftovers n s = s := by
  cases n with
  | zero => rfl
  | succ n => rw [State.takeLeftovers, h]; rfl

/-- A round takes one of the things that are left, whichever is chosen. -/
theorem takeLeftovers_some (n : Nat) {s : State} (h : s.leftovers ≠ []) : ∃ e ∈ s.leftovers, ∃ k : Nat,
    State.takeLeftovers (n + 1) s = State.takeLeftovers n (s.ended (State.takeLeftover { s with choices := k } e).finish) := by
  have pos : 0 < s.leftovers.length := List.length_pos_iff.mpr h
  have bound : (s.choose s.leftovers.length).1 < s.leftovers.length := by
    unfold State.choose
    split
    · exact pos
    · exact Nat.mod_lt _ pos
  have chosen : ∃ k, (s.choose s.leftovers.length).2 = { s with choices := k } := by
    unfold State.choose
    split
    · exact ⟨s.choices, rfl⟩
    · exact ⟨_, rfl⟩
  obtain ⟨k, hk⟩ := chosen
  refine ⟨_, List.getElem_mem bound, k, ?_⟩
  rw [State.takeLeftovers]
  simp only [List.getElem?_eq_getElem bound, hk]
  rfl

/-- All that is left of the µs is taken: the rounds suffice. -/
theorem takeLeftovers_done (n : Nat) : ∀ s : State, s.leftCount ≤ n → (State.takeLeftovers n s).leftovers = [] := by
  induction n with
  | zero => exact fun s h => leftovers_nil.mpr (Nat.le_zero.mp h)
  | succ n ih =>
    intro s h
    by_cases hl : s.leftovers = []
    · rw [takeLeftovers_none _ hl]; exact hl
    · obtain ⟨e, he, k, hk⟩ := takeLeftovers_some n hl
      rw [hk]
      refine ih _ ?_
      rw [ended_leftCount, finish_leftCount]
      have same : State.leftCount { s with choices := k } = s.leftCount := leftCount_congr rfl rfl rfl
      have := takeLeftover_leftCount (s := { s with choices := k }) (e := e) he
      omega

/-- At the end of a µs nothing is left of it: the channels are at rest, no tick is due, and no input's comparison or
sample would do anything. -/
theorem endMicro_leftovers (s : State) : s.endMicro.leftovers = [] :=
  takeLeftovers_done _ _ (leftCount_le _)

end Sys2Proof.Machine
end

