-- ==== Sys2Proof/Tests/Slice0.lean ====
section
/-! SUPPORT. Tests of the model's own: ill-formed commands, small commands on small states, and for each statement a state
that meets its hypotheses, at the edges of its clauses. -/

namespace Sys2Proof.Tests

open Sys2Proof.Machine

set_option Elab.async false
set_option maxRecDepth 20000

/-! ### Ill-formed commands are refused -/

theorem test_wf_assigned : (Instr.unknownKind 0x01 0 []).wellFormed = false := by decide
theorem test_wf_kind_zero : (Instr.unknownKind 0x00 0 []).wellFormed = false := by decide
theorem test_wf_kind_reply : (Instr.unknownKind 0x40 0 []).wellFormed = false := by decide
theorem test_wf_long : (Instr.unknownKind 0x06 0 (List.replicate 129 0)).wellFormed = false := by decide
theorem test_wf_frame_long : (Instr.frameReceived 0x01 0 (List.replicate 129 0) 0).wellFormed = false := by decide
theorem test_wf_disposition_long : (Instr.setDisposition 0 0 (List.replicate 21 ⟨0, 0, 0, 1⟩) none).wellFormed = false := by
  decide
theorem test_wf_edges : (Instr.unknownKind 0x3F 0 (List.replicate 128 0)).wellFormed = true ∧
    (Instr.setDisposition 0 0 (List.replicate 19 ⟨0, 0, 0, 1⟩) (some ⟨0, 0, 1, 1⟩)).wellFormed = true := by decide

/-! ### Small states -/

/-- The state a command leaves. -/
def after (c : Instr) (s : State) : State :=
  match exec c s with
  | .next t => t
  | .fault _ => s
  | .refused _ => s

/-- The payload of the reply in the slot. -/
def reply (s : State) : List Byte :=
  match s.link.slot with
  | some r => r.frame.payload
  | none => []

/-- A geometry with one station at 50 on OUT3. -/
def config : LaneConfig :=
  { LaneConfig.reset with entryInput := some 0, d := 10, x := 100, l := 60, limit := 2
                          stations := tset LaneConfig.reset.stations 0 (some { offset := 50, output := 3 }) }

/-- Lane 0 with that geometry in a state; IN0 is its eye and OUT3 its actuator; disposition 1 fires the station. -/
def plant (st : LaneState) : State :=
  { State.reset with
    lanes := tset State.reset.lanes 0 { Lane.reset with config := config, state := st }
    inputs := tset State.reset.inputs 0 { Input.reset with role := .entry, awaiting := false }
    outputs := tset State.reset.outputs 3 { Output.reset with role := .actuator }
    verdicts := { State.reset.verdicts with
      dispositions := tset State.reset.verdicts.dispositions 1
        { firings := [{ station := 0, adjust := 0, widthKind := .counts, width := 5 }], confirm := none } } }

/-- A record of lane 0. -/
def item (rid : Nat) (st : ItemState) : Item :=
  { rid := rid, lane := 0, tag := 0, state := st, entryPos := 0, entryTime := 0, covering := false, length := none
    overlength := false, stored := none, amend := 0, committed := none, skipped := false, result := none
    entryFlag := .notDue, commitFlag := .notDue, outcomeFlag := .notDue }

/-- The plant in a state with one item in the queue of lane 0. -/
def tracking (st : LaneState) : State :=
  { plant st with items := { Items.reset with queues := tset Items.reset.queues 0 [item 0 .opened], nextRid := 1 } }

/-- A state whose transmitter is busy with a notice. -/
def busy (s : State) : State :=
  { s with link := { s.link with transmitter := .notice { kind := 0x83, seq := 0, payload := [] } } }

/-! ### Commands on small states -/

theorem test_crc : crc16 [0x31, 0x32, 0x33, 0x34, 0x35, 0x36, 0x37, 0x38, 0x39] = 0x29B1 := by decide

theorem test_getStatus : reply (after (.getStatus 7) State.reset) =
    [0, 0, 0, 0, 0, 0, 0, 0, 0, 192, 64, 0, 0, 0, 0, 0, 0, 0, 0, 0, 0, 0, 0, 0, 0, 0, 0, 0, 0, 0, 0, 0, 0, 0, 1] := by decide

theorem test_powerUp_strap : (after (.powerOnReset .powerUp .high .low) State.reset).link.baud = .b921600 := by decide

theorem test_softReset_keeps_baud :
    (after .softReset { State.reset with link := { Link.reset with baud := .b460800 } }).link.baud = .b460800 := by decide

theorem test_reset_reply : reply (after (.reset 1) State.reset) = [0] := by decide

theorem test_getConfig_lane : reply (after (.getConfig 1 4 0) State.reset) = [0, 4, 0, 0, 0, 1, 4] := by decide

theorem test_ackNotice_none : reply (after (.ackNotice 1 0) State.reset) = [0, 0, 0, 0] := by decide

theorem test_setNotice : reply (after (.setNotice 1
    { subKinds := 7, inputs := 0, timers := 0, confirm := 1, levelItem := 3, levelLane := 3, levelInput := 0
      levelTimer := 0, levelReaction := 0, levelConfirm := 0, window := 8, timeout := 10, retryLimit := 15 })
    State.reset) = [0] := by decide

theorem test_setLane_bad : reply (after (.setLane 1 4
    { entryInput := 0, d := 1, x := 3, l := 2, station0 := ⟨0xFFFFFFFF, 0⟩, station1 := ⟨0xFFFFFFFF, 0⟩
      station2 := ⟨0xFFFFFFFF, 0⟩, station3 := ⟨0xFFFFFFFF, 0⟩, default := 0, limit := 1, holdOutput := 0xFF
      holdMark := 0 }) State.reset) = [3] := by decide

theorem test_getLane : reply (after (.getLane 1 0) (plant .run)) =
    [0, 0, 0, 10, 0, 0, 0, 100, 0, 0, 0, 60, 0, 0, 0, 50, 0, 0, 0, 3, 255, 255, 255, 255, 255, 255, 255, 255, 255, 255,
      255, 255, 255, 255, 255, 0, 2, 255, 0, 1, 0, 255, 0, 0, 0, 0, 0, 0, 0, 0] := by decide

theorem test_arm_check1 : reply (after (.arm 1 0) State.reset) = [9, 1] := by decide

theorem test_arm_runs : reply (after (.arm 1 0) (plant .off)) = [0, 1, 0] := by decide

theorem test_disarm_empty : reply (after (.disarm 1 0) (plant .run)) = [0, 0] := by decide

theorem test_disarm_drains : reply (after (.disarm 1 0) (tracking .run)) = [0, 2] := by decide

theorem test_clear : reply (after (.clear 1 0) (tracking .fault)) = [0, 1] := by decide

theorem test_setDisposition_full : reply (after (.setDisposition 1 0 (List.replicate 5 ⟨0, 0, 0, 1⟩) none) State.reset) = [3] := by
  decide

theorem test_verdict_stored : reply (after (.verdict 1 0 0 1) (tracking .run)) = [0, 0, 0] := by decide

theorem test_verdict_advance : reply (after (.verdict 1 0 7 1) (plant .run)) = [0, 2, 1] := by decide

theorem test_getItem_unknown : reply (after (.getItem 1 0 5) State.reset) = [5] := by decide

/-- A record with every field present. -/
def record : Item :=
  { item 0 .done with
    tag := 0x0102, entryPos := 0x01020304, entryTime := 5, length := some 6, overlength := true, amend := 2
    stored := some { index := 7, source := .advance }, result := some .leak, entryFlag := .sent, outcomeFlag := .queued
    committed := some { source := .default, index := 9, substituted := true
                        firings := [{ station := 1, fireOffset := 10, widthKind := .counts, width := 11, result := .done }]
                        confirm := some { input := 12, openOffset := 13, closeOffset := 14, expect := .absent, result := .leak } } }

theorem test_getItem_bytes : record.replyBytes =
    [0, 2, 1, 3, 0x3A, 4, 3, 2, 1, 5, 0, 0, 0, 6, 0, 0, 0, 7, 1, 2, 2, 9, 5, 3, 0, 2, 1, 1, 4,
      1, 1, 10, 0, 0, 0, 11, 0, 1, 12, 1, 13, 0, 0, 0, 14, 0, 0, 0] := by decide

theorem test_summary_bytes : record.summaryBytes = [2, 1, 3, 4, 3, 2, 1, 6, 0, 0, 0, 9, 5, 0x0A] := by decide

theorem test_listItems_full : reply (after (.listItems 1 0 1) State.reset) = [7] := by decide

theorem test_setOutput_inUse : reply (after (.setOutput 1 3 0 0 0) (plant .run)) = [8] := by decide

theorem test_forceOutput_hold : reply (after (.forceOutput 1 3 1 0) (plant .off)) = [0, 1, 3, 1, 0, 0] := by decide

theorem test_setInput : reply (after (.setInput 1 5 3 0 0 0 2 0) State.reset) = [0, 0, 1] := by decide

theorem test_setEncoder_running : reply (after (.setEncoder 1 0 256 4) (plant .run)) = [4] := by decide

theorem test_setPosition : (after (.setPosition 1 5) State.reset).position.hw = 5 := by decide

theorem test_getPosition : reply (after (.getPosition 1) State.reset) = [0, 0, 0, 0, 0, 0, 0, 0, 0, 0, 0, 0, 0, 0, 0, 0, 0, 0] := by
  decide

theorem test_setTimer : reply (after (.setTimer 1 3 0 0) State.reset) = [3] := by decide

theorem test_startTimer : reply (after (.startTimer 1 0) State.reset) = [0, 1, 0xE8, 0x03] := by decide

theorem test_stopTimer : reply (after (.stopTimer 1 0) State.reset) = [0, 0, 0, 0] := by decide

theorem test_setReaction : reply (after (.setReaction 1 0
    { triggerKind := 3, triggerParam := 0xFF, triggerResult := 7, actionKind := 3, actionParam := 2, actionWidth := 1
      mode := 1, chain := 0x0FFF }) State.reset) = [0] := by decide

theorem test_enableReaction : reply (after (.enableReaction 1 1 0) State.reset) = [4] := by decide

theorem test_fireReaction : reply (after (.fireReaction 1 11) State.reset) = [0, 0, 0, 0] := by decide

theorem test_unknownKind : reply (after (.unknownKind 0x3F 1 [1]) State.reset) = [1] := by decide

theorem test_frameReceived_bad : (after (.frameReceived 0x01 0 [] 0) State.reset).link.badFrames = 1 := by decide

theorem test_byteReceived_start :
    (after (.byteReceived 0xD5) State.reset).link.receiver = .assembling [] := by decide

theorem test_gap : (after .interByteGap { State.reset with
    link := { Link.reset with receiver := .assembling [2] } }).link.badFrames = 1 := by decide

theorem test_framingError : after .framingError State.reset = State.reset := by decide

theorem test_replyEnd : (after .replyEnd (after (.getPosition 1) State.reset)).link.slot = none := by decide

theorem test_noticeFrameEnd : (after .noticeFrameEnd (busy State.reset)).link.transmitter = .idle := by decide

theorem test_noticeSend : after .noticeSend State.reset = State.reset := by decide

theorem test_noticeAdmission : after .noticeAdmission State.reset = State.reset := by decide

theorem test_forwardStep : (after .forwardStep State.reset).position.hw = 1 := by decide

theorem test_reverseStep : (after .reverseStep State.reset).position.rd = 1 := by decide

theorem test_illegalTransition : (after .illegalTransition State.reset).position.encoderFault = true := by decide

theorem test_illegalTransition_faults :
    (after .illegalTransition (tracking .run)).lanes[0].first = some .encoder := by decide

theorem test_channelLevelChange_accepted :
    (after (.channelLevelChange { channel := .ea, samples := 3 }) State.reset).position.bp = 1 := by decide

theorem test_channelLevelChange_discarded : after (.channelLevelChange { channel := .ea, samples := 1 })
    (after (.channelLevelChange { channel := .ea, samples := 2 }) State.reset) = State.reset := by decide

theorem test_msTick : after .msTick State.reset = State.reset := by decide

theorem test_tsAdvance : (after .tsAdvance { State.reset with
    position := { Position.reset with subMs := 999 } }).position.tickDue = true := by decide

/-- R184: the notice that the tick of a TS_ADVANCE gives is granted the free line at the end of the tick. -/
theorem test_tsAdvance_grants : (after .tsAdvance { State.reset with
    position := { Position.reset with tickDue := true }
    timers := tset State.reset.timers 1 { Timer.reset with running := true, remaining := 1 }
    notices := { Notices.reset with settings := { NoticeSettings.reset with timersOn := 2 } } }).link.transmitter =
    .notice { kind := 0x85, seq := 0, payload := [1, 0, 0, 0, 0, 0] } := by decide

/-- R147: the tick is taken against all four timers. -/
theorem test_timerExpiry_counts_all : (after (.timerExpiry 1) { State.reset with
    position := { Position.reset with tickDue := true }
    timers := tset (tset State.reset.timers 1 { Timer.reset with running := true, remaining := 1 }) 0
      { Timer.reset with running := true, remaining := 9 } }).timers[0].remaining = 8 := by decide

theorem test_offTime : after (.offTime { lane := 0, tag := 0, firing := 0 }) State.reset = State.reset := by decide

theorem test_pulseEnd : after (.pulseEnd 0) State.reset = State.reset := by decide

theorem test_timerExpiry : (after (.timerExpiry 1) { State.reset with
    position := { Position.reset with tickDue := true }
    timers := tset State.reset.timers 1 { Timer.reset with running := true, remaining := 1 } }).timers[1].running = false := by
  decide

theorem test_ackTimeout : after .ackTimeout State.reset = State.reset := by decide

theorem test_firstSample_run : ((after (.firstSample 0 .high) { plant .run with
    inputs := tset State.reset.inputs 0 { Input.reset with filterOn := true, awaiting := false } }).inputs[0].run).isSome := by
  decide

theorem test_runSample : after (.runSample 0) State.reset = State.reset := by decide

theorem test_runAbandoned : after (.runAbandoned 0) State.reset = State.reset := by decide

/-- R10: a fresh leading edge on a RUN lane creates item 0, whose ENTRY notice is sent at once. -/
theorem test_acceptedTransition_creates :
    ((after (.acceptedTransition 0) (plant .run)).items.queues[0].map (fun it => (it.tag, it.state, it.entryFlag))) =
      [(0, .opened, .sent)] := by decide

/-- R16: at its jam point the covering item is overlength and the lane is in FAULT. -/
theorem test_jam : (((plant .run).setQueue 0 [{ item 0 .committed with covering := true }]).jamPoint 0 0).lanes[0].first =
    some .jam := by decide

/-- R46: a commit creates the schedule entry of its firing. -/
theorem test_commit : ((({ tracking .run with items := { Items.reset with
    queues := tset Items.reset.queues 0 [{ item 0 .opened with stored := some { index := 1, source := .host } }]
    nextRid := 1 } } : State).commit 0 0).schedule.positionList.map (·.onPos)) = [50] := by decide

/-! ### A state that meets the hypotheses of each statement, its clauses at their edges -/

/-- The link with a receiver in a state. -/
def receiving (r : Receiver) : State :=
  { State.reset with link := { Link.reset with receiver := r } }

/-- A reply to GET_STATUS in the slot, sent as `begun` says, with requests that wait. -/
def answering (begun resets : Bool) (requests : List Frame) : State :=
  { State.reset with link := { Link.reset with
      slot := some { frame := { kind := 0x41, seq := 0, payload := [] }, begun := begun, resets := resets }
      transmitter := .reply { kind := 0x41, seq := 0, payload := [] }, requests := requests } }

/-- A request frame. -/
def ask : Frame := { kind := 0x01, seq := 1, payload := [] }

theorem takes_reset (kind seq : Byte) : State.reset.takesNow kind seq := ⟨rfl, rfl, rfl, rfl⟩

theorem takes_plant (st : LaneState) (kind seq : Byte) : (plant st).takesNow kind seq := ⟨rfl, rfl, rfl, rfl⟩

theorem takes_tracking (st : LaneState) (kind seq : Byte) : (tracking st).takesNow kind seq := ⟨rfl, rfl, rfl, rfl⟩

theorem quiet_reset : State.reset.quiet := ⟨rfl, Or.inr ⟨rfl, rfl⟩⟩

theorem quiet_receiving (r : Receiver) : (receiving r).quiet := ⟨rfl, Or.inr ⟨rfl, rfl⟩⟩

theorem witness_FrontCommandRuns : State.reset.pending = [] := rfl

theorem witness_PowerOnResetRestoresEveryBlock :
    (∃ ns, ResetCause.lowPulse 1000 = .lowPulse ns ∧ 1000 ≤ ns) ∧ (ResetCause.lowPulse 199 = .lowPulse 199 ∧ 199 < 200) ∧
      ((200 : Nat) ≤ 200 ∧ 999 < 1000) := by
  exact ⟨⟨1000, rfl, le_refl _⟩, ⟨rfl, by decide⟩, by decide⟩

theorem witness_BytesAreAssembledAndFramesChecked :
    (receiving .hunting).quiet ∧ (receiving (.assembling [])).quiet ∧ (1 : Byte).toNat < 2 ∧ 130 < (131 : Byte).toNat ∧
      2 ≤ (2 : Byte).toNat ∧ (130 : Byte).toNat ≤ 130 ∧ (receiving (.assembling [2, 0, 0])).quiet ∧
      [(0 : Byte), 0].length + 1 < (2 : Byte).toNat + 2 ∧
      ¬ (crc16 (Frame.covered { kind := 0x40, seq := 0, payload := [] }) = 0 ∧ 1 ≤ (0x40 : Byte).toNat ∧
        (0x40 : Byte).toNat ≤ 0x3F) ∧ (1 ≤ (0x3F : Byte).toNat ∧ (0x3F : Byte).toNat ≤ 0x3F) ∧
      ((receiving (.assembling [3, 9, 0, 7, 1])).link.receiver = .assembling ((3 : Byte) :: 9 :: 0 :: ([7] ++ [1])) ∧
        (3 : Byte).toNat = [(7 : Byte)].length + 2) :=
  ⟨quiet_receiving _, quiet_receiving _, by decide, by decide, by decide, by decide, quiet_receiving _, by decide,
    by decide, by decide, rfl, by decide⟩

/-- R178: the byte that completes a frame with a wrong CRC has it discarded and counted. -/
theorem test_wrong_crc : after (.byteReceived 0) (receiving (.assembling [2, 1, 0, 0])) =
    { State.reset with link := { Link.reset with badFrames := 1 } } := by decide

theorem witness_FrameBytesDeliverTheFrame : State.reset.quiet ∧ State.reset.link.receiver = .hunting ∧
    ({ kind := 1, seq := 0, payload := List.replicate 128 0 } : Frame).payload.length ≤ 128 :=
  ⟨quiet_reset, rfl, by decide⟩

theorem witness_WaitingOverrunAndDuplicateFrames :
    (answering true false [ask]).agenda = [] ∧ (answering true false [ask]).link.transmitter ≠ .idle ∧
      (answering true false [ask]).link.requests.length < 2 ∧ 2 ≤ (answering true false [ask, ask]).link.requests.length ∧
      (answering true false []).link.slot ≠ none ∧
      (∃ s : State, s.agenda = [] ∧ s.link.requests = [] ∧ s.link.slot = none ∧
        s.link.last = some { kind := 0x3F, seq := 0, reply := ask }) ∧
      (Notices.reset.stalled = false ∧ ({ Notices.reset with stalled := true } : Notices).stalled = true) :=
  ⟨rfl, by decide, by decide, by decide, by decide,
    ⟨{ State.reset with link := { Link.reset with last := some { kind := 0x3F, seq := 0, reply := ask } } }, rfl, rfl, rfl, rfl⟩,
    rfl, rfl⟩

theorem witness_UnknownKindAndResetAreAnswered :
    State.reset.takesNow 0x3F 0 ∧ (Instr.unknownKind 0x3F 0 []).wellFormed = true ∧ State.reset.takesNow 0x02 0 ∧
      (State.reset.takesNow 0x2E 0 ∧ State.reset.takesNow 0x10 0) ∧
      (([] : List Byte).length ≠ 1 ∧ [(0 : Byte), 0].length < 3 ∧
        [(0 : Byte)].length ≠ 6 * (0 : Byte).toNat + (if (0 : Byte) = 0 then 0 else 10) ∧
        (List.replicate 16 (0 : Byte)).length = 6 * (1 : Byte).toNat + (if (2 : Byte) = 0 then 0 else 10) ∧
        1 < (2 : Byte).toNat) :=
  ⟨takes_reset _ _, by decide, takes_reset _ _, ⟨takes_reset _ _, takes_reset _ _⟩, by decide⟩

/-- R192: a payload of another length is refused with BAD_LENGTH. -/
theorem test_bad_length : reply (after (.frameReceived 0x2E 0 [] (crc16 [2, 0x2E, 0])) State.reset) = [2] := by decide

/-- The transmitter IDLE and a reply that has not begun. -/
def pausing : State :=
  { answering false false [] with link := { (answering false false []).link with transmitter := .idle } }

/-- A state with an entry marked for resending. -/
def resending (s : State) : State :=
  { s with notices := { Notices.reset with
      sent := [{ kind := .stray, contents := some [], link := .none, number := some 7, resend := true }] } }

theorem witness_EndsOfFramesGrantTheLine :
    (answering true true []).link.slot =
        some { frame := { kind := 0x41, seq := 0, payload := [] }, begun := true, resets := true } ∧
      ((answering true false []).agenda = [] ∧ (answering true false []).notices.hasFrame = false) ∧
      (answering true false [ask]).link.requests = [ask] ∧ (answering true false [ask]).link.isDuplicate ask = false ∧
      (busy (answering false false [])).link.slot.map (·.begun) = some false ∧
      ((busy State.reset).link.replyWaits = false ∧ (busy State.reset).notices.hasFrame = false) ∧
      (pausing.link.transmitter = .idle ∧ pausing.link.slot.map (·.begun) = some false) ∧
      (State.reset.link.transmitter = .idle ∧ State.reset.link.replyWaits = false ∧
        State.reset.notices.hasFrame = false ∧ State.reset.agenda = []) ∧
      ((resending State.reset).link.transmitter = .idle ∧ (resending State.reset).link.replyWaits = false ∧
        (resending State.reset).notices.hasFrame = true) ∧
      ((resending (answering true false [])).link.requests = [] ∧ (resending (answering true false [])).agenda = [] ∧
        (resending (busy State.reset)).agenda = []) ∧
      (State.reset.link.requests = [] ∧ State.reset.link.slot = none ∧ State.reset.link.isDuplicate ask = false) ∧
      ({ Link.reset with last := some { kind := 1, seq := 1, reply := ask } } : Link).isDuplicate ask = true := by decide

/-- R184: a notice frame that is ready begins as a reply ends, and as a notice frame ends. -/
theorem test_ends_grant :
    (after .replyEnd (resending (answering true false []))).link.transmitter =
        .notice { kind := NoticeKind.stray.code, seq := 7, payload := [] } ∧
      (after .noticeFrameEnd (resending (busy State.reset))).link.transmitter =
        .notice { kind := NoticeKind.stray.code, seq := 7, payload := [] } := by decide

/-- R180: the request that waited is executed as the reply ends. -/
theorem test_replyEnd_executes :
    (after .replyEnd (answering true false [{ kind := 0x21, seq := 1, payload := [5, 0, 0, 0] }])).position.hw = 5 := by decide

theorem witness_ReadRequestsReturnTheState : (tracking .run).takesNow 0x01 0 ∧ (tracking .run).takesNow 0x22 0 ∧
    (tracking .run).takesNow 0x09 0 ∧ 3 < (4 : Byte).toNat ∧ (3 : Byte) = natByte (3 : LaneId) :=
  ⟨takes_tracking _ _ _, takes_tracking _ _ _, takes_tracking _ _ _, by decide, by decide⟩

/-- The plant with a DONE record of lane 0. -/
def retired : State :=
  { plant .off with items := { Items.reset with done := [item 0 .done], nextRid := 1 } }

theorem witness_ItemReadsReturnRecords :
    ((tracking .run).takesNow 0x12 0 ∧ ((tracking .run).items.queues[(0 : LaneId)].find? (fun x => x.tag = 0)).isSome = true) ∧
      (State.reset.items.queues[(0 : LaneId)].find? (fun x => x.tag = 0) = none ∧ State.reset.items.retired = []) ∧
      (retired.items.queues[(0 : LaneId)].find? (fun x => x.tag = 0) = none ∧
        ∃ it ∈ retired.items.retired, it.lane = 0 ∧ it.tag = 0) ∧
      (1 : Byte).toNat ≤ (tracking .run).items.queues[(0 : LaneId)].length ∧
      (tracking .run).items.queues[(0 : LaneId)].length < (2 : Byte).toNat :=
  ⟨⟨takes_tracking _ _ _, by decide⟩, by decide, ⟨by decide, item 0 .done, by decide, by decide, by decide⟩, by decide, by decide⟩

theorem witness_GetConfigReadsTheRecord :
    State.reset.takesNow 0x03 0 ∧ (15 : Byte) = natByte (15 : Fin 16) ∧ (3 : Byte) = natByte (3 : Fin 4) ∧
      (11 : Byte) = natByte (11 : Fin 12) ∧ 7 < (8 : Byte).toNat ∧ 15 < (16 : Byte).toNat ∧ 11 < (12 : Byte).toNat :=
  ⟨takes_reset _ _, by decide, by decide, by decide, by decide, by decide, by decide⟩

/-- A reaction as SET_REACTION writes it, disabled or enabled. -/
def reacting (x : Reaction) : State :=
  { State.reset with reactions := tset State.reset.reactions 11 x }

/-- Timer 0 as a SET_TIMER has left it, with a reaction that starts it. -/
def timerSet : State :=
  { State.reset with
    timers := tset State.reset.timers 0 { Timer.reset with period := 1 }
    reactions := tset State.reset.reactions 0 { Reaction.reset with action := .timerStart 0 } }

theorem witness_TimerRequestsWriteStartAndStop :
    (State.reset.takesNow 0x28 0 ∧ 3 < (4 : Byte).toNat ∧ 1 < (2 : Byte).toNat ∧
      ((3 : Byte) = natByte (3 : TimerId) ∧ (1 : Byte) = TimerMode.periodic.code ∧ (65535 : Half) ≠ 0) ∧
      timerSet.timers[(0 : TimerId)] =
        { State.reset.timers[(0 : TimerId)] with period := 1, mode := .oneShot, running := false, remaining := 0 } ∧
      timerSet.quiet ∧ timerSet.takesNow 0x29 0 ∧ timerSet.reactions[(0 : ReactionId)].action = .timerStart 0) ∧
    (State.reset.takesNow 0x29 0 ∧ State.reset.takesNow 0x2A 0) ∧
    (reacting { Reaction.reset with action := .timerStop 3 }).reactions[(11 : ReactionId)].action = .timerStop 3 ∧
    (State.reset.timers[(3 : TimerId)].Ok ∧ State.reset.timers[(3 : TimerId)].running = false) :=
  ⟨⟨takes_reset _ _, by decide, by decide, by decide, by decide, ⟨rfl, Or.inr ⟨rfl, rfl⟩⟩, ⟨rfl, rfl, rfl, rfl⟩, by decide⟩,
    ⟨takes_reset _ _, takes_reset _ _⟩, by decide, by unfold Timer.Ok; decide⟩

/-- A timer at its last tick, which is due, with the transmitter busy. -/
def expiring : State :=
  busy { State.reset with
    position := { Position.reset with tickDue := true }
    timers := tset State.reset.timers 3 { Timer.reset with running := true, remaining := 1 } }

/-- `expiring` with a TIME firing and a pulse that end 1 µs later. -/
def expiringPulse : State :=
  { expiring with
    schedule := { Schedule.reset with nextSerial := 1, timeList :=
      [{ serial := 0, rid := 0, owner := ⟨0, 0, 0⟩, output := 3, widthKind := .time, width := 1, phase := .onTime 1
         onPos := 0 }] }
    outputs := tset State.reset.outputs 4 { Output.reset with role := .general, pulse := some 1 } }

theorem witness_TickCountsEveryTimer : expiringPulse.agenda = [] ∧
    (∀ (r : ReactionId) (k : TimerId), expiringPulse.reactions[r].enabled = true →
      expiringPulse.reactions[r].trigger ≠ .timer k) ∧
    (∀ e ∈ expiringPulse.schedule.timeList, (expiringPulse.position.ts - e.filing).toInt < 0) ∧
    expiringPulse.outputs[(4 : OutputId)].pulse = some 1 ∧ (expiringPulse.position.ts - 1).toInt < 0 ∧
    ∀ o : OutputId, o ≠ 4 → expiringPulse.outputs[o].pulse = none := by decide

/-- The tick counts the timer and ends neither. -/
theorem test_tick_ends_neither : (after .msTick expiringPulse).timers[(3 : TimerId)].running = false ∧
    (after .msTick expiringPulse).schedule = expiringPulse.schedule ∧
    (after .msTick expiringPulse).outputs = expiringPulse.outputs := by decide

/-- The acknowledgement timer runs, with the transmitter busy. -/
def awaitingAck (k retry : Nat) : State :=
  busy { State.reset with
    position := { Position.reset with tickDue := true }
    notices := { Notices.reset with ackTimer := some k, retry := retry } }

theorem witness_AckTimerCountsAndTimesOut :
    ((awaitingAck 2 0).quiet ∧ (∀ t : TimerId, (awaitingAck 2 0).timers[t].running = false) ∧
      (awaitingAck 2 0).notices.ackTimer = some 2) ∧
    ((awaitingAck 1 4).notices.retry < (awaitingAck 1 4).notices.settings.retryLimit) ∧
    ((awaitingAck 1 5).notices.settings.retryLimit ≤ (awaitingAck 1 5).notices.retry ∧ (awaitingAck 1 5).notices.retry < 16) ∧
    (State.reset.quiet ∧ State.reset.notices.ackTimer = none) ∧
    ((awaitingAck 1 4).agenda = [] ∧ (∀ t : TimerId, (awaitingAck 1 4).timers[t].running = false) ∧
      (awaitingAck 1 4).schedule.timeList = [] ∧ (∀ o : OutputId, (awaitingAck 1 4).outputs[o].pulse = none) ∧
      (awaitingAck 1 4).notices.ackEarly = false ∧ (awaitingAck 1 4).position.tickDue = true) ∧
    ({ Notices.reset with ackEarly := true } : Notices).ackEarly = true :=
  ⟨⟨⟨rfl, Or.inl (by decide)⟩, by decide, rfl⟩, by decide, by decide, ⟨quiet_reset, rfl⟩, by decide, rfl⟩

/-- R170: MS_TICK at the last count begins a resend round, or stalls the link. -/
theorem test_tick_times_out :
    ((after .msTick (awaitingAck 1 4)).notices.retry, (after .msTick (awaitingAck 1 4)).notices.ackTimer,
      (after .msTick (awaitingAck 1 5)).notices.stalled) = (5, some 100, true) := by decide

/-- `expiring` with TIMER notices on and a number of unsent entries. -/
def expiringWith (n : Nat) : State :=
  { expiring with notices := { Notices.reset with
      settings := { NoticeSettings.reset with timersOn := 8 }
      unsent := List.replicate n { kind := .stray, contents := some [], link := .none, number := none, resend := false } } }

/-- `expiring` with a reaction on the timer that starts it again. -/
def restarting : State :=
  { expiring with
    reactions := tset State.reset.reactions 0 { Reaction.reset with trigger := .timer 3, action := .timerStart 3, enabled := true } }

theorem witness_TimerExpiryUpdatesThenReports :
    (expiring.agenda = [] ∧ expiring.link.transmitter ≠ .idle ∧ expiring.timers[(3 : TimerId)].running = true ∧
      expiring.timers[(3 : TimerId)].remaining = 1 ∧ expiring.position.tickDue = true ∧
      expiring.position.timersTaken = false ∧
      expiring.matching (.timer 3) = [] ∧
      (∀ k : TimerId, k ≠ 3 → expiring.timers[k].running = true → 1 < expiring.timers[k].remaining) ∧ expiring.notices.settings.timersOn.getLsbD 3 = false) ∧
    ((expiringWith 23).notices.settings.timersOn.getLsbD 3 = true ∧ (expiringWith 23).notices.depth < 24 ∧
      24 ≤ (expiringWith 24).notices.depth) ∧
    (restarting.timers[(3 : TimerId)].running = true ∧ restarting.timers[(3 : TimerId)].remaining ≤ 1 ∧
      restarting.matching (.timer 3) = [0] ∧ restarting.agenda = []) := by decide

/-- R147: the closure of the expiry's trigger finds the timer stopped, and starts it again. -/
theorem test_expiry_triggers : (after (.timerExpiry 3) restarting).timers[(3 : TimerId)] =
    { Timer.reset with running := true, remaining := 1000 } := by decide

/-- One input in a state, the transmitter idle. -/
def sensing (x : Input) : State :=
  { State.reset with inputs := tset State.reset.inputs 0 x }

/-- A run to HIGH with some samples taken. -/
def run (count : Nat) : Run :=
  { candidate := .high, count := count, capture := { bp := 0, rd := 0, ts := 0, ft := 4 } }

theorem quiet_sensing (x : Input) : (sensing x).quiet := ⟨rfl, Or.inr ⟨rfl, rfl⟩⟩

theorem settled_reset : State.reset.position.settled := ⟨rfl, rfl, rfl, rfl⟩

/-- A run whose next sample is due, `n` samples taken, one µs apart. -/
def sampling (role : InputRole) (mark : SampleMark) (n : Nat) : State :=
  { sensing { Input.reset with role := role, awaiting := false, filterOn := true, mark := mark, run := some (run n) } with
    position := { Position.reset with ts := BitVec.ofNat 32 n } }

theorem awaits_sampling (role : InputRole) (n : Nat) (h : n < 4) : (sampling role .due n).awaitsSample 0 (run n) := by
  refine ⟨rfl, rfl, 1, rfl, ?_⟩
  have all : ∀ k : Fin 4, (k.val * 1 : Nat) ≤ (BitVec.ofNat 32 k.val - (0 : Pos)).toNat := by decide
  exact all ⟨n, h⟩

/-- A µs that has a change of EA, a tick and a change at IN0 left. -/
def leaving : State :=
  { sensing { Input.reset with awaiting := false, accepted := .high } with
    position := { Position.reset with eaPin := .high, tickDue := true } }

theorem witness_TimeAdvances :
    State.reset.position.settled ∧ State.reset.inputs[(0 : InputId)].awaiting = true ∧
      (sampling .unused .due 3).awaitsSample 0 (run 3) ∧
      (sensing { Input.reset with awaiting := false, filterOn := true, accepted := .high }).inputs[(0 : InputId)].accepted ≠
        State.reset.pins[(0 : InputId)] ∧
      (State.reset.quiet ∧ State.reset.position.tickDue = false) ∧
      (leaving.leftovers = [.channels, .tick, .input 0] ∧ ¬ leaving.position.settled ∧
        leaving.inputs[(0 : InputId)].run = none ∧ leaving.inputs[(0 : InputId)].mark = .due) :=
  ⟨settled_reset, rfl, awaits_sampling _ _ (by decide), by decide, ⟨quiet_reset, rfl⟩, by decide,
    fun h => absurd h.1 (by decide), rfl, rfl⟩

theorem witness_SetReactionWritesADisabledReaction :
    State.reset.takesNow 0x2C 0 ∧ 11 < (12 : Byte).toNat ∧ triggerOf 6 0 0 = none ∧ actionOf 9 0 0 = none ∧
      (11 : Byte) = natByte (11 : ReactionId) ∧ triggerOf 1 15 0 = some (.input 15) ∧
      actionOf 3 15 1 = some (.outPulse 15 1) ∧ (1 : Byte) = ReactionMode.once.code ∧ (0x0FFF : Half).toNat < 4096 ∧
      (reacting { Reaction.reset with enabled := true }).reactions[(11 : ReactionId)].enabled = true ∧
      State.reset.reactions[(11 : ReactionId)].enabled = false :=
  ⟨takes_reset _ _, by decide, by decide, by decide, by decide, by decide, by decide, by decide, by decide, by decide, by decide⟩

theorem witness_EnableReactionChangesTheFlags :
    State.reset.takesNow 0x2D 0 ∧ 4096 ≤ (0x1000 : Half).toNat ∧ (1 : Half) &&& 1 ≠ 0 ∧
      ((0x0800 : Half).toNat < 4096 ∧ (0x0800 : Half) &&& 0x07FF = 0 ∧ (0x0800 : Half).getLsbD 11 = true ∧
        State.reset.reactions[(11 : ReactionId)].trigger = .none) ∧
      (∀ r : ReactionId, (0x0800 : Half).getLsbD r = true →
        (reacting { Reaction.reset with trigger := .requestOnly }).reactions[r].trigger ≠ .none) :=
  ⟨takes_reset _ _, by decide, by decide, by decide, by decide⟩

/-- Reaction 11 enabled on IN0, whose edges give no notice; the transmitter is busy. -/
def reactingInput : State :=
  busy { sensing { Input.reset with role := .general, awaiting := false, edge := .both } with
    reactions := tset State.reset.reactions 11 { Reaction.reset with trigger := .input 0, enabled := true, mode := .once } }

theorem witness_TriggersAreTakenByTheirClosures :
    (∀ r ∈ [(11 : ReactionId)], reactingInput.reactions[r].enabled = true) ∧
      (11 : ReactionId) ∈ reactingInput.matching (.input 0 .activation) ∧
      State.reset.matching (.input 0 .activation) = [] ∧
      (reactingInput.agenda = [] ∧ reactingInput.link.transmitter ≠ .idle ∧
        reactingInput.inputs[(0 : InputId)].role = .general ∧ reactingInput.inputs[(0 : InputId)].edge = .both ∧
        reactingInput.notices.settings.inputsOn.getLsbD 0 = false) ∧
      reactingInput.acceptsAs 0 .high reactingInput.position.capture ∧
      ((reactingInput.accepted 0 .high).performAll
        (reactingInput.closure (reactingInput.matching (.input 0 .activation)))).agenda = [] :=
  ⟨by decide, by decide, by decide, by decide, Or.inl ⟨by decide, by decide, by decide, by decide, by decide, rfl⟩, by decide⟩

theorem witness_ActionsDoTheirEffect :
    (State.reset.reactions[(0 : ReactionId)].action = .none) ∧
      (∀ a ∈ [Action.outSet 3, .outClear 3, .outPulse 3 1, .laneHold 0, .capture, .notify],
        (reacting { Reaction.reset with action := a }).reactions[(11 : ReactionId)].action = a) ∧
      (plant .off).lanes[(0 : LaneId)].state = .off ∧ (plant .fault).lanes[(0 : LaneId)].state = .fault ∧
      (plant .run).lanes[(0 : LaneId)].state = .run ∧ (plant .drain).lanes[(0 : LaneId)].state = .drain := by decide

/-- Reaction 11 enabled, setting the latch of the GENERAL output OUT15. -/
def firing : State :=
  { reacting { Reaction.reset with trigger := .requestOnly, action := .outSet 15, enabled := true } with
    outputs := tset State.reset.outputs 15 { Output.reset with role := .general } }

theorem witness_FireReactionPerformsTheClosure :
    firing.takesNow 0x2E 0 ∧ 11 < (12 : Byte).toNat ∧ (11 : Byte) = natByte (11 : ReactionId) ∧
      firing.reactions[(10 : ReactionId)].enabled = false ∧ firing.reactions[(11 : ReactionId)].enabled = true ∧
      firing.reactions[(11 : ReactionId)].mode = .repeating ∧ firing.reactions[(11 : ReactionId)].chain = 0 ∧
      firing.reactions[(11 : ReactionId)].action = .outSet 15 ∧ firing.outputs[(15 : OutputId)].role = .general :=
  ⟨⟨rfl, rfl, rfl, rfl⟩, by decide, by decide, by decide, by decide, by decide, by decide, by decide, by decide⟩

theorem witness_EncoderRequestsWriteThePositionUnit :
    State.reset.takesNow 0x20 0 ∧ 3 < (4 : Byte).toNat ∧ (3 : Byte) = EncoderMode.count.code ∧
      ((plant .fault).takesNow 0x20 0 ∧ ∃ l : LaneId, (plant .fault).lanes[l].state ≠ .off) ∧
      (State.reset.takesNow 0x21 0 ∧ ∀ l : LaneId, State.reset.lanes[l].state = .off) :=
  ⟨takes_reset _ _, by decide, by decide, ⟨takes_plant _ _ _, 0, by decide⟩, takes_reset _ _, by decide⟩

/-- The belt at a reverse depth and limit, with an item on a RUN lane. -/
def backed (rd : Pos) (rl : Half) : State :=
  { tracking .run with position := { Position.reset with hw := rd, rl := rl } }

theorem witness_ForwardStepMovesTheBeltAndOffersPoints :
    ((backed 1 256).quiet ∧ (backed 1 256).position.bp ≠ (backed 1 256).position.hw) ∧
      ((backed 10 256).agenda = [] ∧
        0 ≤ ((backed 10 256).position.hw - ((item 0 .opened).entryPos + BitVec.ofNat 32 config.d)).toInt ∧
        (backed 9 256).decisionsDue 0 = [] ∧ (backed 10 256).decisionsDue 0 ≠ [] ∧ (backed 100 256).exitsDue 0 ≠ []) ∧
      ((backed 10 256).offerStep.agenda ≠ [] ∧ ∀ c ∈ (backed 10 256).offerStep.agenda, c ≠ []) :=
  ⟨⟨⟨rfl, Or.inr ⟨rfl, rfl⟩⟩, by decide⟩, by decide, by decide⟩

theorem witness_ReverseStepMovesTheBelt :
    (State.quiet { State.reset with position := { Position.reset with mode := .count } }) ∧
      State.reset.position.mode ≠ .count ∧ (backed 255 256).quiet ∧
      (backed 255 256).position.rd ≠ (backed 255 256).position.rl.setWidth 32 :=
  ⟨⟨rfl, Or.inr ⟨rfl, rfl⟩⟩, by decide, ⟨rfl, Or.inr ⟨rfl, rfl⟩⟩, by decide⟩

/-- A lane in FAULT with an item, marked as taken to FAULT at the present moment or not. -/
def struck (fresh : Bool) : State :=
  let s := { backed 0 0 with items := { Items.reset with queues := tset Items.reset.queues 0 [item 0 .opened], nextRid := 1 } }
  s.mapLane 0 (fun lane =>
    { lane with state := .fault, causes := CauseSet.empty.add .overrun, first := some .overrun, struck := some ⟨true, !fresh⟩ })

theorem witness_AbandoningCauseReachesEveryRunningLane :
    (backed 65535 0xFFFF).agenda = [] ∧ (backed 65535 0xFFFF).items.inUse ≤ 192 ∧
      (backed 65535 0xFFFF).position.mode ≠ .count ∧
      (backed 65535 0xFFFF).position.rd = (backed 65535 0xFFFF).position.rl.setWidth 32 ∧
      (backed 0 0).position.rd = (backed 0 0).position.rl.setWidth 32 ∧ (backed 0 0).position.mode = .quad4 ∧
      (backed 0 0).lanes[(0 : LaneId)].state = .run ∧
      ((struck true).agenda = [] ∧ (struck true).lanes[(0 : LaneId)].justFaulted = true ∧
        (∀ l : LaneId, (struck false).lanes[l].justFaulted = false) ∧
        (struck false).lanes[(0 : LaneId)].state = .fault) := by decide

/-- R112, R117: an overrun and a LANE_HOLD mark the lane, an ENCODER that reaches it joins the set and abandons, and a
step of the belt, the next one and the advance of TS move the mark. -/
theorem test_second_cause_abandons :
    (∀ c ∈ [Cause.overrun, .reaction], ((plant .run).takeCause 0 c).lanes[(0 : LaneId)].justFaulted = true) ∧
      ((struck true).takeCause 0 .encoder).abandonedFor 0 .encoder ∧
      ((struck true).takeCause 0 .encoder).lanes[(0 : LaneId)].causes.has .overrun = true ∧
      (struck true).stepEnded = struck false ∧ (struck false).stepEnded = (struck true).nextMoment ∧
      (struck true).nextMoment.lanes[(0 : LaneId)].struck = none := by
  unfold State.abandonedFor; decide

/-- R109: a lane that was in FAULT before the moment is not offered ENCODER, and keeps its set and its items. -/
theorem test_faulted_lane_keeps_its_items :
    (after .illegalTransition (struck false)).lanes[(0 : LaneId)].causes = CauseSet.empty.add .overrun ∧
      (after .illegalTransition (struck false)).items = (struck false).items ∧
      (after .illegalTransition (struck false)).position.encoderFault = true := by decide

/-- Two items of lane 0, one PASSED with a firing that is ON on OUT3, one in the queue with a WAITING window. -/
def abandoning : State :=
  { tracking .run with
    items := { Items.reset with
      queues := tset Items.reset.queues 0 [item 0 .committed], passed := [item 1 .passed], nextRid := 2 }
    outputs := tset State.reset.outputs 3 { Output.reset with role := .actuator, holders := [.firing ⟨0, 0, 0⟩, .test] }
    schedule := { Schedule.reset with nextSerial := 1, timeList :=
      [{ serial := 0, rid := 1, owner := ⟨0, 0, 0⟩, output := 3, widthKind := .time, width := 1, phase := .onTime 0,
         onPos := 0 }] }
    windows := tset State.reset.windows 0
      [{ rid := 0, lane := 0, tag := 0, openPos := 0, closePos := 0, expect := .present, phase := .pending }] }

theorem witness_AbandonEndsEveryItem :
    abandoning.items.Ok ∧ abandoning.items.find 1 = some (item 1 .passed) ∧ abandoning.outputs[(3 : OutputId)].holders.Nodup ∧
      (abandoning.abandon 0).outputs[(3 : OutputId)].holders = [.test] ∧ (abandoning.abandon 0).schedule.entries = [] ∧
      (abandoning.abandon 0).items.done.map (fun it => (it.rid, it.result)) = [(1, some .abandoned), (0, some .abandoned)] := by
  refine ⟨?_, by decide, by decide, by decide, by decide, by decide⟩
  exact ⟨by decide, by decide, by decide, by decide⟩

/-- R7, R20: an abandon raises the OUTCOME flag of each item, and the free line sends the first. -/
theorem test_abandon_raises : (abandoning.abandon 0).items.done.map (·.outcomeFlag) = [.queued, .queued] := by decide

/-- The tracked item as a covering one, overlength or not. -/
def covered (long : Bool) : Item := { item 0 .opened with covering := true, overlength := long }

/-- The plant with that item. -/
def jamming (long : Bool) : State :=
  { plant .run with items := { Items.reset with queues := tset Items.reset.queues 0 [covered long], nextRid := 1 } }

theorem witness_CausesTakeALaneToFault :
    ((plant .off).lanes[(0 : LaneId)].state = .off ∧ (plant .run).lanes[(0 : LaneId)].state = .run ∧
      (plant .drain).lanes[(0 : LaneId)].state = .drain ∧ (plant .fault).lanes[(0 : LaneId)].state = .fault) ∧
    ((plant .fault).lanes[(0 : LaneId)].causes.has .jam = false ∧
      ((plant .run).takeCause 0 .jam).lanes[(0 : LaneId)].causes.has .jam = true) ∧
    ((jamming false).items.Ok ∧ covered false ∈ (jamming false).items.queues[(0 : LaneId)] ∧
      covered true ∈ (jamming true).items.queues[(0 : LaneId)]) := by
  refine ⟨by decide, by decide, ?_, by decide, by decide⟩
  exact ⟨by decide, by decide, by decide, by decide⟩

theorem witness_ChannelsAreDecoded :
    State.reset.position.settled ∧ State.reset.quiet ∧ State.reset.position.mode = .quad4 ∧ (3 : Nat) ≤ 3 ∧ (2 : Nat) < 3 ∧
      (1 : Nat) ≤ 1 ∧
      (State.quiet { State.reset with position := { Position.reset with mode := .quad1 } } ∧
        Position.channelStep { Position.reset with mode := .quad1 } .ea = .none) ∧
      Position.channelStep { Position.reset with mode := .step, eb := .high } .ea = .reverse :=
  ⟨settled_reset, quiet_reset, rfl, by decide, by decide, by decide, ⟨⟨rfl, Or.inr ⟨rfl, rfl⟩⟩, rfl⟩, rfl⟩

theorem witness_SetOutputWritesAndClears :
    State.reset.takesNow 0x18 0 ∧ 15 < (16 : Byte).toNat ∧ 3 < (4 : Byte).toNat ∧ 1 < (2 : Byte).toNat ∧
      ((15 : Byte) = natByte (15 : OutputId) ∧ (3 : Byte) = OutputRole.hold.code ∧ (1 : Byte) = Polarity.activeLow.code ∧
        (3 : Byte).toNat ≤ 3) ∧
      ((plant .drain).takesNow 0x18 0 ∧ (plant .drain).stationOfLive 3) ∧
      (¬ State.reset.stationOfLive 3 ∧ State.reset.outputs[(3 : OutputId)].holders = []) := by
  refine ⟨takes_reset _ _, by decide, by decide, by decide, by decide, ⟨takes_plant _ _ _, 0, by decide, 0, ?_⟩, ?_, by decide⟩
  · exact ⟨{ offset := 50, output := 3 }, by decide, by decide⟩
  · rintro ⟨l, h, _⟩
    exact h (by revert l; decide)

/-- OUT3 an ACTUATOR with some holders, no lane outside OFF. -/
def held (holders : List Holder) : State :=
  { State.reset with outputs := tset State.reset.outputs 3 { Output.reset with role := .actuator, holders := holders } }

/-- INHIBIT active on IN1, beside an output. -/
def inhibited (x : Output) : State :=
  { State.reset with
    outputs := tset State.reset.outputs 3 x
    inputs := tset State.reset.inputs 1 { Input.reset with role := .inhibit, accepted := .high, awaiting := false } }

theorem witness_ForceOutputHoldsAndDrives :
    State.reset.takesNow 0x19 0 ∧ 15 < (16 : Byte).toNat ∧ 1 < (2 : Byte).toNat ∧
      State.reset.outputs[(3 : OutputId)].role = .unused ∧
      ((held []).outputs[(3 : OutputId)].role = .actuator ∧ (held []).inhibit = false ∧
        (held []).outputs[(3 : OutputId)].pulse = none) ∧
      ((held (List.replicate 4 (.firing ⟨0, 0, 0⟩))).outputs[(3 : OutputId)].holders.length = 4 ∧
        Holder.test ∉ (held (List.replicate 4 (.firing ⟨0, 0, 0⟩))).outputs[(3 : OutputId)].holders) ∧
      ((inhibited { Output.reset with role := .actuator }).inhibit = true) ∧
      ((inhibited { Output.reset with role := .general }).inhibit = true ∧
        (inhibited { Output.reset with role := .general }).outputs[(3 : OutputId)].role = .general) ∧
      (firing.takesNow 0x19 0 ∧ firing.outputs[(15 : OutputId)].role = .general ∧ firing.inhibit = false) := by
  refine ⟨takes_reset _ _, ?_⟩
  refine ⟨by decide, by decide, by decide, by decide, by decide, by decide, by decide, ⟨rfl, rfl, rfl, rfl⟩, by decide, by decide⟩

/-- A TIME entry and a pulse that last until time 0, at a TS, with or without a tick at hand. -/
def timed (ts : Pos) (due : Bool) : State :=
  { State.reset with
    position := { Position.reset with ts := ts, tickDue := due }
    outputs := tset State.reset.outputs 3 { Output.reset with role := .general, pulse := some 0 }
    schedule := { Schedule.reset with timeList :=
      [{ serial := 0, rid := 0, owner := ⟨0, 0, 0⟩, output := 4, widthKind := .time, width := 1, phase := .onTime 0, onPos := 0 }] } }

theorem witness_TimedEndsComeAtTheirTime :
    (timed 0 true).quiet ∧ (timed 0 true).position.tickDue = true ∧ (timed 0 true).outputs[(3 : OutputId)].pulse = some 0 ∧
      0 ≤ ((timed 0 true).position.ts - 0).toInt ∧ ((timed (-1) true).position.ts - 0).toInt < 0 ∧
      (timed 0 false).position.tickDue = false ∧ State.reset.outputs[(3 : OutputId)].pulse = none ∧
      ((timed 0 true).schedule.timeList.find? (fun x => x.owner = ⟨0, 0, 0⟩)).isSome = true ∧
      (∀ x ∈ (timed 0 true).schedule.timeList, ∀ y ∈ (timed 0 true).schedule.timeList, x.serial = y.serial → x = y) ∧
      (timed 0 true).items.passed = [] ∧ (timed 0 true).agenda = [] :=
  ⟨⟨rfl, Or.inr ⟨rfl, rfl⟩⟩, by decide, by decide, by decide, by decide, by decide, by decide, by decide, by decide, by decide, rfl⟩

/-- An entry on OUT3 in the position list, in a phase, its ON position at 0. -/
def filed (phase : Phase) (s : State) : State :=
  { s with schedule := { Schedule.reset with nextSerial := 1, positionList :=
      [{ serial := 0, rid := 0, owner := ⟨0, 0, 0⟩, output := 3, widthKind := .counts, width := 5, phase := phase, onPos := 0 }] } }

/-- R53, R58: an entry that goes ON is filed again before the entry whose position lies behind its OFF position. -/
theorem test_goOn_files : let e : ScheduleEntry :=
      { serial := 0, rid := 0, owner := ⟨0, 0, 0⟩, output := 3, widthKind := .counts, width := 5, phase := .waiting, onPos := 0 }
    (State.schedulePoint { held [] with schedule := { Schedule.reset with nextSerial := 3, positionList :=
      [e, { e with serial := 1, onPos := 5 }, { e with serial := 2, onPos := 6 }] } } 0).schedule.positionList.map (·.serial) =
      [0, 1, 2] := by decide

/-- R56, R57: an entry that is refused leaves its list, and another at the same position stays. -/
theorem test_conflict_frees_one : let e : ScheduleEntry :=
      { serial := 0, rid := 0, owner := ⟨0, 0, 0⟩, output := 3, widthKind := .counts, width := 5, phase := .waiting, onPos := 0 }
    (State.schedulePoint { held [.test, .test, .test, .test] with schedule := { Schedule.reset with nextSerial := 3, positionList :=
      [e, { e with serial := 1 }] } } 0).schedule.positionList = [{ e with serial := 1 }] := by decide

/-- That entry WAITING. -/
def waiting (s : State) : State := filed .waiting s

/-- That entry WAITING, of TIME width. -/
def widened (s : State) : State :=
  { s with schedule := { Schedule.reset with nextSerial := 1, positionList :=
      [{ serial := 0, rid := 0, owner := ⟨0, 0, 0⟩, output := 3, widthKind := .time, width := 5, phase := .waiting, onPos := 0 }] } }

theorem filed_ok (off : Pos) (s : State) : (filed (.onCounts off) s).schedule.Ok :=
  ⟨show 1 + 0 ≤ 64 by decide, fun e he off => by cases List.mem_singleton.mp he; exact nofun, nofun, List.nodup_singleton _,
    fun e he => by cases List.mem_singleton.mp he; exact Nat.one_pos⟩

theorem witness_EntryAtItsPositions :
    ((waiting (held [])).schedule.Ok ∧ 0 ≤ ((waiting (held [])).position.hw - 0).toInt ∧
      (waiting (inhibited { Output.reset with role := .actuator })).inhibit = true ∧
      ((waiting (held [])).inhibit = false ∧ (waiting (held [.test, .test, .test])).outputs[(3 : OutputId)].holders.length < 4 ∧
        4 ≤ (waiting (held [.test, .test, .test, .test])).outputs[(3 : OutputId)].holders.length)) ∧
    ((filed (.onCounts 0) State.reset).schedule.Ok ∧ (filed (.onCounts 1) State.reset).schedule.Ok ∧
      0 ≤ (State.reset.position.hw - 0).toInt ∧ (State.reset.position.hw - 1).toInt < 0 ∧
      State.reset.items.passed = [] ∧ Phase.onCounts 0 ≠ .waiting) ∧
    ((waiting (held [])).schedule.positionList.map (·.widthKind) = [.counts] ∧
      (widened (held [])).schedule.positionList.map (·.widthKind) = [.time]) :=
  ⟨⟨⟨by decide, fun e he off => by cases List.mem_singleton.mp he; exact nofun, by decide, by decide, by decide⟩,
    by decide, by decide, by decide⟩, ⟨filed_ok _ _, filed_ok _ _, by decide, by decide, by decide, by decide⟩, by decide⟩

/-- IN1 an unfiltered INHIBIT input, about to be accepted active; OUT3 holds its test hold. -/
def tripping : State :=
  { held [.test] with inputs := tset State.reset.inputs 1 { Input.reset with role := .inhibit, awaiting := false } }

/-- IN0 of a role, a SET_INPUT of this moment taken. -/
def requested (role : InputRole) : State :=
  sensing { Input.reset with role := role, awaiting := false, mark := .requested }

/-- IN1 an INHIBIT input, accepted active. -/
def untripping : State :=
  { State.reset with
    inputs := tset State.reset.inputs 1 { Input.reset with role := .inhibit, awaiting := false, accepted := .high } }

theorem witness_InhibitEndsEveryPulse :
    tripping.agenda = [] ∧ tripping.items.inUse ≤ 192 ∧ tripping.schedule.Ok ∧ (∀ o : OutputId, tripping.outputs[o].Ok) ∧
      tripping.inputs[(1 : InputId)].role = .inhibit ∧ tripping.acceptsAs 1 .high tripping.position.capture ∧
      tripping.inhibit = false ∧
      (tripping.takesNow 0x1C 0 ∧ 2 ≤ (2 : Byte).toNat ∧ (16 : Byte).toNat ≤ 16 ∧
        (∀ l : LaneId, tripping.lanes[l].state ≠ .off → tripping.lanes[l].config.entryInput ≠ some 1) ∧
        tripping.inputs[(1 : InputId)].role ≠ .confirm) ∧
      ((requested .inhibit).agenda = [] ∧ (requested .inhibit).inputs[(0 : InputId)].mark = .requested ∧
        (requested .inhibit).inputs[(0 : InputId)].awaiting = false ∧ (requested .inhibit).inputs[(0 : InputId)].run = none ∧
        (requested .inhibit).inhibit = false) ∧
      (untripping.quiet ∧ untripping.acceptsAs 1 .low untripping.position.capture ∧ (untripping.accepted 1 .low).inhibit = false) :=
  ⟨rfl, by decide, ⟨by decide, by decide, by decide, by decide, by decide⟩, by unfold Output.Ok; decide, by decide,
    Or.inl ⟨by decide, by decide, by decide, by decide, by decide, rfl⟩, by decide,
    ⟨⟨rfl, rfl, rfl, rfl⟩, by decide, by decide, by decide, by decide⟩, by decide,
    ⟨rfl, Or.inr ⟨rfl, rfl⟩⟩, Or.inl ⟨by decide, by decide, by decide, by decide, by decide, rfl⟩, by decide⟩

/-- R81, R143: a SET_INPUT that makes INHIBIT active removes the test hold. -/
theorem test_setInput_inhibits :
    (after (.setInput 1 1 3 0 0 0 2 0) tripping).outputs[(3 : OutputId)].holders = [] ∧
      reply (after (.setInput 1 1 3 0 0 0 2 0) tripping) = [0, 0, 1] := by
  decide

theorem witness_SetInputWritesTheInput :
    State.reset.takesNow 0x1C 0 ∧ 15 < (16 : Byte).toNat ∧ 4 < (5 : Byte).toNat ∧ 7 < (8 : Byte).toNat ∧ (1 : Byte).toNat < 2 ∧
      16 < (17 : Byte).toNat ∧ 2 < (3 : Byte).toNat ∧
      ((15 : Byte) = natByte (15 : InputId) ∧ (4 : Byte) = InputRole.general.code ∧ (1 : Byte) = levelCode .high ∧
        (7 : Byte) = natByte (7 : Fin 8) ∧ (2 : Byte) = EdgeSelect.both.code ∧ 2 ≤ (2 : Byte).toNat ∧ (16 : Byte).toNat ≤ 16) ∧
      ((plant .run).takesNow 0x1C 0 ∧ ∃ l : LaneId, (plant .run).lanes[l].state ≠ .off ∧
        (plant .run).lanes[l].config.entryInput = some 0) ∧
      (∀ l : LaneId, State.reset.lanes[l].state = .off) ∧ State.reset.inputs[(0 : InputId)].role ≠ .confirm :=
  ⟨takes_reset _ _, by decide, by decide, by decide, by decide, by decide, by decide, by decide,
    ⟨takes_plant _ _ _, 0, by decide, by decide⟩, by decide, by decide⟩

theorem witness_FirstSampleBeginsARun :
    (sensing Input.reset).quiet ∧ Input.reset.awaiting = true ∧ Input.reset.mark = .due ∧
      (sensing { Input.reset with awaiting := false, filterOn := true }).inputs[(0 : InputId)].run = none ∧
      (sensing { Input.reset with awaiting := false, filterOn := true, run := some (run 1) }).inputs[(0 : InputId)].run ≠ none ∧
      Level.high ≠ (sensing { Input.reset with awaiting := false }).inputs[(0 : InputId)].accepted ∧
      (sensing { Input.reset with awaiting := false }).inputs[(0 : InputId)].role = .unused ∧
      (sensing { Input.reset with awaiting := false, mark := .taken }).inputs[(0 : InputId)].mark = .taken ∧
      ((sensing { Input.reset with awaiting := false, mark := .requested }).inputs[(0 : InputId)].mark = .requested ∧
        (sensing { Input.reset with awaiting := false, mark := .requested }).inhibit = false) :=
  ⟨quiet_sensing _, rfl, rfl, by decide, by decide, by decide, by decide, by decide, by decide⟩

/-- R144: after a SET_INPUT of the same moment the raw level is taken, and no run starts. -/
theorem test_request_first : ((after (.firstSample 0 .high) (after (.setInput 1 0 1 0 1 0 2 0) State.reset)).inputs[0].accepted,
    (after (.firstSample 0 .high) (after (.setInput 1 0 1 0 1 0 2 0) State.reset)).inputs[0].run) = (.high, none) := by decide

/-- R136: a second sample at one advance of TS does not count. -/
theorem test_runSample_spacing : after (.runSample 0) (after (.runSample 0) (sampling .unused .due 1)) =
    after (.runSample 0) (sampling .unused .due 1) := by decide

theorem witness_RunCountsAcceptsOrEnds :
    ((sampling .unused .due 2).quiet ∧ (sampling .unused .due 2).awaitsSample 0 (run 2) ∧
      2 + 1 < (sampling .unused .due 2).inputs[(0 : InputId)].stable) ∧
    ((sampling .unused .due 3).awaitsSample 0 (run 3) ∧ (sampling .unused .due 3).inputs[(0 : InputId)].stable ≤ 3 + 1) ∧
    ((∀ r, ¬ (sampling .unused .taken 1).awaitsSample 0 r) ∧ (sampling .unused .taken 1).quiet) ∧
    ((sampling .confirm .due 1).agenda = [] ∧ (sampling .confirm .due 1).awaitsSample 0 (run 1) ∧
      (sampling .confirm .due 1).inputs[(0 : InputId)].role = .confirm) :=
  ⟨⟨⟨rfl, Or.inr ⟨rfl, rfl⟩⟩, awaits_sampling _ _ (by decide), by decide⟩,
    ⟨awaits_sampling _ _ (by decide), by decide⟩,
    ⟨fun r h => absurd (h.2.1 : SampleMark.taken = .due) (by decide), rfl, Or.inr ⟨rfl, rfl⟩⟩,
    by decide, awaits_sampling _ _ (by decide), by decide⟩

/-- A GENERAL input with its notice on and a number of unsent entries, the transmitter busy. -/
def signalling (edge : EdgeSelect) (n : Nat) : State :=
  busy { sensing { Input.reset with role := .general, awaiting := false, edge := edge } with
    notices := { Notices.reset with
      settings := { NoticeSettings.reset with inputsOn := 1 }
      unsent := List.replicate n { kind := .stray, contents := some [], link := .none, number := none, resend := false } } }

theorem witness_GeneralEdgeGivesItsNotice :
    (signalling .activate 23).agenda = [] ∧ (signalling .activate 23).link.transmitter ≠ .idle ∧
      (signalling .activate 23).inputs[(0 : InputId)].role = .general ∧
      (signalling .activate 23).acceptsAs 0 .high (signalling .activate 23).position.capture ∧
      (∀ r : ReactionId, (signalling .activate 23).reactions[r].enabled = true →
        (signalling .activate 23).reactions[r].trigger ≠ .input 0) ∧
      (signalling .activate 23).notices.settings.inputsOn.getLsbD 0 = true ∧
      (signalling .activate 23).notices.depth < 24 ∧ 24 ≤ (signalling .both 24).notices.depth ∧
      (signalling .deactivate 0).inputs[(0 : InputId)].edge = .deactivate :=
  ⟨rfl, by decide, by decide, Or.inl ⟨by decide, by decide, by decide, by decide, by decide, rfl⟩, by decide, by decide, by decide,
    by decide, by decide⟩

/-- An unfiltered CONFIRM input with an OPEN window from one position to another, the transmitter busy. -/
def checking (openPos closePos : Pos) (on : Bool) : State :=
  busy { sensing { Input.reset with role := .confirm, awaiting := false } with
    notices := { Notices.reset with settings := { NoticeSettings.reset with confirmOn := on } }
    windows := tset State.reset.windows 0
      [{ rid := 0, lane := 0, tag := 0, openPos := openPos, closePos := closePos, expect := .present, phase := .opened }] }

/-- That input without a window at its position, with `n` entries in the notice queue. -/
def crowded (n : Nat) : State :=
  let s := checking 1 1 true
  { s with notices := { s.notices with
      unsent := List.replicate n { kind := .stray, contents := some [], link := .none, number := none, resend := false } } }

/-- That input with an accepted level, a reverse depth, and a window at its position in a phase. -/
def ignoring (accepted : Level) (depth : Pos) (phase : WindowPhase) : State :=
  { checking 0 0 true with
    inputs := tset State.reset.inputs 0 { Input.reset with role := .confirm, awaiting := false, accepted := accepted }
    position := { Position.reset with hw := depth }
    windows := tset State.reset.windows 0
      [{ rid := 0, lane := 0, tag := 0, openPos := 0, closePos := 0, expect := .present, phase := phase }] }

theorem items_reset_ok : Items.reset.Ok := ⟨by decide, by decide, by decide, by decide⟩

theorem witness_ConfirmationEdgeMatchesTheOldestWindow :
    ((checking 0 0 true).agenda = [] ∧ (checking 0 0 true).items.Ok ∧ (checking 0 0 true).inputs[(0 : InputId)].role = .confirm ∧
      (checking 0 0 true).acceptsAs 0 .high (checking 0 0 true).position.capture ∧
      (checking 0 0 true).position.capture.rd.toInt ≤ 4 ∧ (∀ w ∈ (checking 0 0 true).windows[(0 : InputId)], w.phase ≠ .holding) ∧
      ((checking 0 0 true).windows[(0 : InputId)].find? (fun w =>
        0 ≤ ((0 : Pos) - w.openPos).toInt && 0 ≤ (w.closePos - 0).toInt)).isSome = true) ∧
    ((checking 1 1 true).windows[(0 : InputId)].find? (fun w =>
        0 ≤ ((0 : Pos) - w.openPos).toInt && 0 ≤ (w.closePos - 0).toInt) = none ∧
      (checking 1 1 false).notices.settings.confirmOn = false ∧ (checking 1 1 true).notices.settings.confirmOn = true ∧
      (checking 1 1 true).notices.depth < 24 ∧ (crowded 24).notices.settings.confirmOn = true ∧
      (crowded 23).notices.depth < 24 ∧ 24 ≤ (crowded 24).notices.depth) ∧
    ((ignoring .high 0 .opened).acceptsAs 0 .low (ignoring .high 0 .opened).position.capture ∧
      Level.low ≠ (ignoring .high 0 .opened).inputs[(0 : InputId)].active ∧ (ignoring .high 0 .opened).quiet) ∧
    ((ignoring .low 5 .opened).acceptsAs 0 .high (ignoring .low 5 .opened).position.capture ∧
      ¬ (ignoring .low 5 .opened).position.capture.rd.toInt ≤ ((ignoring .low 5 .opened).position.capture.ft.toNat : Int) ∧
      (ignoring .low 4 .opened).position.capture.rd.toInt ≤ ((ignoring .low 4 .opened).position.capture.ft.toNat : Int)) :=
  ⟨⟨rfl, items_reset_ok, by decide, Or.inl ⟨by decide, by decide, by decide, by decide, by decide, rfl⟩, by decide, by decide, by decide⟩,
    by decide, ⟨Or.inl ⟨by decide, by decide, by decide, by decide, by decide, rfl⟩, by decide, by decide, Or.inl (by decide)⟩,
    Or.inl ⟨by decide, by decide, by decide, by decide, by decide, rfl⟩, by decide, by decide⟩

/-- R86, R90: a deactivation matches no window, and a HOLDING one resolves. -/
theorem test_deactivation_ignored : (after (.acceptedTransition 0) (ignoring .high 0 .opened)).windows[(0 : InputId)].length = 1 ∧
    (after (.acceptedTransition 0) (ignoring .high 0 .holding)).windows[(0 : InputId)] = [] := by decide

/-- R127: a run captured before a SET_ENCODER keeps the FT of its capture. -/
theorem test_setEncoder_keeps_capture :
    (((after (.setEncoder 1 0 256 9) (sampling .confirm .due 1)).inputs[0].run.map (·.capture.ft)),
      (after (.setEncoder 1 0 256 9) (sampling .confirm .due 1)).position.ft) = (some 4, 9) := by decide

/-- A CONFIRM input with one window in a phase, with a run or without. -/
def watching (phase : WindowPhase) (x : Option Run) (openPos closePos : Pos) : State :=
  { sensing { Input.reset with role := .confirm, awaiting := false, filterOn := true, run := x } with
    windows := tset State.reset.windows 0
      [{ rid := 0, lane := 0, tag := 0, openPos := openPos, closePos := closePos, expect := .absent, phase := phase }] }

theorem witness_WindowsOpenCloseAndHold :
    (∀ w ∈ (watching .pending none 0 0).windows[(0 : InputId)], w.phase = .pending ∧
      0 ≤ ((watching .pending none 0 0).position.hw - w.openPos).toInt) ∧
    (∀ w ∈ (watching .pending none 1 1).windows[(0 : InputId)],
      ((watching .pending none 1 1).position.hw - w.openPos).toInt < 0) ∧
    (∀ w ∈ (watching .opened none (-2) (-1)).windows[(0 : InputId)], w.phase = .opened ∧
      0 ≤ ((watching .opened none (-2) (-1)).position.hw - (w.closePos + 1)).toInt) ∧
    (∀ w ∈ (watching .opened none (-1) 0).windows[(0 : InputId)],
      ((watching .opened none (-1) 0).position.hw - (w.closePos + 1)).toInt < 0) ∧
    ((watching .opened (some (run 1)) (-2) (-1)).inputs[(0 : InputId)].run ≠ none ∧
      ((watching .opened (some (run 1)) (-2) (-1)).closeWindow 0 0).windows[(0 : InputId)].map (·.phase) = [.holding]) ∧
    ((watching .holding none 0 0).items.Ok ∧ ((watching .holding none 0 0).windows[(0 : InputId)].map (·.rid)).Nodup ∧
      ((watching .holding none 0 0).endRun 0 none).windows[(0 : InputId)] = []) :=
  ⟨by decide, by decide, by decide, by decide, by decide, items_reset_ok, by decide, by decide⟩

/-- The SET_LANE fields of a geometry without stations. -/
def fields (entry : Byte) : LaneFields :=
  { entryInput := entry, d := 1, x := 1048575, l := 2, station0 := ⟨1048575, 15⟩, station1 := ⟨0xFFFFFFFF, 0⟩
    station2 := ⟨0xFFFFFFFF, 0⟩, station3 := ⟨0xFFFFFFFF, 0⟩, default := 15, limit := 192, holdOutput := 0xFF, holdMark := 192 }

theorem witness_SetLaneWritesAnOffLane :
    State.reset.takesNow 0x08 0 ∧ laneConfigOf (fields 16) = none ∧ (laneConfigOf (fields 15)).isSome = true ∧
      (laneConfigOf (fields 0xFF)).isSome = true ∧ 3 < (4 : Byte).toNat ∧ (3 : Byte) = natByte (3 : LaneId) ∧
      (plant .run).lanes[(0 : LaneId)].state ≠ .off ∧ State.reset.lanes[(3 : LaneId)].state = .off :=
  ⟨takes_reset _ _, by decide, by decide, by decide, by decide, by decide, by decide, by decide⟩

theorem witness_ArmChecksThenRuns :
    (plant .off).takesNow 0x0A 0 ∧ 3 < (4 : Byte).toNat ∧ (plant .run).lanes[(0 : LaneId)].state = .run ∧
      (State.reset.armChecks 0)[0]? = some (.geometry, false) ∧
      ((plant .off).lanes[(0 : LaneId)].state ≠ .run ∧ ∀ p ∈ (plant .off).armChecks 0, p.2 = true) ∧
      (∃ s : State, (s.armChecks 0)[8]? = some (.wrongState, false) ∧
        ∀ (j : Nat) (p : Status × Bool), j < 8 → (s.armChecks 0)[j]? = some p → p.2 = true) := by
  refine ⟨takes_plant _ _ _, by decide, by decide, by decide, by decide,
    { plant .off with position := { Position.reset with hw := 257 } }, by decide, ?_⟩
  intro j p hj hp
  have key : ∀ q ∈ (State.armChecks { plant .off with position := { Position.reset with hw := 257 } } 0).take 8, q.2 = true := by
    decide
  refine key p (List.mem_iff_getElem?.mpr ⟨j, ?_⟩)
  rw [List.getElem?_take_of_lt hj]
  exact hp

theorem witness_DisarmDrainsOrStops :
    (plant .off).takesNow 0x0B 0 ∧ (plant .drain).lanes[(0 : LaneId)].state = .drain ∧
      ((plant .fault).lanes[(0 : LaneId)].state = .fault ∧ (plant .fault).items.queues[(0 : LaneId)] = []) ∧
      ((backed 256 256).position.rd.toInt ≤ ((backed 256 256).position.rl.toNat : Int) ∧
        (backed 256 256).items.queues[(0 : LaneId)] ≠ []) ∧
      (((backed 257 256).position.rl.toNat : Int) < (backed 257 256).position.rd.toInt ∧
        (tracking .fault).items.queues[(0 : LaneId)] ≠ []) :=
  ⟨takes_plant _ _ _, by decide, by decide, by decide, by decide⟩

theorem items_tracking_ok (st : LaneState) : (tracking st).items.Ok := by
  show Items.Ok { Items.reset with queues := tset Items.reset.queues 0 [item 0 .opened], nextRid := 1 }
  exact ⟨by decide, by decide, by decide, by decide⟩

/-- Those two items with a sent entry, an unsent entry and a reference, the link STALLED. -/
def clearing : State :=
  { abandoning with notices := { Notices.reset with
      stalled := true, refs := [.item 1 .outcome]
      sent := [{ kind := .entry, contents := some [], link := .item 1, number := some 0, resend := false }]
      unsent := [{ kind := .commit, contents := some [], link := .item 0, number := none, resend := false }] } }

theorem witness_ClearDiscardsTheLane :
    (tracking .fault).takesNow 0x0C 0 ∧ 3 < (4 : Byte).toNat ∧ (0 : Byte) = natByte (0 : LaneId) ∧
      (tracking .fault).items.Ok ∧
      ((plant .off).takesNow 0x0C 0 ∧ (plant .off).items.Ok ∧ (plant .off).lanes[(0 : LaneId)].state = .off ∧
        (plant .off).lanes[(0 : LaneId)].noticeFlag = false ∧ .lane 0 ∉ (plant .off).notices.refs ∧
        (plant .off).notices.hasUnsentLane 0 = false) ∧
      (clearing.takesNow 0x0C 0 ∧ clearing.items.Ok ∧ clearing.outputs[(3 : OutputId)].holders.Nodup ∧
        clearing.notices.endStall.depth ≤ 32 ∧ clearing.notices.endStall.unsent.any (fun e => e.link = .item 0) = true) :=
  ⟨takes_tracking _ _ _, by decide, by decide, items_tracking_ok _,
    ⟨takes_plant _ _ _, items_reset_ok, by decide, by decide, by decide, by decide⟩, ⟨rfl, rfl, rfl, rfl⟩,
    ⟨by decide, by decide, by decide, by decide⟩, by decide, by decide, by decide⟩

/-- R64, R172: what CLEAR leaves of the holds, the entries and the references of the discarded records. -/
theorem test_clear_discards : let t := after (.clear 1 0) clearing
    t.outputs[(3 : OutputId)].holders = [.test] ∧ t.notices.sent.map (·.link) = [.none] ∧
      t.notices.unsent.map (·.link) = [.lane 0] ∧ t.notices.refs = [] ∧ t.schedule.entries = [] := by decide

theorem witness_SetDispositionWritesTheTable :
    State.reset.takesNow 0x10 0 ∧ (Instr.setDisposition 0 15 [⟨3, 0, 4095, 2000⟩] none).wellFormed = true ∧
      15 < (16 : Byte).toNat ∧ dispositionOf [⟨3, 0, 4096, 2000⟩] none = none ∧
      (dispositionOf [⟨3, 0, 4095, 2000⟩, ⟨0, 1, -4096, 65535⟩] (some ⟨15, 1, 1048575, 1⟩)).isSome = true ∧
      (∃ l : LaneId, (plant .run).lanes[l].state ≠ .off ∧ (plant .run).lanes[l].config.default = 0 ∧
        (plant .run).valid l ⟨[⟨1, 0, .time, 1⟩], none⟩ = false) ∧
      (∀ l : LaneId, State.reset.lanes[l].state = .off) :=
  ⟨takes_reset _ _, by decide, by decide, by decide, by decide, ⟨0, by decide, by decide, by decide⟩, by decide⟩

theorem witness_VerdictIsBoundOrRefused :
    List.Pairwise (tagOrder 65535) [{ tag := 65535, index := 0 }, { tag := 6, index := 1 }] ∧
      (tracking .run).takesNow 0x11 0 ∧ 15 < (16 : Byte).toNat ∧ (plant .off).lanes[(0 : LaneId)].state = .off ∧
      ((tracking .run).items.queues[(0 : LaneId)].find? (fun it => it.tag = 0)) = some (item 0 .opened) ∧
      (item 0 .committed).state ≠ .opened ∧ (retired.items.retired.any (fun it => it.lane = 0 && it.tag = 0)) = true ∧
      ((plant .fault).items.retired = [] ∧ ((7 : Half) - (plant .fault).lanes[(0 : LaneId)].nextTag).toNat ≤ 7 ∧
        7 < ((8 : Half) - (plant .fault).lanes[(0 : LaneId)].nextTag).toNat) := by
  refine ⟨?_, takes_tracking _ _ _, by decide, by decide, by decide, by decide, by decide, by decide⟩
  unfold tagOrder
  decide

/-- A record whose stored verdict names disposition 1, in a lane with `n` of the schedule entries in use. -/
def deciding (n : Nat) : State :=
  { tracking .run with schedule := { Schedule.reset with
      positionList := List.replicate n ⟨0, 9, ⟨1, 0, 0⟩, 4, .counts, 1, .waiting, 500⟩ } }

/-- A WAITING entry with a serial number and an ON position. -/
def filing (serial : Nat) (onPos : Pos) : ScheduleEntry :=
  ⟨serial, 0, ⟨0, 0, 0⟩, 4, .counts, 1, .waiting, onPos⟩

/-- A PENDING window of a record with an open position. -/
def opening (rid : Nat) (openPos : Pos) : Window :=
  ⟨rid, 0, 0, openPos, openPos, .present, .pending⟩

/-- R7, R15: a commit raises the COMMIT flag, which admission takes at once. -/
theorem test_commit_raises : ((tracking .run).commit 0 0).items.queues[0].map (·.commitFlag) = [.queued] ∧
    ((tracking .run).commit 0 0).notices.unsent.map (·.kind) = [.commit] := by decide

theorem witness_CommitFixesTheDisposition :
    ((plant .run).valid 0 (plant .run).verdicts.dispositions[(1 : Fin 16)] = true ∧
      State.reset.valid 0 (plant .run).verdicts.dispositions[(1 : Fin 16)] = false) ∧
    ((tracking .run).items.Ok ∧ item 0 .opened ∈ (tracking .run).items.queues[(0 : LaneId)] ∧
      1 + (deciding 63).schedule.positionList.length ≤ 64 ∧ 64 < 1 + (deciding 64).schedule.positionList.length ∧
      (deciding 64).schedule.positionList.length ≤ 64) ∧
    ((∀ x ∈ [filing 2 0x7FFFFFFF, filing 0 0, filing 1 0x7FFFFFFF], (x.filing - (0 : Pos)).toNat < 0x80000000) ∧
      (∀ x ∈ [filing 0 0, filing 1 0x7FFFFFFF], x.serial ≠ (filing 2 0x7FFFFFFF).serial) ∧
      [filing 0 0, filing 1 0x7FFFFFFF].Pairwise (fun a b =>
        0 < (b.filing - a.filing).toInt ∨ (a.filing = b.filing ∧ a.serial < b.serial)) ∧
      (insertEntry (filing 2 0x7FFFFFFF) [filing 0 0, filing 1 0x7FFFFFFF]).map (·.serial) = [0, 1, 2] ∧
      (insertEntry (filing 2 0) [filing 0 0, filing 1 0x7FFFFFFF]).map (·.serial) = [0, 2, 1]) ∧
    ((∀ x ∈ [opening 2 0x7FFFFFFF, opening 0 0, opening 1 0x7FFFFFFF], (x.openPos - (0 : Pos)).toNat < 0x80000000) ∧
      [opening 0 0, opening 1 0x7FFFFFFF].Pairwise (fun a b => 0 ≤ (b.openPos - a.openPos).toInt) ∧
      (insertWindow (opening 2 0) [opening 0 0, opening 1 0x7FFFFFFF]).map (·.rid) = [0, 2, 1]) ∧
    (∃ f st, ((tracking .run).decide { item 0 .opened with stored := some ⟨1, .host⟩ }).firings[(0 : Nat)]? = some f ∧
      (tracking .run).lanes[(0 : LaneId)].config.stations[f.station] = some st) :=
  ⟨by decide, ⟨items_tracking_ok _, by decide, by decide, by decide, by decide⟩, by decide, by decide,
    ⟨0, 0, .counts, 5⟩, ⟨50, 3⟩, by decide, by decide⟩

/-- R45: the fire offset of a station at 50 and an adjust of -1. -/
theorem test_commitFiring : config.commitFiring { station := 0, adjust := 0xFFFF, widthKind := .counts, width := 5 } =
    { station := 0, fireOffset := 49, widthKind := .counts, width := 5, result := .pending } := by decide

/-- The plant with a PASSED record of lane 0. -/
def passing : State :=
  { plant .off with items := { Items.reset with passed := [item 0 .passed], nextRid := 1 } }

/-- A committed item with a firing that is PENDING. -/
def unfinished : Item :=
  { item 0 .committed with
    committed := some { source := .host, index := 1, substituted := false, confirm := none
                        firings := [{ station := 0, fireOffset := 50, widthKind := .time, width := 1, result := .pending }] } }

/-- That item as the oldest of lane 0, another behind it. -/
def following : State :=
  { plant .run with items := { Items.reset with
      queues := tset Items.reset.queues 0 [unfinished, { item 1 .committed with tag := 1 }], nextRid := 2 } }

/-- R2, R17: an item behind the oldest does not leave the queue. -/
theorem test_exit_of_the_oldest : following.exitPoint 0 1 = following ∧
    ((following.exitPoint 0 0).items.queues[0].map (·.rid), (following.exitPoint 0 0).items.passed.map (·.rid)) =
      ([1], [0]) := by decide

/-- R7, R20: an item that becomes DONE at its exit point has its OUTCOME flag raised. -/
theorem test_exit_raises : ((tracking .drain).exitPoint 0 0).items.done.map (·.outcomeFlag) = [.queued] := by decide

theorem witness_ItemEndsWithItsResult :
    (tracking .drain).items.Ok ∧ (tracking .drain).items.queues[(0 : LaneId)] = item 0 .opened :: [] ∧
      (tracking .drain).lanes[(0 : LaneId)].state = .drain ∧
      (following.items.queues[(0 : LaneId)] = unfinished :: [{ item 1 .committed with tag := 1 }] ∧
        (1 : Nat) ≠ unfinished.rid ∧ ∃ f ∈ unfinished.firings, f.result = .pending) ∧
      (State.reset.notices.settings.outcomeOn = true ∧
        { NoticeSettings.reset with outcomeOn := false }.outcomeOn = false) ∧
      (passing.items.Ok ∧ item 0 .passed ∈ passing.items.passed ∧ ∀ it ∈ passing.items.passed, it.rid ≠ 1) :=
  ⟨items_tracking_ok _, by decide, by decide, ⟨by decide, by decide, by decide⟩, by decide,
    ⟨by decide, by decide, by decide, by decide⟩, by decide, by decide⟩

/-- The plant with a lane state, an accepted level at its eye, and the belt back by some counts. -/
def eye (st : LaneState) (accepted : Level) (blanked : Bool) (rd : Pos) : State :=
  { tracking st with
    lanes := tset State.reset.lanes 0 { Lane.reset with config := config, state := st, blanked := blanked, nextTag := 1 }
    inputs := tset State.reset.inputs 0 { Input.reset with role := .entry, awaiting := false, accepted := accepted }
    position := { Position.reset with hw := rd } }

theorem accepts_eye (st : LaneState) (v : Level) (b : Bool) (rd : Pos) :
    (eye st v b rd).acceptsAs 0 v.flip (eye st v b rd).position.capture :=
  Or.inl ⟨rfl, rfl, rfl, rfl, rfl, rfl⟩

/-- The eye of a lane that JAM has taken to FAULT at this moment with no room, marked with a step's end or not. -/
def jammed (stepped : Bool) : State :=
  (eye .fault .low false 4).mapLane 0 (fun lane =>
    { lane with causes := CauseSet.empty.add .jam, first := some .jam, struck := some ⟨true, stepped⟩ })

/-- R112, R113, R117: the edge is counted, and its OVERRUN joins the set where the free value says so. -/
theorem test_overrun_second (stepped : Bool) :
    ((jammed stepped).leadingEdge 0 (jammed stepped).position.capture).lanes[(0 : LaneId)].untracked = 1 ∧
      ((jammed stepped).leadingEdge 0 (jammed stepped).position.capture).lanes[(0 : LaneId)].causes =
        if Config.choice 0 % 2 = 1 then (CauseSet.empty.add .jam).add .overrun else CauseSet.empty.add .jam := by
  have h : (jammed stepped).leadingEdge 0 (jammed stepped).position.capture =
      ((jammed stepped).countUntracked 0).overrunSecond 0 := by
    unfold State.leadingEdge
    have f : (jammed stepped).lanes[(0 : LaneId)].state = .fault := rfl
    rw [f]
    exact if_pos (by cases stepped <;> decide)
  have k : (((jammed stepped).countUntracked 0).lanes[(0 : LaneId)]).justFull = true := rfl
  rw [h, overrunSecond_of_full k]
  have c : ((jammed stepped).countUntracked 0).choices = 0 := rfl
  rw [c]
  split <;> exact ⟨rfl, rfl⟩

theorem witness_EntryEyeEdges :
    ((eye .run .low false 4).inputs[(0 : InputId)].role = .entry ∧
      (eye .run .low false 4).lanes[(0 : LaneId)].config.entryInput = some 0 ∧
      (∀ m : LaneId, m ≠ 0 → (eye .run .low false 4).lanes[m].state = .off)) ∧
    ((eye .run .low false 4).position.capture.rd.toInt ≤ 4 ∧
      (eye .run .low false 4).items.queues[(0 : LaneId)].length < config.limit ∧ (eye .run .low false 4).items.Ok ∧
      ∀ n ∈ [config.d, config.x, config.l], ((eye .run .low false 4).position.hw - ((0 : Pos) + BitVec.ofNat 32 n)).toInt < 0) ∧
    ({ config with limit := 1 }.limit ≤ (eye .run .low false 4).items.queues[(0 : LaneId)].length) ∧
    ((eye .drain .low false 4).quiet ∧ (eye .fault .low false 4).lanes[(0 : LaneId)].state = .fault) ∧
    (¬ (eye .run .low false 5).position.capture.rd.toInt ≤ 4) ∧
    ((eye .run .high true 0).lanes[(0 : LaneId)].blanked = true ∧ Level.high.flip ≠ Input.reset.active) ∧
    ((eye .run .high false 0).quiet ∧ (eye .run .high false 0).lanes[(0 : LaneId)].blanked = false) ∧
    (∀ b : Bool, (jammed b).quiet ∧ (jammed b).lanes[(0 : LaneId)].struck = some ⟨true, b⟩ ∧
      (jammed b).lanes[(0 : LaneId)].state = .fault) :=
  ⟨by decide, ⟨by decide, by decide, items_tracking_ok .run, by decide⟩, by decide, ⟨⟨rfl, Or.inr ⟨rfl, rfl⟩⟩, by decide⟩, by decide,
    by decide, ⟨⟨rfl, Or.inr ⟨rfl, rfl⟩⟩, by decide⟩, fun b => ⟨⟨rfl, Or.inr ⟨rfl, rfl⟩⟩, by cases b <;> decide⟩⟩

/-- Queues of at most one item, of the tag before the next. -/
theorem queuesOk_of_single {s : State} (short : ∀ l : LaneId, s.items.queues[l].length ≤ 1)
    (tags : ∀ l : LaneId, ∀ it ∈ s.items.queues[l], s.lanes[l].nextTag = it.tag + 1) : s.queuesOk := by
  refine fun l => ⟨fun k a b _ hb => absurd (List.getElem?_eq_some_iff.mp hb).1 ?_, fun it h => tags l it (List.mem_of_getLast? h)⟩
  have := short l
  omega

theorem records_eye : (eye .run .low false 10).recordsOk := by
  refine ⟨items_tracking_ok .run, queuesOk_of_single (by decide) (by decide), ⟨by decide, nofun, nofun, by decide, nofun⟩,
    ?_, ?_, by decide⟩
  · unfold State.offEmpty
    decide
  · intro l
    have : ∀ l : LaneId, (eye .run .low false 10).verdicts.advance[l] = [] := by decide
    rw [this l]
    exact ⟨List.Pairwise.nil, by simp⟩

theorem witness_PointsReachedAtCreationAreTaken :
    ((eye .run .low false 9).duePoints (item 0 .opened) = [] ∧ (eye .run .low false 10).duePoints (item 0 .opened) ≠ [] ∧
      (eye .run .low false 10).duePoints (covered false) = [(10, .decision 0 0)] ∧
      (eye .run .low false 60).duePoints (covered false) = [(60, .jam 0 0), (10, .decision 0 0)]) ∧
    ((eye .run .low false 10).recordsOk ∧ item 0 .opened ∈ (eye .run .low false 10).items.queues[(0 : LaneId)] ∧
      (eye .run .low false 10).schedule.entries = [] ∧ (∀ i : InputId, (eye .run .low false 10).windows[i] = [])) ∧
    ((eye .run .low false 4).inputs[(0 : InputId)].role = .entry ∧
      (eye .run .low false 4).acceptsAs 0 .high (eye .run .low false 4).position.capture ∧
      (eye .run .low false 4).position.capture.rd.toInt ≤ 4 ∧
      (eye .run .low false 4).items.queues[(0 : LaneId)].length < config.limit ∧
      (eye .run .low false 4).items.inUse < 192 ∧
      ∀ m : LaneId, m ≠ 0 → (eye .run .low false 4).lanes[m].state = .off) :=
  ⟨by decide, ⟨records_eye, by decide, by decide, by decide⟩, by decide, accepts_eye _ .low _ _, by decide, by decide, by decide,
    by decide⟩

/-- SET_NOTICE fields at the edges of their ranges. -/
def settings (window : Byte) : NoticeFields :=
  { subKinds := 0xFF, inputs := 0xFFFF, timers := 0xFF, confirm := 1, levelItem := 3, levelLane := 3, levelInput := 3
    levelTimer := 3, levelReaction := 3, levelConfirm := 3, window := window, timeout := 2000, retryLimit := 15 }

theorem witness_SetNoticeWritesTheSettings :
    State.reset.takesNow 0x05 0 ∧ noticeSettingsOf (settings 9) = none ∧ noticeSettingsOf (settings 0) = none ∧
      (noticeSettingsOf (settings 8)).isSome = true ∧ State.reset.notices.depth ≤ 32 ∧ State.reset.notices.refs = [] :=
  ⟨takes_reset _ _, by decide, by decide, by decide, by decide, rfl⟩

/-- A sent OUTCOME entry of record 0 with number 255, and one without a link with number 0. -/
def outstanding : List NoticeEntry :=
  [{ kind := .outcome, contents := some [], link := .item 0, number := some 255, resend := false },
   { kind := .stray, contents := some [], link := .none, number := some 0, resend := true }]

/-- A state with those entries unacknowledged and a LANE entry unsent. -/
def sending (stalled : Bool) : State :=
  { State.reset with notices := { Notices.reset with
      sent := outstanding, stalled := stalled
      unsent := [{ kind := .lane, contents := none, link := .lane 0, number := none, resend := false }] } }

/-- An ENTRY and a COMMIT entry of the tracked item and an OUTCOME entry of a DONE one sent; another is DONE. -/
def reported : State :=
  let e : NoticeEntry := { kind := .entry, contents := some [], link := .item 0, number := some 0, resend := false }
  { tracking .run with
    items := { Items.reset with
      queues := tset Items.reset.queues 0 [item 0 .committed], done := [item 1 .done, item 2 .done], nextRid := 3 }
    notices := { Notices.reset with
      sent := [e, { e with kind := .commit, number := some 1 }, { e with kind := .outcome, link := .item 1, number := some 2 }] } }

/-- An OUTCOME entry and two others sent, the second of them linked to the same record, 29 unsent entries, and two lanes
with a reference; the link is STALLED. -/
def admitting : State :=
  let e : NoticeEntry := { kind := .outcome, contents := some [], link := .item 1, number := some 0, resend := false }
  { reported with
    notices := { Notices.reset with
      sent := [e, { e with kind := .commit, number := some 1 }, { e with kind := .stray, link := .none, number := some 2 }]
      stalled := true, refs := [.lane 0, .item 1 .entry, .lane 1]
      unsent := List.replicate 29 { e with kind := .stray, link := .none, number := none } } }

theorem witness_AckNoticeRemovesEntries :
    (sending true).takesNow 0x04 0 ∧ (∀ e ∈ (sending true).notices.sent, e.number ≠ some 1) ∧
      ((sending true).notices.sent[1]?.map (·.number) = some (some 0) ∧
        ∀ x ∈ (sending true).notices.sent.take 1, x.number ≠ some 0) ∧
      (reported.takesNow 0x04 0 ∧ reported.items.Ok ∧ (∃ it ∈ reported.items.done, it.rid = 1) ∧
        reported.notices.refs = [] ∧ reported.notices.sent.map (·.link) = [.item 0, .item 0, .item 1]) ∧
      (admitting.takesNow 0x04 0 ∧ admitting.notices.depth = 32 ∧ admitting.notices.stalled = true) :=
  ⟨⟨rfl, rfl, rfl, rfl⟩, by decide, by decide, ⟨⟨rfl, rfl, rfl, rfl⟩, ⟨by decide, by decide, by decide, by decide⟩,
    by decide, by decide, by decide⟩, ⟨rfl, rfl, rfl, rfl⟩, by decide, by decide⟩

/-- R163, R169, R171: the entries left are marked, one without its link; a LANE entry takes the slot that is freed. -/
theorem test_ack_admits : let n := (after (.ackNotice 1 0) admitting).notices
    n.sent.map (fun e => (e.number, e.link, e.resend)) = [(some 1, .none, true), (some 2, .none, true)] ∧
      n.unsent.length = 30 ∧ n.unsent.getLast?.map (·.link) = some (.lane 0) ∧ n.refs = [.lane 1] := by decide

/-- R7, R22, R169: ENTRY and COMMIT flags become acknowledged, a DONE record is freed, and the other one stays. -/
theorem test_ack_flags : let t := after (.ackNotice 1 2) reported
    t.items.queues[0].map (fun it => (it.rid, it.entryFlag, it.commitFlag)) = [(0, .acknowledged, .acknowledged)] ∧
      t.items.done.map (·.rid) = [2] := by decide

/-- The tracked item with its ENTRY entry unsent. -/
def reporting : State :=
  { tracking .run with notices := { Notices.reset with
      unsent := [{ kind := .entry, contents := some [], link := .item 0, number := none, resend := false }] } }

theorem witness_NoticesAreSentAndAdmitted :
    ((sending false).link.transmitter = .idle ∧ (sending false).link.replyWaits = false ∧ (sending false).agenda = []) ∧
      State.reset.notices.hasFrame = false ∧ (sending true).notices.stalled = true ∧
      ((sending false).notices.sent[1]?.map (·.resend) = some true ∧
        ∀ x ∈ (sending false).notices.sent.take 1, x.resend = false) ∧
      (∃ n : Notices, n.stalled = false ∧ n.sent = [] ∧ n.sent.length < n.settings.window ∧
        n.unsent = [{ kind := .lane, contents := none, link := .lane 0, number := none, resend := false }]) ∧
      (reporting.link.transmitter = .idle ∧ reporting.link.replyWaits = false ∧ reporting.agenda = [] ∧
        reporting.notices.unsent.map (·.link) = [.item 0]) ∧
      ((busy State.reset).link.transmitter ≠ .idle ∧ (busy State.reset).notices.depth ≤ 32 ∧
        (busy State.reset).notices.refs = []) :=
  ⟨by decide, by decide, by decide, by decide,
    ⟨{ Notices.reset with
        unsent := [{ kind := .lane, contents := none, link := .lane 0, number := none, resend := false }] },
      rfl, rfl, by decide, rfl⟩, by decide, by decide⟩

/-- R7, R167: the first transmission makes the linked flag sent. -/
theorem test_send_flags : (after .noticeSend reporting).items.queues[0].map (·.entryFlag) = [.sent] := by decide

/-- One item with an ENTRY and an OUTCOME reference and a LANE reference, `n` entries in the queue. -/
def raising (n : Nat) : State :=
  { tracking .run with notices := { Notices.reset with
      refs := [.item 0 .entry, .lane 0, .item 0 .outcome]
      unsent := List.replicate n { kind := .stray, contents := some [], link := .none, number := none, resend := false } } }

theorem witness_AdmissionTakesTheHighestReference :
    ((raising 0).notices.nextRef = some (.lane 0) ∧ State.reset.notices.nextRef = none) ∧
    ((raising 32).admitRef (.lane 0) = none ∧ (raising 31).notices.depth < 32) ∧
    ((raising 31).items.find 0 = some (item 0 .opened) ∧ (raising 0).notices.settings.entryOn = true) ∧
    ((sending false).notices.unsent.any (fun e => e.kind = .lane ∧ e.link = .lane 0)) = true ∧
    (State.reset.notices.hasUnsentLane 0 = false ∧ State.reset.lanes[(0 : LaneId)].noticeFlag = false) := by decide

/-- R172: with no entry freed, a discard leaves the references of the other lanes as they are. -/
theorem test_discard_without_slots : ((raising 32).discardLane 1).notices.refs = (raising 32).notices.refs := by decide

theorem witness_ConfigurationsReadBack :
    (laneConfigOf (fields 15)).isSome = true ∧ (noticeSettingsOf (settings 8)).isSome = true ∧
      triggerOf 3 0xFF 7 = some (.outcome none .abandoned) ∧ actionOf 3 15 65535 = some (.outPulse 15 65535) ∧
      (dispositionOf [⟨3, 0, 4095, 2000⟩] (some ⟨15, 1, 1048575, 1⟩)).isSome = true ∧
      (Action.outSet 0 ≠ .outPulse 0 0) := by decide

theorem witness_EveryMomentEnds : ∃ t, State.reset.agenda = [] ∧ State.reset.items.inUse ≤ 192 ∧
    State.reset.schedule.positionList.length + State.reset.schedule.timeList.length ≤ 64 ∧
    (allInputs.map (fun i => State.reset.windows[i].length)).sum ≤ 192 ∧ exec .framingError State.reset = .next t :=
  ⟨State.reset, rfl, by decide, by decide, by decide, rfl⟩

theorem data_reset : State.reset.dataOk := by
  have idle : ∀ l : LaneId, ¬ (State.reset.lanes[l].state = .run ∨ State.reset.lanes[l].state = .drain) := by decide
  unfold State.dataOk Position.Ok Timer.Ok Reaction.Ok Input.Ok Output.Ok
  refine ⟨by decide, ⟨nofun, fun l h => absurd h (idle l)⟩, by decide, by decide, ?_, by decide⟩
  intro i
  refine ⟨?_, ?_, ?_⟩
  · revert i; decide
  · revert i; decide
  · intro r h
    have none_runs : ∀ i : InputId, State.reset.inputs[i].run = none := by decide
    rw [none_runs i] at h
    cases h

theorem witness_StepsKeepTheRegisters : ∃ s t : State, step s = .next t ∧ s.dataOk :=
  ⟨State.reset, State.reset, rfl, data_reset⟩

theorem witness_StepsKeepTheLine : ∃ s t : State, step s = .next t ∧ s.lineOk := by
  refine ⟨State.reset, State.reset, rfl, ?_, ?_⟩
  · unfold Notices.Ok NoticeSettings.Ok
    refine ⟨by decide, by decide, by decide, by decide, by decide, by decide, by decide, by decide, by decide, by decide, ?_⟩
    intro k h
    cases h
  · refine ⟨by decide, by decide, by decide, by decide, ?_⟩
    intro f
    constructor
    · intro h; cases h
    · rintro ⟨r, h, _⟩; cases h

theorem witness_StepsKeepTheRecords : ∃ s t : State, step s = .next t ∧ s.recordsOk := by
  refine ⟨State.reset, State.reset, rfl, items_reset_ok, queuesOk_of_single (by decide) (by decide),
    ⟨by decide, by decide, by decide, by decide, by decide⟩, ?_, ?_, ?_⟩
  · unfold State.offEmpty; decide
  · intro l
    have : State.reset.verdicts.advance[l] = [] := by revert l; decide
    rw [this]
    exact ⟨List.Pairwise.nil, by simp⟩
  · decide

end Sys2Proof.Tests
end

section
/-! SUPPORT. The requests of the Timer Unit and the timer actions, and that a stopped timer does not expire (R146 to
R150, R154). -/

namespace Sys2Proof.Machine

/-! ### Timers: starts, stops and modes (R145, R146) -/

theorem timerModeOf_code (m : TimerMode) : timerModeOf m.code = some m := by
  cases m <;> rfl

/-- A byte above PERIODIC holds no mode. -/
theorem timerModeOf_none {b : Byte} (h : 1 < b.toNat) : timerModeOf b = none := by
  have h0 : b ≠ 0 := by rintro rfl; exact absurd h (by decide)
  have h1 : b ≠ 1 := by rintro rfl; exact absurd h (by decide)
  rw [timerModeOf, if_neg h0, if_neg h1]

/-- A stop of a stopped timer of the legal range changes nothing: its remaining count is 0 already. -/
theorem stop_stopped {t : Timer} (hok : t.Ok) (h : t.running = false) : t.stop = t := by
  obtain ⟨_, _, _, hzero⟩ := hok
  rw [Timer.stop, ← h, ← hzero h]

/-- A stopped timer does not expire. -/
theorem expires_stopped {t : Timer} (h : t.running = false) : t.expires = false := by
  rw [Timer.expires, h, Bool.false_and]

/-! ### What the Timer Unit answers (R149, R150) -/

/-- R149: a SET_TIMER whose timer, period or mode is out of range. -/
theorem reqSetTimer_refused (s : State) {timer mode : Byte} {period : Half}
    (h : 3 < timer.toNat ∨ period = 0 ∨ 1 < mode.toNat) : s.reqSetTimer timer period mode = s.refuse .badValue := by
  by_cases ht : 4 ≤ timer.toNat
  · exact named_bad s timer ht _
  · rw [State.reqSetTimer, State.named, finOf_some (Nat.lt_of_not_le ht)]
    obtain ht' | hp | hm := h
    · exact absurd ht' ht
    · cases timerModeOf mode with
      | none => rfl
      | some m => exact if_pos hp
    · rw [timerModeOf_none hm]

/-- R149: a SET_TIMER in range writes period and mode, and then stops the timer. -/
theorem reqSetTimer_writes (s : State) (t : TimerId) {period : Half} (m : TimerMode) (h : period ≠ 0) :
    s.reqSetTimer (natByte t) period m.code =
      (timerReply false 0, s.mapTimer t (fun x => Timer.stop { x with period := period.toNat, mode := m })) := by
  rw [State.reqSetTimer, named_natByte s t (by decide), timerModeOf_code]
  exact if_neg h

theorem reqStartTimer_writes (s : State) (t : TimerId) :
    s.reqStartTimer (natByte t) = (timerReply true s.timers[t].period, s.mapTimer t Timer.start) :=
  named_natByte s t (by decide) _

theorem reqStopTimer_writes (s : State) (t : TimerId) :
    s.reqStopTimer (natByte t) = (timerReply false s.timers[t].remaining, s.mapTimer t Timer.stop) :=
  named_natByte s t (by decide) _

/-! ### The commands, for a request taken at once -/

/-- R180: a request taken at once that changes one timer. -/
theorem request_mapTimer (s : State) (kind seq : Byte) (p payload : List Byte) (t : TimerId) (f : Timer → Timer)
    (h : s.takesNow kind seq) (hd : s.received.dispatch kind p = (payload, s.received.mapTimer t f))
    (hk : (kind = 0x02 && p.isEmpty) = false) :
    s.request kind seq p = .next ((s.mapTimer t f).answers kind seq payload) := by
  have ⟨_, _, _, hagenda⟩ := h
  exact request_writes s (s.mapTimer t f) kind seq p payload h hd hagenda rfl hk

theorem exec_setTimer_refused (s : State) (seq : Byte) {timer mode : Byte} {period : Half} (hs : s.takesNow 0x28 seq)
    (h : 3 < timer.toNat ∨ period = 0 ∨ 1 < mode.toNat) :
    exec (.setTimer seq timer period mode) s = .next (s.answers 0x28 seq [3]) :=
  request_refused s 0x28 seq _ .badValue hs
    ((dispatch_setTimer _ timer period mode).trans (reqSetTimer_refused _ h)) rfl

theorem exec_setTimer_writes (s : State) (seq : Byte) (t : TimerId) {period : Half} (m : TimerMode)
    (hs : s.takesNow 0x28 seq) (h : period ≠ 0) :
    exec (.setTimer seq (natByte t) period m.code) s =
      .next ((s.mapTimer t (fun x => Timer.stop { x with period := period.toNat, mode := m })).answers 0x28 seq
        (timerReply false 0)) :=
  request_mapTimer s 0x28 seq _ _ t _ hs ((dispatch_setTimer _ _ period _).trans (reqSetTimer_writes _ t m h)) rfl

theorem exec_startTimer_refused (s : State) (seq : Byte) {timer : Byte} (hs : s.takesNow 0x29 seq)
    (h : 3 < timer.toNat) : exec (.startTimer seq timer) s = .next (s.answers 0x29 seq [3]) :=
  request_refused s 0x29 seq _ .badValue hs ((dispatch_startTimer _ timer).trans (named_bad _ timer h _)) rfl

theorem exec_startTimer_starts (s : State) (seq : Byte) (t : TimerId) (hs : s.takesNow 0x29 seq) :
    exec (.startTimer seq (natByte t)) s =
      .next ((s.mapTimer t Timer.start).answers 0x29 seq (timerReply true s.timers[t].period)) :=
  request_mapTimer s 0x29 seq _ _ t _ hs ((dispatch_startTimer _ _).trans (reqStartTimer_writes _ t)) rfl

theorem exec_stopTimer_refused (s : State) (seq : Byte) {timer : Byte} (hs : s.takesNow 0x2A seq)
    (h : 3 < timer.toNat) : exec (.stopTimer seq timer) s = .next (s.answers 0x2A seq [3]) :=
  request_refused s 0x2A seq _ .badValue hs ((dispatch_stopTimer _ timer).trans (named_bad _ timer h _)) rfl

theorem exec_stopTimer_stops (s : State) (seq : Byte) (t : TimerId) (hs : s.takesNow 0x2A seq) :
    exec (.stopTimer seq (natByte t)) s =
      .next ((s.mapTimer t Timer.stop).answers 0x2A seq (timerReply false s.timers[t].remaining)) :=
  request_mapTimer s 0x2A seq _ _ t _ hs ((dispatch_stopTimer _ _).trans (reqStopTimer_writes _ t)) rfl

/-! ### The timer actions (R154) -/

theorem perform_timerStart {s : State} {r : ReactionId} {t : TimerId} (h : s.reactions[r].action = .timerStart t) :
    s.perform r = s.mapTimer t Timer.start := by
  rw [State.perform, h]

theorem perform_timerStop {s : State} {r : ReactionId} {t : TimerId} (h : s.reactions[r].action = .timerStop t) :
    s.perform r = s.mapTimer t Timer.stop := by
  rw [State.perform, h]

/-! ### A stopped timer does not expire (R147) -/

/-- A tick leaves a stopped timer. -/
theorem tickTimers_stopped {s : State} {t : TimerId} (h : s.timers[t].running = false) :
    s.tickTimers.timers[t] = s.timers[t] := by
  rw [tickTimers_timer, ticked_stopped h]

/-- A tick hands on no expiry of a stopped timer. -/
theorem expired_not_mem_tickTimers {s : State} {t : TimerId} (h : s.timers[t].running = false) (ha : s.agenda = []) :
    [Event.expired t] ∉ s.tickTimers.agenda := by
  rw [tickTimers_agenda, ha, List.nil_append]
  intro hmem
  obtain ⟨k, hk, hkt⟩ := List.mem_map.mp hmem
  obtain rfl : k = t := by cases hkt; rfl
  have hexp := (List.mem_filter.mp hk).2
  rw [expires_stopped h] at hexp
  cases hexp

/-- TIMER_EXPIRY of a stopped timer does nothing. -/
theorem exec_timerExpiry_stopped {s : State} {t : TimerId} (h : s.timers[t].running = false) (hq : s.quiet) :
    exec (.timerExpiry t) s = .next s := by
  have hdue : s.expiryDue t = false := by rw [State.expiryDue, expires_stopped h, Bool.and_false]
  have harm : exec (.timerExpiry t) s = execTimerExpiry t s := rfl
  rw [harm, execTimerExpiry, hdue]
  exact done_quiet s hq

/-! ### The statement about the timer requests -/

/-- The timer that a start finds and leaves. -/
theorem mapTimer_start_timer {s : State} {t : TimerId} {x : Timer} (h : s.timers[t] = x) :
    (s.mapTimer t Timer.start).timers[t] = x.start := by
  rw [mapTimer_timers, tset_get_self, h]

/-- Settles O12: each request is the write that its block makes of one timer, answered; a stopped timer has no expiry,
and both ways of starting it are `Timer.start`. -/
theorem timerRequestsWriteStartAndStop : Obligations.TimerRequestsWriteStartAndStop := by
  refine ⟨fun s seq timer period mode hs => ⟨exec_setTimer_refused s seq hs, ?_⟩,
    fun s seq timer => ⟨fun h => ⟨fun hs => exec_startTimer_refused s seq hs h,
      fun hs => exec_stopTimer_refused s seq hs h⟩, ?_⟩⟩
  · rintro t m rfl rfl hp
    refine ⟨exec_setTimer_writes s seq t m hs hp, fun u hu => ?_⟩
    have hstop : u.timers[t].running = false := by rw [hu]
    refine ⟨⟨(tickTimers_stopped hstop).trans hu, expired_not_mem_tickTimers hstop⟩,
      exec_timerExpiry_stopped hstop, fun n hn => ?_, fun r hr => ?_⟩
    · exact ⟨_, exec_startTimer_starts u n t hn, mapTimer_start_timer hu⟩
    · rw [perform_timerStart hr]
      exact mapTimer_start_timer hu
  · rintro t rfl
    refine ⟨exec_startTimer_starts s seq t, exec_stopTimer_stops s seq t, fun r => perform_timerStart,
      fun r => perform_timerStop, fun hok hstop => ?_⟩
    have hsame := stop_stopped hok hstop
    obtain ⟨_, _, _, hzero⟩ := hok
    refine ⟨hzero hstop, ?_⟩
    calc s.mapTimer t Timer.stop = { s with timers := tset s.timers t s.timers[t].stop } := rfl
      _ = s := by rw [hsame, tset_same]

end Sys2Proof.Machine
end

section
/-! SUPPORT. Masks of reactions, the Reaction Table under them, and ENABLE_REACTION (R157). -/

namespace Sys2Proof.Machine

theorem mem_allReactions (r : ReactionId) : r ∈ allReactions := by
  revert r; decide

/-! ### Masks (R157): sets of reactions on the line and in the table -/

theorem reactionSetOf_some {h : Half} (hlt : h.toNat < 4096) : reactionSetOf h = some (h.setWidth 12) :=
  if_pos hlt

theorem reactionSetOf_none {h : Half} (hle : 4096 ≤ h.toNat) : reactionSetOf h = none :=
  if_neg (Nat.not_lt.mpr hle)

/-- A set sent on the line names the same reactions as the one in the table. -/
theorem getLsbD_setWidth_reaction {w v : Nat} (m : BitVec w) (h : 12 ≤ v) (r : ReactionId) :
    (m.setWidth v).getLsbD r = m.getLsbD r := by
  have hr : r.val < v := Nat.lt_of_lt_of_le r.isLt h
  rw [BitVec.getLsbD_setWidth, decide_eq_true hr, Bool.true_and]

/-- Two masks, of which one is in range, name a reaction in common exactly when they do on the line. -/
theorem masks_disjoint_iff {a b : Half} (hb : b.toNat < 4096) :
    a.setWidth 12 &&& b.setWidth 12 = 0 ↔ a &&& b = 0 := by
  have hab : (a &&& b).toNat < 2 ^ 12 := Nat.and_lt_two_pow _ hb
  rw [← BitVec.setWidth_and, ← BitVec.toNat_inj, ← BitVec.toNat_inj, BitVec.toNat_setWidth, Nat.mod_eq_of_lt hab]
  rfl

/-! ### Folds over a list of reactions -/

/-- Reactions changed one after the other: the table alone is changed. -/
theorem foldl_mapReaction (f : ReactionId → Reaction → Reaction) (rs : List ReactionId) (s : State) :
    rs.foldl (fun acc r => acc.mapReaction r (f r)) s =
      { s with reactions := rs.foldl (fun v r => tset v r (f r v[r])) s.reactions } := by
  induction rs generalizing s with
  | nil => rfl
  | cons r rs ih => exact ih (s.mapReaction r (f r))

/-- Rows changed one after the other, none twice: each row named has been changed once, from what it was. -/
theorem foldl_tset_get {α : Type} {n : Nat} (f : Fin n → α → α) (i : Fin n) (is : List (Fin n)) (hnd : is.Nodup)
    (v : Vector α n) :
    (is.foldl (fun v j => tset v j (f j v[j])) v)[i] = if i ∈ is then f i v[i] else v[i] := by
  induction is generalizing v with
  | nil => rfl
  | cons j is ih =>
    obtain ⟨hj, hnd⟩ := List.nodup_cons.mp hnd
    rw [List.foldl_cons, ih hnd]
    by_cases hij : j = i
    · subst hij
      rw [if_neg hj, if_pos List.mem_cons_self, tset_get_self]
    · rw [tset_get_ne _ _ _ _ hij]
      simp [Ne.symm hij]

/-- The set of one reaction. -/
theorem getLsbD_single (k r : ReactionId) : ((1 <<< k.val : Nat) : BitVec 12).getLsbD r = decide (k = r) := by
  have hr : r.val < 12 := r.isLt
  rw [BitVec.natCast_eq_ofNat, BitVec.getLsbD_ofNat, Nat.one_shiftLeft, Nat.testBit_two_pow, decide_eq_true hr,
    Bool.true_and, decide_eq_decide, Fin.ext_iff]

/-- The reactions of a list that satisfy `p`, collected as a set. -/
theorem foldl_collect_getLsbD (p : ReactionId → Bool) (r : ReactionId) (rs : List ReactionId) (acc : BitVec 12) :
    (rs.foldl (fun (acc : BitVec 12) r => if p r then acc ||| (1 <<< r.val) else acc) acc).getLsbD r =
      (acc.getLsbD r || (decide (r ∈ rs) && p r)) := by
  induction rs generalizing acc with
  | nil => simp
  | cons k rs ih =>
    have hstep : (if p k then acc ||| (1 <<< k.val) else acc).getLsbD r = (acc.getLsbD r || (decide (k = r) && p k)) := by
      cases p k with
      | false => simp
      | true => rw [if_pos rfl, BitVec.getLsbD_or, getLsbD_single, Bool.and_true]
    rw [List.foldl_cons, ih, hstep]
    by_cases hk : k = r
    · subst hk
      cases p k <;> simp
    · simp [hk, Ne.symm hk]

/-- The set of enabled reactions names those that are enabled. -/
theorem enabledSet_getLsbD (s : State) (r : ReactionId) : s.enabledSet.getLsbD r = s.reactions[r].enabled := by
  rw [State.enabledSet, foldl_collect_getLsbD]
  simp [mem_allReactions]

/-! ### The request -/

/-- R157: the Reaction Table under two masks. -/
def maskedReactions (v : Vector Reaction 12) (enable disable : Half) : Vector Reaction 12 :=
  allReactions.foldl (fun v r => tset v r (v[r].masked r (enable.setWidth 12) (disable.setWidth 12))) v

/-- R157: each reaction has the flag that the masks give it, and keeps its flag when it stands in neither. -/
theorem maskedReactions_get (v : Vector Reaction 12) (enable disable : Half) (r : ReactionId) :
    (maskedReactions v enable disable)[r] =
      if enable.getLsbD r then { v[r] with enabled := true }
      else if disable.getLsbD r then { v[r] with enabled := false }
      else v[r] := by
  have hnd : allReactions.Nodup := by decide
  rw [maskedReactions, foldl_tset_get (fun r x => Reaction.masked x r _ _) r allReactions hnd, if_pos (mem_allReactions r),
    Reaction.masked, getLsbD_setWidth_reaction _ (Nat.le_refl _), getLsbD_setWidth_reaction _ (Nat.le_refl _)]

/-- R157: a mask above reaction 11, or a reaction in both masks. -/
theorem reqEnableReaction_badValue (s : State) {enable disable : Half}
    (h : 4096 ≤ enable.toNat ∨ 4096 ≤ disable.toNat ∨ enable &&& disable ≠ 0) :
    s.reqEnableReaction enable disable = s.refuse .badValue := by
  unfold State.reqEnableReaction
  by_cases he : 4096 ≤ enable.toNat
  · rw [reactionSetOf_none he]
  · rw [reactionSetOf_some (Nat.lt_of_not_le he)]
    by_cases hd : 4096 ≤ disable.toNat
    · rw [reactionSetOf_none hd]
    · rw [reactionSetOf_some (Nat.lt_of_not_le hd)]
      have hboth : enable &&& disable ≠ 0 := (h.resolve_left he).resolve_left hd
      exact if_pos (mt (masks_disjoint_iff (Nat.lt_of_not_le hd)).mp hboth)

section

variable (s : State) {enable disable : Half} (he : enable.toNat < 4096) (hd : disable.toNat < 4096)
  (hdisj : enable &&& disable = 0)

include he hd hdisj

/-- R157: masks in range leave the check of the triggers. -/
theorem reqEnableReaction_inRange : s.reqEnableReaction enable disable =
    if ∃ r : ReactionId, enable.getLsbD r = true ∧ s.reactions[r].trigger = .none then s.refuse .wrongState
    else
      let t : State := { s with reactions := maskedReactions s.reactions enable disable }
      (0 :: reactionSetBytes t.enabledSet, t) := by
  have hcheck : (allReactions.any fun r =>
      (enable.setWidth 12).getLsbD r && decide (s.reactions[r].trigger = .none)) = true ↔
      ∃ r : ReactionId, enable.getLsbD r = true ∧ s.reactions[r].trigger = .none := by
    simp [List.any_eq_true, mem_allReactions]
  unfold State.reqEnableReaction
  rw [reactionSetOf_some he, reactionSetOf_some hd]
  simp only [(masks_disjoint_iff hd).mpr hdisj, ne_eq, not_true_eq_false, if_false, hcheck, foldl_mapReaction]
  rfl

/-- R157: an enable mask that names a reaction without a trigger. -/
theorem reqEnableReaction_wrongState
    (h : ∃ r : ReactionId, enable.getLsbD r = true ∧ s.reactions[r].trigger = .none) :
    s.reqEnableReaction enable disable = s.refuse .wrongState := by
  rw [reqEnableReaction_inRange s he hd hdisj, if_pos h]

/-- R157: a request that is taken changes the flags and answers the enabled set. -/
theorem reqEnableReaction_writes
    (h : ∀ r : ReactionId, enable.getLsbD r = true → s.reactions[r].trigger ≠ .none) :
    let t : State := { s with reactions := maskedReactions s.reactions enable disable }
    s.reqEnableReaction enable disable = (0 :: reactionSetBytes t.enabledSet, t) := by
  have hnone : ¬ ∃ r : ReactionId, enable.getLsbD r = true ∧ s.reactions[r].trigger = .none :=
    fun ⟨r, hr, ht⟩ => h r hr ht
  rw [reqEnableReaction_inRange s he hd hdisj, if_neg hnone]

end

/-- A set of reactions sent as two bytes names none above 11. -/
theorem toNat_setWidth_reactionSet (m : BitVec 12) : (m.setWidth 16).toNat < 4096 := by
  rw [BitVec.toNat_setWidth_of_le (by decide)]
  exact m.isLt

/-- Settles O18: the two refusals, and the table under the masks with the enabled set read from it. -/
theorem enableReactionChangesTheFlags : Obligations.EnableReactionChangesTheFlags := by
  refine fun s seq enable disable hs => ⟨fun h => ?badValue, fun he hd hdisj => ⟨fun h => ?wrongState, fun h => ?taken⟩⟩
  case badValue =>
    exact request_refused s 0x2D seq _ .badValue hs
      ((dispatch_enableReaction _ enable disable).trans (reqEnableReaction_badValue _ h)) rfl
  case wrongState =>
    exact request_refused s 0x2D seq _ .wrongState hs
      ((dispatch_enableReaction _ enable disable).trans (reqEnableReaction_wrongState s.received he hd hdisj h)) rfl
  case taken =>
    let t : State := { s with reactions := maskedReactions s.reactions enable disable }
    have ⟨_, _, _, hagenda⟩ := hs
    refine ⟨t.reactions, t.enabledSet.setWidth 16, maskedReactions_get s.reactions enable disable,
      toNat_setWidth_reactionSet _, fun r => ?_, ?_⟩
    · rw [getLsbD_setWidth_reaction _ (by decide), enabledSet_getLsbD]
    · exact request_writes s t 0x2D seq _ _ hs
        ((dispatch_enableReaction _ enable disable).trans (reqEnableReaction_writes s.received he hd hdisj h))
        hagenda rfl rfl

end Sys2Proof.Machine
end

section
/-! SUPPORT. What the operations of the Notice Queue keep: its bounds (R161, R165, R167, R168, R170). -/

namespace Sys2Proof.Machine

/-! ### The entries of the queue -/

/-- R161: the bounds on the entries: new entries within the bounds, all else as it was. -/
theorem Notices.Ok.entries {n : Notices} (h : n.Ok) {sent unsent : List NoticeEntry} (hdepth : sent.length + unsent.length ≤ 32)
    (hother : (sent ++ unsent).countP NoticeEntry.isOther ≤ 24) (hsent : sent.length ≤ 8) :
    Notices.Ok { n with sent := sent, unsent := unsent } := by
  obtain ⟨hset, _, _, _, rest⟩ := h
  exact ⟨hset, hdepth, hother, hsent, rest⟩

/-- Entries through a change of their links, marks or contents, some of them leaving the unsent part. -/
theorem Notices.Ok.relabel {n : Notices} (h : n.Ok) (f g : NoticeEntry → NoticeEntry) (p : NoticeEntry → Bool)
    (hf : ∀ e, (f e).kind = e.kind) (hg : ∀ e, (g e).kind = e.kind) :
    Notices.Ok { n with sent := n.sent.map f, unsent := (n.unsent.filter p).map g } := by
  have other {f : NoticeEntry → NoticeEntry} (hf : ∀ e, (f e).kind = e.kind) (es : List NoticeEntry) :
      (es.map f).countP NoticeEntry.isOther = es.countP NoticeEntry.isOther := by
    rw [List.countP_map]
    exact List.countP_congr (fun e _ => by simp [NoticeEntry.isOther, hf e])
  have ⟨_, hdepth, hother, hsent, _⟩ := h
  have hfilter := List.length_filter_le p n.unsent
  have hcount : (n.unsent.filter p).countP NoticeEntry.isOther ≤ n.unsent.countP NoticeEntry.isOther :=
    List.filter_sublist.countP_le
  refine h.entries ?_ ?_ ?_
  · simp only [List.length_map]
    exact Nat.le_trans (Nat.add_le_add_left hfilter _) hdepth
  · rw [List.countP_append] at hother ⊢
    rw [other hf, other hg]
    exact Nat.le_trans (Nat.add_le_add_left hcount _) hother
  · simpa using hsent

theorem Notices.Ok.mark {n : Notices} (h : n.Ok) : Notices.Ok { n with sent := markAll n.sent } := by
  simpa [markAll] using h.relabel (fun e => { e with resend := true }) id (fun _ => true) (fun _ => rfl) (fun _ => rfl)

/-- The kind of an entry is kept as its link is cut. -/
theorem unlink_kind (e : NoticeEntry) (rid : Nat) : (e.unlink rid).kind = e.kind := by
  unfold NoticeEntry.unlink
  split <;> rfl

/-- R8: a freed record leaves the queue within its bounds. -/
theorem Notices.Ok.forget {n : Notices} (h : n.Ok) (rid : Nat) : (n.forget rid).Ok := by
  have := h.relabel (·.unlink rid) (·.unlink rid) (fun _ => true) (unlink_kind · rid) (unlink_kind · rid)
  rw [List.filter_true] at this
  exact this

/-- R172: a discarded record leaves the queue within its bounds. -/
theorem Notices.Ok.discard {n : Notices} (h : n.Ok) (rid : Nat) : (n.discard rid).Ok := by
  have := h.relabel (·.unlink rid) id (fun e => e.link ≠ .item rid) (unlink_kind · rid) (fun _ => rfl)
  rw [List.map_id] at this
  exact this

/-- R163: an entry of the classes ITEM and LANE joins below 32 entries. -/
theorem Notices.Ok.enqueue {n : Notices} (h : n.Ok) (hd : n.depth < 32) {e : NoticeEntry} (he : e.isOther = false) :
    Notices.Ok { n with unsent := n.unsent ++ [e] } := by
  have ⟨_, _, hother, hsent, _⟩ := h
  unfold Notices.depth at hd
  refine h.entries ?_ ?_ hsent
  · simp only [List.length_append, List.length_cons, List.length_nil]
    omega
  · rw [← List.append_assoc, List.countP_append, List.countP_cons_of_neg (by simp [he])]
    exact hother

/-! ### Missed counts, marks and numbers -/

/-- R165: a missed count is set to 255 at most. -/
theorem Notices.Ok.missed {n : Notices} (h : n.Ok) (c : NoticeClass) {k : Nat} (hk : k ≤ 255) :
    Notices.Ok { n with missed := n.missed.set c k } := by
  obtain ⟨h1, h2, h3, h4, hi, ht, hr, hc, rest⟩ := h
  refine ⟨h1, h2, h3, h4, ?_⟩
  cases c
  case item => exact ⟨hi, ht, hr, hc, rest⟩
  case lane => exact ⟨hi, ht, hr, hc, rest⟩
  case input => exact ⟨hk, ht, hr, hc, rest⟩
  case timer => exact ⟨hi, hk, hr, hc, rest⟩
  case reaction => exact ⟨hi, ht, hk, hc, rest⟩
  case confirm => exact ⟨hi, ht, hr, hk, rest⟩

/-- R165: a notice of another class takes a slot below 24 entries, or is counted. -/
theorem produce_notices_ok {s : State} (h : s.notices.Ok) (k : NoticeKind) (c : List Byte) : (s.produce k c).notices.Ok := by
  unfold State.produce
  simp only
  split
  · next hd =>
    have ⟨_, _, _, hsent, _⟩ := h
    unfold Notices.depth Config.otherLimit at hd
    refine Notices.Ok.missed ?_ k.class (Nat.zero_le 255)
    refine h.entries ?_ (Nat.le_trans List.countP_le_length ?_) hsent
    all_goals
      simp only [List.length_append, List.length_cons, List.length_nil]
      omega
  · exact Notices.Ok.missed h k.class (Nat.min_le_left 255 _)

/-! ### The acknowledgement timer (R168, R170, R171) -/

/-- R168, R170: the retry count and the timer: within their ranges, all else as it was. -/
theorem Notices.Ok.timing {n : Notices} (h : n.Ok) {retry : Nat} {stalled : Bool} {timer : Option Nat} (hr : retry ≤ 16)
    (hs : stalled = true → timer = none) (ht : ∀ k, timer = some k → 1 ≤ k) :
    Notices.Ok { n with retry := retry, stalled := stalled, ackTimer := timer } := by
  obtain ⟨h1, h2, h3, h4, h5, h6, h7, h8, _⟩ := h
  exact ⟨h1, h2, h3, h4, h5, h6, h7, h8, hr, hs, ht⟩

/-- R160: a timer at full timeout has at least 1 ms left. -/
theorem Notices.Ok.timeout_pos {n : Notices} (h : n.Ok) {k : Nat} (hk : some n.settings.timeout = some k) : 1 ≤ k := by
  obtain ⟨⟨_, _, hlow, _⟩, _⟩ := h
  cases hk
  omega

theorem Notices.Ok.restartTimer {n : Notices} (h : n.Ok) (hs : n.stalled = false) : n.restartTimer.Ok := by
  have ⟨_, _, _, _, _, _, _, _, hretry, _⟩ := h
  refine h.timing hretry (fun e => absurd e (by rw [hs]; decide)) (fun k hk => ?_)
  split at hk
  · cases hk
  · exact h.timeout_pos hk

/-- R171: the end of STALLED keeps the bounds. -/
theorem Notices.Ok.endStall {n : Notices} (h : n.Ok) : n.endStall.Ok := by
  unfold Notices.endStall
  split
  · have hm : Notices.Ok { n with sent := markAll n.sent, retry := 0, stalled := false, ackTimer := none } :=
      h.mark.timing (Nat.zero_le 16) nofun nofun
    exact hm.restartTimer rfl
  · exact h

/-- R170: a timeout taken by a running timer keeps the bounds. -/
theorem Notices.Ok.timeout {n : Notices} (h : n.Ok) {k : Nat} (hk : n.ackTimer = some k) : n.timeout.Ok := by
  have ⟨_, _, _, _, _, _, _, _, _, hstall, _⟩ := h
  have hs : n.stalled = false := by
    cases hn : n.stalled with
    | false => rfl
    | true => rw [hstall hn] at hk; cases hk
  unfold Notices.timeout
  simp only
  split
  · exact h.mark.timing (Nat.min_le_left 16 _) (fun e => absurd e (by rw [hs]; decide)) (fun k hk => h.timeout_pos hk)
  · exact h.timing (Nat.min_le_left 16 _) (fun _ => rfl) nofun

/-- R168: a tick taken by the acknowledgement timer keeps the bounds. -/
theorem Notices.Ok.tick {n : Notices} (h : n.Ok) : n.tick.Ok := by
  have ⟨_, _, _, _, _, _, _, _, hretry, hstall, _⟩ := h
  unfold Notices.tick
  split
  · exact h
  · split
    · exact h
    · next k hk =>
      split
      · exact h.timeout hk
      · refine h.timing hretry (fun e => ?_) (fun j hj => ?_)
        · rw [hstall e] at hk; cases hk
        · cases hj; omega

/-- R169: the retry count and the timer after an acknowledgement keep the bounds. -/
theorem Notices.Ok.resume {n : Notices} (h : n.Ok) : n.resume.Ok := by
  have ⟨_, _, _, _, _, _, _, _, _, hstall, htimer⟩ := h
  have hr : Notices.Ok { n with retry := 0 } := h.timing (Nat.zero_le 16) hstall htimer
  have ⟨_, _, _, _, _, _, hs, _⟩ := endStall_keeps { n with retry := 0 }
  exact hr.endStall.restartTimer hs

/-! ### Admission and sending -/

theorem admitRef_notices_ok {s t : State} {r : NoticeRef} (hr : s.admitRef r = some t) (h : s.notices.Ok) : t.notices.Ok := by
  unfold State.admitRef at hr
  cases r with
  | item rid sub =>
    simp only at hr
    split at hr
    · cases hr; exact h
    · split at hr
      · next hd =>
        split at hr
        · cases hr; exact h
        · cases hr
          refine Notices.Ok.enqueue (n := (s.dropRef _).notices) h hd ?_
          cases sub <;> rfl
      · cases hr
  | lane l =>
    simp only at hr
    split at hr
    · next hd =>
      cases hr
      exact Notices.Ok.enqueue (n := (s.dropRef _).notices) h hd rfl
    · cases hr

/-- R163: admission fills the queue up to 32 entries. -/
theorem admitUpTo_notices_ok (n : Nat) : ∀ {s : State}, s.notices.Ok → (State.admitUpTo n s).notices.Ok := by
  induction n with
  | zero => exact fun h => h
  | succ n ih =>
    intro s h
    unfold State.admitUpTo
    split
    · exact h
    · split
      · exact h
      · next hr => exact ih (admitRef_notices_ok hr h)

theorem admitAll_notices_ok {s : State} (h : s.notices.Ok) : s.admitAll.notices.Ok :=
  admitUpTo_notices_ok _ h

theorem admitIfRoom_notices_ok {s : State} (h : s.notices.Ok) : s.admitIfRoom.notices.Ok := by
  unfold State.admitIfRoom
  split
  · exact admitAll_notices_ok h
  · exact h

theorem raiseItem_notices_ok {s : State} (h : s.notices.Ok) (rid : Nat) (sub : SubKind) : (s.raiseItem rid sub).notices.Ok :=
  admitIfRoom_notices_ok (s := (s.setFlag rid sub .pending).addRef (.item rid sub)) h

theorem raiseLane_notices_ok {s : State} (h : s.notices.Ok) (l : LaneId) : (s.raiseLane l).notices.Ok := by
  unfold State.raiseLane
  split
  · exact h
  · split
    · exact h
    · exact admitIfRoom_notices_ok (s := (s.mapLane l _).addRef (.lane l)) h

theorem flagLinked_notices (s : State) (e : NoticeEntry) (f : NoticeFlag) : (s.flagLinked e f).notices = s.notices :=
  flagLinked_changes s e f .notices (by decide)

/-- R167: the first unsent entry stands in the queue. -/
theorem firstUnsent_mem {n : Notices} {e : NoticeEntry} (h : n.firstUnsent = some e) : e ∈ n.unsent :=
  List.mem_of_find?_eq_some h

/-- R167: the queue after a first transmission. -/
theorem sendFirst_notices (s : State) (e : NoticeEntry) : (s.sendFirst e).notices = { s.notices with
    unsent := s.notices.unsent.erase e
    sent := s.notices.sent ++ [{ e with number := some s.notices.nextNumber, contents := some (s.sentContents e) }]
    nextNumber := s.notices.nextNumber + 1
    ackTimer := if s.notices.sent.isEmpty then some s.notices.settings.timeout else s.notices.ackTimer } :=
  flagLinked_notices _ e .sent

/-- R167, R168: a first transmission moves an entry within the queue and starts the timer. -/
theorem sendFirst_notices_ok {s : State} (h : s.notices.Ok) {e : NoticeEntry} (he : e ∈ s.notices.unsent)
    (hw : s.notices.sent.length < s.notices.settings.window) (hs : s.notices.stalled = false) :
    (s.sendFirst e).notices.Ok := by
  have ⟨⟨_, hwin, _⟩, hdepth, hother, _, _, _, _, _, hretry, _, htimer⟩ := h
  have hlen := List.length_erase_add_one he
  have hcount : (s.notices.unsent.erase e).countP NoticeEntry.isOther + (if e.isOther then 1 else 0) =
      s.notices.unsent.countP NoticeEntry.isOther := by
    rw [(List.perm_cons_erase he).countP_eq, List.countP_cons]
  rw [sendFirst_notices]
  refine (Notices.Ok.timing (h.entries (sent := s.notices.sent ++ [_]) (unsent := s.notices.unsent.erase e)
    ?_ ?_ ?_) (stalled := s.notices.stalled) hretry (fun e => absurd e (by rw [hs]; decide)) (fun k hk => ?_))
  · unfold Notices.depth at hdepth
    simp only [List.length_append, List.length_cons, List.length_nil]
    omega
  · simp only [List.countP_append, List.countP_cons, List.countP_nil] at hother ⊢
    have hsame : NoticeEntry.isOther { e with number := some s.notices.nextNumber, contents := some (s.sentContents e) } =
      e.isOther := rfl
    rw [hsame]
    omega
  · simp only [List.length_append, List.length_cons, List.length_nil]
    omega
  · split at hk
    · exact h.timeout_pos hk
    · exact htimer k hk

/-- The entries of a list of which one has lost its mark: their kinds are kept. -/
theorem unmarkFirst_kinds (es : List NoticeEntry) : (unmarkFirst es).map (·.kind) = es.map (·.kind) := by
  induction es with
  | nil => rfl
  | cons e es ih =>
    unfold unmarkFirst
    split
    · rfl
    · rw [List.map_cons, ih, List.map_cons]

/-- Lists of entries of the same kinds have as many of the other classes. -/
theorem countP_isOther_of_kinds {es fs : List NoticeEntry} (h : es.map (·.kind) = fs.map (·.kind)) :
    es.countP NoticeEntry.isOther = fs.countP NoticeEntry.isOther := by
  have key (es : List NoticeEntry) : es.countP NoticeEntry.isOther =
      (es.map (·.kind)).countP (fun k => k.class ≠ .item && k.class ≠ .lane) := by
    rw [List.countP_map]; rfl
  rw [key, key, h]

/-- R167, R170: what the Notice Queue sends at a grant keeps the bounds. -/
theorem sendNotice_notices_ok {s : State} (h : s.notices.Ok) : s.sendNotice.notices.Ok := by
  unfold State.sendNotice
  split
  · exact h
  · next hs =>
    split
    · have ⟨_, hdepth, hother, hsent, _⟩ := h
      have hk := unmarkFirst_kinds s.notices.sent
      have hlen : (unmarkFirst s.notices.sent).length = s.notices.sent.length := by
        simpa using congrArg List.length hk
      refine h.entries (by rw [hlen]; exact hdepth) ?_ (by rw [hlen]; exact hsent)
      rw [List.countP_append, countP_isOther_of_kinds hk, ← List.countP_append]
      exact hother
    · split
      · next hw =>
        split
        · exact h
        · next he => exact sendFirst_notices_ok h (firstUnsent_mem he) hw (by simpa using hs)
      · exact h

/-! ### Acknowledgement (R169) -/

theorem acknowledge_notices_ok {s : State} (h : s.notices.Ok) (e : NoticeEntry) : (s.acknowledge e).notices.Ok := by
  unfold State.acknowledge
  split
  · split
    · exact h.forget _
    · rw [flagLinked_notices]; exact h
  all_goals exact h

theorem acknowledge_foldl_notices_ok (es : List NoticeEntry) :
    ∀ {s : State}, s.notices.Ok → (es.foldl State.acknowledge s).notices.Ok := by
  induction es with
  | nil => exact fun h => h
  | cons e es ih => exact fun h => ih (acknowledge_notices_ok h e)

theorem ackNotice_notices_ok {s : State} (h : s.notices.Ok) (number : Byte) : (s.ackNotice number).notices.Ok := by
  have ⟨_, hdepth, hother, hsent, _⟩ := h
  unfold State.ackNotice
  simp only
  split
  · exact h
  · refine admitAll_notices_ok (Notices.Ok.resume (acknowledge_foldl_notices_ok _ ?_))
    have hlen := List.length_drop (l := s.notices.sent) (i := s.notices.covered number)
    have hcount := (List.drop_sublist (s.notices.covered number) s.notices.sent).countP_le (p := NoticeEntry.isOther)
    unfold Notices.depth at hdepth
    refine h.entries (unsent := s.notices.unsent) ?_ ?_ ?_
    · omega
    · rw [List.countP_append] at hother ⊢
      omega
    · omega

/-! ### Settings and resets -/

/-- R160: settings in their ranges, all else as it was. -/
theorem Notices.Ok.settings {n : Notices} (h : n.Ok) {x : NoticeSettings} (hx : x.Ok) : Notices.Ok { n with settings := x } := by
  obtain ⟨_, rest⟩ := h
  exact ⟨hx, rest⟩

/-- R173: the settings a SET_NOTICE writes are in their ranges. -/
theorem noticeSettingsOf_ok {f : NoticeFields} {n : NoticeSettings} (h : noticeSettingsOf f = some n) : n.Ok := by
  unfold noticeSettingsOf at h
  split at h
  · split at h
    · next hr =>
      cases h
      obtain ⟨a, b, c, d, e, g, _⟩ := hr
      exact ⟨a, b, c, d, e, g⟩
    · cases h
  · cases h

theorem notices_reset_ok : Notices.reset.Ok :=
  ⟨⟨by decide, by decide, by decide, by decide, by decide, by decide⟩, by decide, by decide, by decide, by decide,
    by decide, by decide, by decide, by decide, by decide, nofun⟩

/-- R172: a soft reset keeps settings that are in their ranges. -/
theorem Notices.Ok.afterSoftReset {n : Notices} (h : n.Ok) : n.afterSoftReset.Ok := by
  obtain ⟨hx, _⟩ := h
  exact notices_reset_ok.settings hx

end Sys2Proof.Machine
end

section
/-! SUPPORT. What an operation inside a moment keeps, said once for the invariants of the registers, the line and the
records and for the end of a moment: the relations that the lemmas about the operations are stated in. -/

namespace Sys2Proof.Machine

/-! ### Records that stay in their places -/

/-- The record `b` is the record `a` as the operations of its blocks leave it. -/
structure Item.Follows (a b : Item) : Prop where
  rid : b.rid = a.rid
  lane : b.lane = a.lane
  tag : b.tag = a.tag
  entryPos : b.entryPos = a.entryPos
  covering : b.covering = true → a.covering = true
  opened : b.state = .opened → a.state = .opened

theorem Item.Follows.refl (a : Item) : a.Follows a := ⟨rfl, rfl, rfl, rfl, id, id⟩

theorem Item.Follows.trans {a b c : Item} (h : a.Follows b) (k : b.Follows c) : a.Follows c :=
  ⟨k.rid.trans h.rid, k.lane.trans h.lane, k.tag.trans h.tag, k.entryPos.trans h.entryPos, h.covering ∘ k.covering,
    h.opened ∘ k.opened⟩

/-- Records that differ in their notice flags alone. -/
theorem Item.Follows.of_sansFlags {a b : Item} (h : b.sansFlags = a.sansFlags) : a.Follows b := by
  have key (it : Item) : (it.sansFlags.rid, it.sansFlags.lane, it.sansFlags.tag, it.sansFlags.entryPos,
      it.sansFlags.covering, it.sansFlags.state) = (it.rid, it.lane, it.tag, it.entryPos, it.covering, it.state) := rfl
  have hk := (key b).symm.trans ((by rw [h]) : _ = _) |>.trans (key a)
  simp only [Prod.mk.injEq] at hk
  obtain ⟨h1, h2, h3, h4, h5, h6⟩ := hk
  exact ⟨h1, h2, h3, h4, fun e => h5 ▸ e, fun e => h6 ▸ e⟩

/-- Lists of records in the same places. -/
abbrev FollowAll (xs ys : List Item) : Prop := List.Forall₂ Item.Follows xs ys

theorem FollowAll.of_map {f : Item → Item} (h : ∀ it : Item, it.Follows (f it)) (xs : List Item) : FollowAll xs (xs.map f) := by
  induction xs with
  | nil => exact .nil
  | cons x xs ih => exact .cons (h x) ih

theorem FollowAll.refl (xs : List Item) : FollowAll xs xs := by
  simpa using FollowAll.of_map (f := id) Item.Follows.refl xs

theorem FollowAll.trans {xs ys zs : List Item} (h : FollowAll xs ys) (k : FollowAll ys zs) : FollowAll xs zs := by
  induction h generalizing zs with
  | nil => exact k
  | cons hx _ ih =>
    cases k with
    | cons hy k => exact .cons (hx.trans hy) (ih k)

theorem FollowAll.of_sansFlags {xs ys : List Item} (h : ys.map Item.sansFlags = xs.map Item.sansFlags) :
    FollowAll xs ys := by
  induction xs generalizing ys with
  | nil => rw [List.map_nil, List.map_eq_nil_iff] at h; rw [h]; exact .nil
  | cons x xs ih =>
    cases ys with
    | nil => cases h
    | cons y ys =>
      obtain ⟨hx, hxs⟩ := List.cons.inj h
      exact .cons (.of_sansFlags hx) (ih hxs)

theorem FollowAll.rids {xs ys : List Item} (h : FollowAll xs ys) : ys.map (·.rid) = xs.map (·.rid) := by
  induction h with
  | nil => rfl
  | cons hx _ ih => rw [List.map_cons, List.map_cons, hx.rid, ih]

theorem FollowAll.length {xs ys : List Item} (h : FollowAll xs ys) : ys.length = xs.length :=
  (List.Forall₂.length_eq h).symm

theorem FollowAll.nil_left {xs : List Item} (h : FollowAll [] xs) : xs = [] :=
  List.forall₂_nil_left_iff.mp h

/-- How many items of a list are OPEN. -/
def openCount (xs : List Item) : Nat :=
  xs.countP (fun it => it.state = .opened)

theorem FollowAll.openCount_le {xs ys : List Item} (h : FollowAll xs ys) : openCount ys ≤ openCount xs := by
  induction h with
  | nil => exact Nat.le_refl _
  | @cons x y xs ys hx _ ih =>
    unfold openCount at ih ⊢
    rw [List.countP_cons, List.countP_cons]
    have := hx.opened
    by_cases hy : y.state = .opened
    · simp only [hy, this hy, decide_true, if_true]; omega
    · simp only [hy, decide_false, Bool.false_eq_true, if_false]; omega

/-- The records of a table stay in their lists and at their places there. -/
structure Items.InPlace (t u : Items) : Prop where
  queues : ∀ l : LaneId, FollowAll t.queues[l] u.queues[l]
  done : FollowAll t.done u.done
  passed : FollowAll t.passed u.passed
  nextRid : u.nextRid = t.nextRid

theorem Items.InPlace.refl (t : Items) : t.InPlace t :=
  ⟨fun _ => .refl _, .refl _, .refl _, rfl⟩

theorem Items.InPlace.trans {t u v : Items} (h : t.InPlace u) (k : u.InPlace v) : t.InPlace v :=
  ⟨fun l => (h.queues l).trans (k.queues l), h.done.trans k.done, h.passed.trans k.passed, k.nextRid.trans h.nextRid⟩

theorem Items.InPlace.of_sameRecords {s t : State} (h : s.sameRecords t) (hn : t.items.nextRid = s.items.nextRid) :
    s.items.InPlace t.items := by
  obtain ⟨hq, hd, hp⟩ := h
  exact ⟨fun l => .of_sansFlags (hq l), .of_sansFlags hd, .of_sansFlags hp, hn⟩

/-- R1: the serial numbers of all records in use. -/
def Items.rids (t : Items) : List Nat := t.all.map (·.rid)

theorem Items.InPlace.rids {t u : Items} (h : t.InPlace u) : u.rids = t.rids := by
  have h0 : u.queues[0].map (·.rid) = t.queues[0].map (·.rid) := (h.queues 0).rids
  have h1 : u.queues[1].map (·.rid) = t.queues[1].map (·.rid) := (h.queues 1).rids
  have h2 : u.queues[2].map (·.rid) = t.queues[2].map (·.rid) := (h.queues 2).rids
  have h3 : u.queues[3].map (·.rid) = t.queues[3].map (·.rid) := (h.queues 3).rids
  simp only [Items.rids, Items.all, List.map_append, h0, h1, h2, h3, h.done.rids, h.passed.rids]

/-- R1: the records in use, counted. -/
theorem inUse_eq_length (t : Items) : t.inUse = t.rids.length := by
  simp only [Items.inUse, Items.rids, Items.all, List.map_append, List.length_append, List.length_map]

theorem mapRid_follows {rid : Nat} {f : Item → Item} (h : ∀ it : Item, it.Follows (f it)) (xs : List Item) :
    FollowAll xs (mapRid rid f xs) := by
  refine FollowAll.of_map (fun it => ?_) xs
  split
  · exact h it
  · exact .refl it

theorem mapRecord_inPlace (s : State) (rid : Nat) {f : Item → Item} (h : ∀ it : Item, it.Follows (f it)) :
    s.items.InPlace (s.mapRecord rid f).items := by
  refine ⟨fun l => ?_, mapRid_follows h _, mapRid_follows h _, rfl⟩
  show FollowAll _ (tmap (mapRid rid f) s.items.queues)[l]
  rw [tmap_get]
  exact mapRid_follows h _

/-! ### The registers (StepsKeepTheRegisters) -/

/-- R126: the reverse depth is within the reverse limit. -/
def Position.within (p : Position) : Prop :=
  p.rd.toInt ≤ (p.rl.toNat : Int)

/-- The registers of the blocks stay in their ranges, events join the agenda at its end, and a lane that is in RUN or
DRAIN beyond the reverse limit was so before, or has a REVERSE of the moment to come. -/
structure State.DataKept (s t : State) : Prop where
  position : s.position.Ok → t.position.Ok
  agenda : ∃ more, t.agenda = s.agenda ++ more ∧ ∀ c ∈ more, c ≠ []
  limit : s.position.Ok → ∀ l : LaneId, t.lanes[l].running = true → t.position.within ∨ .offer l .reverse ∈ t.agenda.flatten ∨
    (s.lanes[l].running = true ∧ (s.position.within → t.position.within))
  timers : ∀ k : TimerId, s.timers[k].Ok → t.timers[k].Ok
  reactions : ∀ r : ReactionId, s.reactions[r].Ok → t.reactions[r].Ok
  inputs : ∀ i : InputId, s.inputs[i].Ok → t.inputs[i].Ok
  outputs : ∀ o : OutputId, s.outputs[o].Ok → t.outputs[o].Ok

theorem State.DataKept.trans {s t u : State} (h : s.DataKept t) (k : t.DataKept u) : s.DataKept u where
  position := k.position ∘ h.position
  agenda := by
    obtain ⟨m, hm, hm'⟩ := h.agenda
    obtain ⟨n, hn, hn'⟩ := k.agenda
    exact ⟨m ++ n, by rw [hn, hm, List.append_assoc], fun c hc => (List.mem_append.mp hc).elim (hm' c) (hn' c)⟩
  limit ok l hl := by
    obtain hw | ho | ⟨hr, hw⟩ := k.limit (h.position ok) l hl
    · exact .inl hw
    · exact .inr (.inl ho)
    · obtain hv | ho | ⟨hr', hv⟩ := h.limit ok l hr
      · exact .inl (hw hv)
      · obtain ⟨n, hn, _⟩ := k.agenda
        rw [hn, List.flatten_append]
        exact .inr (.inl (List.mem_append_left _ ho))
      · exact .inr (.inr ⟨hr', hw ∘ hv⟩)
  timers k' := k.timers k' ∘ h.timers k'
  reactions r := k.reactions r ∘ h.reactions r
  inputs i := k.inputs i ∘ h.inputs i
  outputs o := k.outputs o ∘ h.outputs o

/-- R126: a lane is in RUN or DRAIN. -/
theorem running_iff (x : Lane) : x.running = true ↔ x.state = .run ∨ x.state = .drain := by
  simp [Lane.running]

/-- With the same reverse depth and limit, lanes of which none has begun to run, and the agenda as it was. -/
theorem State.DataKept.of_blocks {s t : State} (hc : OnlyChanges
      [.items, .notices, .schedule, .windows, .verdicts, .pins, .choices, .link, .lanes, .outputs, .timers] s t)
    (hl : ∀ l : LaneId, t.lanes[l].running = true → s.lanes[l].running = true)
    (ho : ∀ o : OutputId, s.outputs[o].Ok → t.outputs[o].Ok) (ht : ∀ k : TimerId, s.timers[k].Ok → t.timers[k].Ok) :
    s.DataKept t := by
  have hp : t.position = s.position := hc .position (by decide)
  have ha : t.agenda = s.agenda := hc .agenda (by decide)
  have hr : t.reactions = s.reactions := hc .reactions (by decide)
  have hi : t.inputs = s.inputs := hc .inputs (by decide)
  exact {
    position := fun h => hp ▸ h
    agenda := ⟨[], by rw [ha, List.append_nil], nofun⟩
    limit := fun _ l h => .inr (.inr ⟨hl l h, fun h => hp ▸ h⟩)
    timers := ht
    reactions := fun r h => by rw [hr]; exact h
    inputs := fun i h => by rw [hi]; exact h
    outputs := ho }

theorem State.DataKept.of_changes {s t : State} (hc : OnlyChanges
    [.items, .notices, .schedule, .windows, .verdicts, .pins, .choices, .link] s t) : s.DataKept t := by
  have hl : t.lanes = s.lanes := hc .lanes (by decide)
  have ho : t.outputs = s.outputs := hc .outputs (by decide)
  have ht : t.timers = s.timers := hc .timers (by decide)
  exact .of_blocks hc.mono (fun l h => hl ▸ h) (fun o h => by rw [ho]; exact h) (fun k h => by rw [ht]; exact h)

theorem State.DataKept.refl (s : State) : s.DataKept s := .of_changes (.refl _ s)

/-- The registers after an operation that keeps them. -/
theorem State.DataKept.dataOk {s t : State} (h : s.DataKept t) (hs : s.dataOk) : t.dataOk := by
  obtain ⟨hp, ⟨hc, hl⟩, ht, hr, hi, ho⟩ := hs
  obtain ⟨more, hm, hm'⟩ := h.agenda
  refine ⟨h.position hp, ⟨?_, fun l hrun => ?_⟩, fun k => h.timers k (ht k), fun r => h.reactions r (hr r),
    fun i => h.inputs i (hi i), fun o => h.outputs o (ho o)⟩
  · rw [hm]
    exact fun c hc' => (List.mem_append.mp hc').elim (hc c) (hm' c)
  · obtain hw | hoff | ⟨hrun', hw⟩ := h.limit hp l ((running_iff _).mpr hrun)
    · exact .inl hw
    · exact .inr hoff
    · refine (hl l ((running_iff _).mp hrun')).imp hw (fun hoff => ?_)
      rw [hm, List.flatten_append]
      exact List.mem_append_left _ hoff

/-! ### The line (StepsKeepTheLine) -/

theorem noticesOk_of_changes {s t : State} (hc : OnlyChanges [.items, .verdicts, .schedule, .outputs, .windows, .lanes,
    .position, .inputs, .timers, .reactions, .link, .pins, .choices, .agenda, .pending] s t) (h : s.notices.Ok) :
    t.notices.Ok := by
  have hn : t.notices = s.notices := hc .notices (by decide)
  rw [hn]
  exact h

theorem linkOk_of_changes {s t : State} (hc : OnlyChanges [.items, .verdicts, .schedule, .outputs, .windows, .lanes,
    .position, .inputs, .timers, .reactions, .notices, .pins, .choices, .agenda, .pending] s t) (h : s.link.Ok) :
    t.link.Ok := by
  have hl : t.link = s.link := hc .link (by decide)
  rw [hl]
  exact h

/-! ### The records (StepsKeepTheRecords) -/

theorem recordsOk_of_changes {s t : State} (hc : OnlyChanges [.notices, .link, .outputs, .windows, .position, .inputs,
    .timers, .reactions, .pins, .choices, .agenda, .pending] s t) (h : s.recordsOk) : t.recordsOk := by
  have hi : t.items = s.items := hc .items (by decide)
  have hs : t.schedule = s.schedule := hc .schedule (by decide)
  have hl : t.lanes = s.lanes := hc .lanes (by decide)
  have hv : t.verdicts = s.verdicts := hc .verdicts (by decide)
  unfold State.recordsOk State.queuesOk State.offEmpty State.advanceOk at *
  rw [hi, hs, hl, hv]
  exact h

/-- R1, R2: a table whose records are among those of another, the queues among its queues. -/
theorem Items.Ok.of_subperm {t u : Items} (h : t.Ok) (hr : List.Subperm u.rids t.rids) (hn : t.nextRid ≤ u.nextRid)
    (hl : ∀ l : LaneId, ∀ it ∈ u.queues[l], it.lane = l) : u.Ok := by
  obtain ⟨huse, _, hnd, hlt⟩ := h
  refine ⟨?_, hl, ?_, fun it hit => ?_⟩
  · rw [inUse_eq_length] at huse ⊢
    exact Nat.le_trans hr.length_le huse
  · obtain ⟨l, hp, hs⟩ := hr
    exact hp.nodup_iff.mp (hnd.sublist hs)
  · obtain ⟨x, hx, he⟩ := List.mem_map.mp (hr.subset (List.mem_map_of_mem (f := (·.rid)) hit))
    exact Nat.lt_of_lt_of_le (he ▸ hlt x hx) hn

/-- A queue of which some of the oldest records have left, the others in their places. -/
def Trails (q r : List Item) : Prop :=
  ∃ p, p <:+ q ∧ FollowAll p r

theorem Trails.of_follow {q r : List Item} (h : FollowAll q r) : Trails q r :=
  ⟨q, List.suffix_refl q, h⟩

theorem Trails.follow {q r u : List Item} (h : Trails q r) (k : FollowAll r u) : Trails q u := by
  obtain ⟨p, hp, hf⟩ := h
  exact ⟨p, hp, hf.trans k⟩

theorem FollowAll.getElem? {xs ys : List Item} (h : FollowAll xs ys) {k : Nat} {b : Item} (hb : ys[k]? = some b) :
    ∃ a, xs[k]? = some a ∧ a.Follows b := by
  induction h generalizing k with
  | nil => cases hb
  | @cons x y xs ys hx _ ih =>
    cases k with
    | zero => cases hb; exact ⟨x, rfl, hx⟩
    | succ k => exact ih hb

theorem FollowAll.mem {xs ys : List Item} (h : FollowAll xs ys) {b : Item} (hb : b ∈ ys) : ∃ a ∈ xs, a.Follows b := by
  obtain ⟨k, hk⟩ := List.getElem?_of_mem hb
  obtain ⟨a, ha, hab⟩ := h.getElem? hk
  exact ⟨a, List.mem_of_getElem? ha, hab⟩

theorem Trails.mem {q r : List Item} (h : Trails q r) {b : Item} (hb : b ∈ r) : ∃ a ∈ q, a.Follows b := by
  obtain ⟨p, hp, hf⟩ := h
  obtain ⟨a, ha, hab⟩ := hf.mem hb
  exact ⟨a, hp.subset ha, hab⟩

theorem Trails.nil {r : List Item} (h : Trails [] r) : r = [] := by
  obtain ⟨p, hp, hf⟩ := h
  rw [List.suffix_nil.mp hp] at hf
  cases hf; rfl

/-- R2: the order of one item queue before the next tag of its lane. -/
def queueOk (next : Half) (q : List Item) : Prop :=
  (∀ (k : Nat) (a b : Item), q[k]? = some a → q[k + 1]? = some b →
    b.tag = a.tag + 1 ∧ (a.entryPos - b.entryPos).toInt ≤ 0 ∧ a.covering = false) ∧
  ∀ it, q.getLast? = some it → next = it.tag + 1

theorem queuesOk_iff (s : State) : s.queuesOk ↔ ∀ l : LaneId, queueOk s.lanes[l].nextTag s.items.queues[l] :=
  Iff.rfl

/-- R2: a queue keeps its order as its oldest records leave and the others stay in their places. -/
theorem queueOk.trails {next : Half} {q r : List Item} (h : queueOk next q) (ht : Trails q r) : queueOk next r := by
  obtain ⟨p, ⟨front, rfl⟩, hf⟩ := ht
  obtain ⟨hpairs, hlast⟩ := h
  refine ⟨fun k a b ha hb => ?_, fun it hit => ?_⟩
  · obtain ⟨a', ha', hfa⟩ := hf.getElem? ha
    obtain ⟨b', hb', hfb⟩ := hf.getElem? hb
    obtain ⟨htag, hpos, hcov⟩ := hpairs (front.length + k) a' b'
      (by rw [List.getElem?_append_right (by omega)]; simpa using ha')
      (by rw [List.getElem?_append_right (by omega)]; simpa [Nat.add_assoc] using hb')
    rw [hfa.tag, hfb.tag, hfa.entryPos, hfb.entryPos]
    refine ⟨htag, hpos, ?_⟩
    cases hc : a.covering with
    | false => rfl
    | true => rw [hfa.covering hc] at hcov; cases hcov
  · rw [List.getLast?_eq_getElem?, hf.length] at hit
    obtain ⟨a, ha, hfa⟩ := hf.getElem? hit
    rw [hfa.tag]
    refine hlast a ?_
    rw [← List.getLast?_eq_getElem?] at ha
    rw [List.getLast?_append, ha, Option.some_or]

/-- The records and lists after an operation that lets the oldest records of queues leave, changes no schedule entry and
no verdict, and takes no lane to OFF. -/
theorem recordsOk_of_trails {s t : State} (h : s.recordsOk) (hq : ∀ l : LaneId, Trails s.items.queues[l] t.items.queues[l])
    (hr : List.Subperm t.items.rids s.items.rids) (hn : t.items.nextRid = s.items.nextRid)
    (hs : s.schedule.Ok → t.schedule.Ok) (hv : t.verdicts = s.verdicts)
    (hl : ∀ l : LaneId, t.lanes[l].nextTag = s.lanes[l].nextTag ∧ (t.lanes[l].state = .off →
      s.lanes[l].state = .off ∧ (s.lanes[l].blanked = false → t.lanes[l].blanked = false))) : t.recordsOk := by
  obtain ⟨hi, hqs, hsch, hoff, hadv, hdis⟩ := h
  have ⟨_, hlane, _⟩ := hi
  refine ⟨hi.of_subperm hr (Nat.le_of_eq hn.symm) (fun l it hit => ?_), ?_, hs hsch, fun l ho => ?_, fun l => ?_, ?_⟩
  · obtain ⟨a, ha, hf⟩ := (hq l).mem hit
    rw [hf.lane]
    exact hlane l a ha
  · rw [queuesOk_iff] at hqs ⊢
    intro l
    rw [(hl l).1]
    exact (hqs l).trails (hq l)
  · obtain ⟨ho', hb⟩ := (hl l).2 ho
    obtain ⟨he, hav, hbl⟩ := hoff l ho'
    refine ⟨?_, by rw [hv]; exact hav, hb hbl⟩
    have := hq l
    rw [he] at this
    exact this.nil
  · rw [hv, (hl l).1]
    exact hadv l
  · rw [hv]
    exact hdis

/-- The records and lists after an operation that leaves the records in their places. -/
theorem recordsOk_of_inPlace {s t : State} (h : s.recordsOk) (hi : s.items.InPlace t.items) (hs : t.schedule = s.schedule)
    (hv : t.verdicts = s.verdicts) (hl : ∀ l : LaneId, t.lanes[l].nextTag = s.lanes[l].nextTag ∧
      (t.lanes[l].state = .off → s.lanes[l].state = .off ∧ (s.lanes[l].blanked = false → t.lanes[l].blanked = false))) :
    t.recordsOk :=
  recordsOk_of_trails h (fun l => .of_follow (hi.queues l)) (by rw [hi.rids]) hi.nextRid
    (fun h => hs ▸ h) hv hl

/-! ### Lanes -/

/-- The lanes of two states agree in what the other blocks' bounds read: no lane has begun to run, none has entered OFF,
and the next tags stand. -/
def State.LanesKept (s t : State) : Prop :=
  ∀ l : LaneId, t.lanes[l].nextTag = s.lanes[l].nextTag ∧
    (t.lanes[l].running = true → s.lanes[l].running = true) ∧
    (t.lanes[l].state = .off → s.lanes[l].state = .off ∧ (s.lanes[l].blanked = false → t.lanes[l].blanked = false))

theorem State.LanesKept.refl (s : State) : s.LanesKept s := fun _ => ⟨rfl, id, fun h => ⟨h, id⟩⟩

theorem State.LanesKept.trans {s t u : State} (h : s.LanesKept t) (k : t.LanesKept u) : s.LanesKept u := fun l => by
  obtain ⟨hn, hr, ho⟩ := h l
  obtain ⟨kn, kr, ko⟩ := k l
  exact ⟨kn.trans hn, hr ∘ kr, fun h => ⟨(ho (ko h).1).1, (ko h).2 ∘ (ho (ko h).1).2⟩⟩

theorem State.LanesKept.of_lanes {s t : State} (h : t.lanes = s.lanes) : s.LanesKept t := fun l => by
  rw [h]
  exact State.LanesKept.refl s l

theorem State.LanesKept.of_sameLanes {s t : State} (h : s.sameLanes t) : s.LanesKept t := fun l => by
  have key (x : Lane) : (x.sansNotice.nextTag, x.sansNotice.state, x.sansNotice.blanked) = (x.nextTag, x.state, x.blanked) := rfl
  have hk := (key t.lanes[l]).symm.trans ((by rw [h l]) : _ = _) |>.trans (key s.lanes[l])
  simp only [Prod.mk.injEq] at hk
  obtain ⟨hn, hs, hb⟩ := hk
  exact ⟨hn, by rw [running_iff, running_iff, hs]; exact id, by rw [hs, hb]; exact fun h => ⟨h, id⟩⟩

theorem mapLane_lanesKept (s : State) (l : LaneId) (f : Lane → Lane) (hn : (f s.lanes[l]).nextTag = s.lanes[l].nextTag)
    (hr : (f s.lanes[l]).running = true → s.lanes[l].running = true)
    (ho : (f s.lanes[l]).state = .off →
      s.lanes[l].state = .off ∧ (s.lanes[l].blanked = false → (f s.lanes[l]).blanked = false)) :
    s.LanesKept (s.mapLane l f) := fun m => by
  rw [mapLane_lanes, tset_get]
  by_cases h : l = m
  · subst h
    rw [if_pos rfl]
    exact ⟨hn, hr, ho⟩
  · rw [if_neg h]
    exact State.LanesKept.refl s m

/-! ### How much a moment can still cause (EveryMomentEnds) -/

/-- How many events an event can bring at most, itself counted: a tick of the timers brings at most four expiries, an
expiry its trigger event. What items and lanes bring is counted with them. -/
def Event.weight : Event → Nat
  | .timersTick => 9
  | .expired _ => 2
  | _ => 1

/-- The events of a list by weight. -/
def eventsWeight (es : List Event) : Nat :=
  (es.map Event.weight).sum

/-- The events of an agenda by weight. -/
def agendaWeight (a : List (List Event)) : Nat :=
  eventsWeight a.flatten

/-- The items that have not ended: each brings at most one OUTCOME trigger. -/
def Items.tracked (t : Items) : Nat :=
  (allLanes.map (fun l => t.queues[l].length)).sum + t.passed.length

theorem tracked_le_inUse (t : Items) : t.tracked ≤ t.inUse := by
  show (t.queues[0].length + (t.queues[1].length + (t.queues[2].length + (t.queues[3].length + 0)))) + t.passed.length ≤
    t.queues[0].length + t.queues[1].length + t.queues[2].length + t.queues[3].length + t.done.length + t.passed.length
  omega

/-- The lanes in RUN or DRAIN: each brings at most one LANE_FAULT trigger. -/
def State.runningCount (s : State) : Nat :=
  allLanes.countP (fun l => s.lanes[l].running)

/-- How many events the present moment can still take, at most. -/
def State.load (s : State) : Nat :=
  agendaWeight s.agenda + s.items.tracked + s.runningCount

/-- The windows, and the OPEN items, each of which brings at most one window. -/
def State.windowLoad (s : State) : Nat :=
  (allInputs.map (fun i => s.windows[i].length)).sum + (allLanes.map (fun l => openCount s.items.queues[l])).sum

/-- The schedule entries in use. -/
def Schedule.used (t : Schedule) : Nat :=
  t.positionList.length + t.timeList.length

theorem runningCount_le {s t : State} (h : ∀ l : LaneId, t.lanes[l].running = true → s.lanes[l].running = true) :
    t.runningCount ≤ s.runningCount :=
  List.countP_mono_left (fun l _ => h l)

theorem windowLoad_le {s t : State} (hw : ∀ i : InputId, t.windows[i].length ≤ s.windows[i].length)
    (ho : ∀ l : LaneId, openCount t.items.queues[l] ≤ openCount s.items.queues[l]) : t.windowLoad ≤ s.windowLoad :=
  Nat.add_le_add (List.sum_le_sum (fun i _ => hw i)) (List.sum_le_sum (fun l _ => ho l))

theorem tracked_le {t u : Items} (hq : ∀ l : LaneId, u.queues[l].length ≤ t.queues[l].length)
    (hp : u.passed.length ≤ t.passed.length) : u.tracked ≤ t.tracked :=
  Nat.add_le_add (List.sum_le_sum (fun l _ => hq l)) hp

theorem Items.InPlace.tracked {t u : Items} (h : t.InPlace u) : u.tracked = t.tracked := by
  unfold Items.tracked
  rw [h.passed.length, List.map_congr_left (fun l _ => (h.queues l).length)]

theorem runningCount_congr {s t : State} (h : t.lanes = s.lanes) : t.runningCount = s.runningCount := by
  rw [State.runningCount, State.runningCount, h]

theorem windowLoad_congr {s t : State} (hi : t.items = s.items) (hw : t.windows = s.windows) :
    t.windowLoad = s.windowLoad := by
  rw [State.windowLoad, State.windowLoad, hi, hw]

/-! ### What an operation inside a moment keeps -/

/-- An operation that keeps the registers, the line and the records, and brings to the present moment at most `n` events,
and `w` windows, beyond what its agenda, items and lanes were counted for. -/
structure State.Costs (n w : Nat) (s t : State) : Prop where
  data : s.DataKept t
  notices : s.notices.Ok → t.notices.Ok
  link : s.link.Ok → t.link.Ok
  records : s.recordsOk → t.recordsOk
  load : t.load ≤ s.load + n
  inUse : s.items.inUse ≤ 192 → t.items.inUse ≤ 192
  windows : t.windowLoad ≤ s.windowLoad + w
  entries : s.schedule.used ≤ 64 → t.schedule.used ≤ 64

/-- An operation that brings nothing uncounted. -/
abbrev State.Keeps (s t : State) : Prop :=
  State.Costs 0 0 s t

theorem State.Costs.trans {n w m v : Nat} {s t u : State} (h : s.Costs n w t) (k : t.Costs m v u) :
    s.Costs (n + m) (w + v) u where
  data := h.data.trans k.data
  notices := k.notices ∘ h.notices
  link := k.link ∘ h.link
  records := k.records ∘ h.records
  load := by have := h.load; have := k.load; omega
  inUse := k.inUse ∘ h.inUse
  windows := by have := h.windows; have := k.windows; omega
  entries := k.entries ∘ h.entries

theorem State.Costs.mono {n w m v : Nat} {s t : State} (h : s.Costs n w t) (hn : n ≤ m) (hw : w ≤ v) : s.Costs m v t :=
  { h with load := by have := h.load; omega, windows := by have := h.windows; omega }

theorem State.Costs.keeps {n w : Nat} {s t u : State} (h : s.Costs n w t) (k : t.Keeps u) : s.Costs n w u :=
  h.trans k

theorem State.Keeps.costs {n w : Nat} {s t u : State} (h : s.Keeps t) (k : t.Costs n w u) : s.Costs n w u :=
  (h.trans k).mono (by omega) (by omega)

/-- An operation that changes no block but the pins and the choices. -/
theorem State.Keeps.of_own {s t : State} (hc : OnlyChanges [.pins, .choices] s t) : s.Keeps t where
  data := .of_changes hc.mono
  notices := noticesOk_of_changes hc.mono
  link := linkOk_of_changes hc.mono
  records := recordsOk_of_changes hc.mono
  load := by
    have hi : t.items = s.items := hc .items (by decide)
    have hl : t.lanes = s.lanes := hc .lanes (by decide)
    have ha : t.agenda = s.agenda := hc .agenda (by decide)
    rw [State.load, State.load, runningCount_congr hl, hi, ha, Nat.add_zero]
  inUse := by
    have hi : t.items = s.items := hc .items (by decide)
    rw [hi]; exact id
  windows := by
    have hi : t.items = s.items := hc .items (by decide)
    have hw : t.windows = s.windows := hc .windows (by decide)
    rw [windowLoad_congr hi hw, Nat.add_zero]
  entries := by
    have hs : t.schedule = s.schedule := hc .schedule (by decide)
    rw [hs]; exact id

theorem State.Keeps.refl (s : State) : s.Keeps s := .of_own (.refl _ s)

theorem State.Keeps.trans {s t u : State} (h : s.Keeps t) (k : t.Keeps u) : s.Keeps u :=
  State.Costs.keeps h k

/-- Operations one after the other. -/
theorem State.Keeps.foldl {α : Type} (f : State → α → State) (h : ∀ (s : State) a, s.Keeps (f s a)) :
    ∀ (l : List α) (s : State), s.Keeps (l.foldl f s)
  | [], s => .refl s
  | a :: l, s => (h s a).trans (State.Keeps.foldl f h l (f s a))

/-! ### Operations by which records, entries, windows and holders stay or leave -/

/-- An operation that hands on no event, by which records leave or stay in their places, schedule entries, windows and
holders are no more, and no lane begins to run. -/
structure State.Sheds (s t : State) : Prop where
  changes : OnlyChanges [.items, .notices, .windows, .lanes, .schedule, .outputs, .choices] s t
  rids : List.Subperm t.items.rids s.items.rids := by exact List.Subperm.refl _
  nextRid : t.items.nextRid = s.items.nextRid := by rfl
  tracked : t.items.tracked ≤ s.items.tracked := by exact Nat.le_refl _
  opened : ∀ l : LaneId, openCount t.items.queues[l] ≤ openCount s.items.queues[l] := by exact fun _ => Nat.le_refl _
  notices : s.notices.Ok → t.notices.Ok := by exact id
  windows : ∀ i : InputId, t.windows[i].length ≤ s.windows[i].length := by exact fun _ => Nat.le_refl _
  lanes : s.LanesKept t := by exact State.LanesKept.of_lanes rfl
  schedule : s.schedule.Ok → t.schedule.Ok := by exact id
  entries : t.schedule.used ≤ s.schedule.used := by exact Nat.le_refl _
  outputs : ∀ o : OutputId, s.outputs[o].Ok → t.outputs[o].Ok := by exact fun _ => id

theorem State.Sheds.refl (s : State) : s.Sheds s where
  changes := .refl _ s

theorem State.Sheds.trans {s t u : State} (h : s.Sheds t) (k : t.Sheds u) : s.Sheds u where
  changes := h.changes.trans k.changes
  rids := k.rids.trans h.rids
  nextRid := k.nextRid.trans h.nextRid
  tracked := Nat.le_trans k.tracked h.tracked
  opened l := Nat.le_trans (k.opened l) (h.opened l)
  notices := k.notices ∘ h.notices
  windows i := Nat.le_trans (k.windows i) (h.windows i)
  lanes := h.lanes.trans k.lanes
  schedule := k.schedule ∘ h.schedule
  entries := Nat.le_trans k.entries h.entries
  outputs o := k.outputs o ∘ h.outputs o

theorem State.Sheds.foldl {α : Type} (f : State → α → State) (h : ∀ (s : State) a, s.Sheds (f s a)) :
    ∀ (l : List α) (s : State), s.Sheds (l.foldl f s)
  | [], s => .refl s
  | a :: l, s => (h s a).trans (State.Sheds.foldl f h l (f s a))

theorem State.Sheds.agenda {s t : State} (h : s.Sheds t) : t.agenda = s.agenda :=
  h.changes .agenda (by decide)

theorem State.Sheds.load {s t : State} (h : s.Sheds t) : t.load ≤ s.load := by
  have := h.tracked
  have := runningCount_le (fun l => (h.lanes l).2.1)
  unfold State.load
  rw [h.agenda]
  omega

/-- Where the queues lose their oldest records alone, all is kept. -/
theorem State.Sheds.keeps {s t : State} (h : s.Sheds t)
    (hq : s.recordsOk → ∀ l : LaneId, Trails s.items.queues[l] t.items.queues[l]) : s.Keeps t where
  data := .of_blocks h.changes.mono (fun l => (h.lanes l).2.1) h.outputs (fun k => by
    have ht : t.timers = s.timers := h.changes .timers (by decide)
    rw [ht]; exact id)
  notices := h.notices
  link := linkOk_of_changes h.changes.mono
  records hs :=
    recordsOk_of_trails hs (hq hs) h.rids h.nextRid h.schedule (h.changes .verdicts (by decide))
      (fun l => ⟨(h.lanes l).1, (h.lanes l).2.2⟩)
  load := Nat.le_add_right_of_le h.load
  inUse hs := by
    rw [inUse_eq_length] at hs ⊢
    exact Nat.le_trans h.rids.length_le hs
  windows := Nat.le_add_right_of_le (windowLoad_le h.windows h.opened)
  entries := Nat.le_trans h.entries

/-- An operation on the blocks that leaves the records in their places. -/
theorem State.Sheds.keeps_inPlace {s t : State} (h : s.Sheds t) (hi : s.items.InPlace t.items) : s.Keeps t :=
  h.keeps (fun _ l => .of_follow (hi.queues l))

theorem State.Sheds.of_inPlace {s t : State} (hc : OnlyChanges [.items, .notices, .lanes, .choices] s t)
    (hi : s.items.InPlace t.items) (hl : s.LanesKept t) (hn : s.notices.Ok → t.notices.Ok) : s.Sheds t where
  changes := hc.mono
  rids := by rw [hi.rids]
  nextRid := hi.nextRid
  tracked := Nat.le_of_eq hi.tracked
  opened l := (hi.queues l).openCount_le
  notices := hn
  windows i := by
    have hw : t.windows = s.windows := hc .windows (by decide)
    rw [hw]
  lanes := hl
  schedule := by
    have hs : t.schedule = s.schedule := hc .schedule (by decide)
    rw [hs]; exact id
  entries := by
    have hs : t.schedule = s.schedule := hc .schedule (by decide)
    rw [hs]
  outputs o := by
    have ho : t.outputs = s.outputs := hc .outputs (by decide)
    rw [ho]; exact id

end Sys2Proof.Machine
end

section
/-! SUPPORT. The operations by which records, entries, windows and holders stay or leave, one lemma per operation. -/

namespace Sys2Proof.Machine

/-! ### Flags and admission -/

theorem withFlag_follows (it : Item) (sub : SubKind) (f : NoticeFlag) : it.Follows (it.withFlag sub f) :=
  .of_sansFlags (withFlag_sansFlags it sub f)

theorem admitRef_nextRid {s t : State} {r : NoticeRef} (h : s.admitRef r = some t) :
    t.items.nextRid = s.items.nextRid := by
  unfold State.admitRef at h
  cases r with
  | item rid sub =>
    simp only at h
    split at h
    · cases h; rfl
    · split at h
      · split at h
        · cases h; rfl
        · cases h; rfl
      · cases h
  | lane l =>
    simp only at h
    split at h
    · cases h; rfl
    · cases h

/-- An operation that leaves records in their places, and takes part in no other way than `Sheds` says. -/
structure State.Stays (s t : State) : Prop where
  inPlace : s.items.InPlace t.items
  sheds : s.Sheds t

theorem State.Stays.refl (s : State) : s.Stays s := ⟨.refl _, .refl s⟩

theorem State.Stays.trans {s t u : State} (h : s.Stays t) (k : t.Stays u) : s.Stays u :=
  ⟨h.inPlace.trans k.inPlace, h.sheds.trans k.sheds⟩

theorem State.Stays.keeps {s t : State} (h : s.Stays t) : s.Keeps t :=
  h.sheds.keeps_inPlace h.inPlace

/-- An operation that leaves the Item Table alone. -/
theorem State.Stays.of_items {s t : State} (h : s.Sheds t) (hi : t.items = s.items) : s.Stays t :=
  ⟨by rw [hi]; exact .refl _, h⟩

theorem State.Stays.foldl {α : Type} (f : State → α → State) (h : ∀ (s : State) a, s.Stays (f s a)) :
    ∀ (l : List α) (s : State), s.Stays (l.foldl f s)
  | [], s => .refl s
  | a :: l, s => (h s a).trans (State.Stays.foldl f h l (f s a))

theorem mapRecord_stays (s : State) (rid : Nat) {f : Item → Item} (h : ∀ it : Item, it.Follows (f it)) :
    s.Stays (s.mapRecord rid f) := by
  have hi := mapRecord_inPlace s rid h
  exact ⟨hi, .of_inPlace (mapRecord_changes s rid f).mono hi (.of_lanes rfl) id⟩

theorem setFlag_stays (s : State) (rid : Nat) (sub : SubKind) (f : NoticeFlag) : s.Stays (s.setFlag rid sub f) :=
  mapRecord_stays s rid (fun it => withFlag_follows it sub f)

theorem notices_stays (s : State) {n : Notices} (h : s.notices.Ok → n.Ok) : s.Stays { s with notices := n } :=
  .of_items { changes := (notices_changes s n).mono, notices := h } rfl

theorem addRef_stays (s : State) (r : NoticeRef) : s.Stays (s.addRef r) :=
  notices_stays s id

theorem mapLane_stays {s : State} {l : LaneId} {f : Lane → Lane} (h : s.LanesKept (s.mapLane l f)) :
    s.Stays (s.mapLane l f) :=
  .of_items { changes := (mapLane_changes s l f).mono, lanes := h } rfl

theorem admitRef_stays {s t : State} {r : NoticeRef} (h : s.admitRef r = some t) : s.Stays t := by
  have hi := Items.InPlace.of_sameRecords (admitRef_sameRecords s t r h) (admitRef_nextRid h)
  exact ⟨hi, .of_inPlace (admitRef_changes s t r h).mono hi (.of_sameLanes (admitRef_sameLanes s t r h))
    (admitRef_notices_ok h)⟩

theorem admitUpTo_stays (n : Nat) : ∀ s : State, s.Stays (State.admitUpTo n s) := by
  induction n with
  | zero => intro s; exact .refl s
  | succ n ih =>
    intro s
    unfold State.admitUpTo
    split
    · exact .refl s
    · split
      · exact .refl s
      · rename_i h
        exact (admitRef_stays h).trans (ih _)

theorem admitAll_stays (s : State) : s.Stays s.admitAll :=
  admitUpTo_stays _ s

theorem admitIfRoom_stays (s : State) : s.Stays s.admitIfRoom := by
  unfold State.admitIfRoom
  split
  · exact admitAll_stays s
  · exact .refl s

theorem raiseItem_stays (s : State) (rid : Nat) (sub : SubKind) : s.Stays (s.raiseItem rid sub) :=
  ((setFlag_stays s rid sub .pending).trans (addRef_stays _ _)).trans (admitIfRoom_stays _)

theorem noticeFlag_stays (s : State) (l : LaneId) (b : Bool) :
    s.Stays (s.mapLane l (fun lane => { lane with noticeFlag := b })) :=
  mapLane_stays (.of_sameLanes (mapLane_flag_sameLanes s l b))

theorem raiseLane_stays (s : State) (l : LaneId) : s.Stays (s.raiseLane l) := by
  unfold State.raiseLane
  split
  · exact noticeFlag_stays s l false
  · split
    · exact .refl s
    · exact ((noticeFlag_stays s l true).trans (addRef_stays _ _)).trans (admitIfRoom_stays _)

/-- An operation that changes the Notice Queue alone. -/
theorem State.Stays.of_notices {s t : State} (hc : OnlyChanges [.notices] s t) (hn : s.notices.Ok → t.notices.Ok) :
    s.Stays t := by
  have hi : t.items = s.items := hc .items (by decide)
  exact .of_items (.of_inPlace hc.mono (hi ▸ .refl _) (.of_lanes (hc .lanes (by decide))) hn) hi

theorem produce_stays (s : State) (k : NoticeKind) (c : List Byte) : s.Stays (s.produce k c) :=
  .of_notices (produce_changes s k c) (fun h => produce_notices_ok h k c)

theorem toLaneState_stays (s : State) (l : LaneId) {st : LaneState} (ho : st ≠ .off)
    (hr : (st = .run ∨ st = .drain) → s.lanes[l].running = true) : s.Stays (s.toLaneState l st) :=
  (mapLane_stays (mapLane_lanesKept s l _ rfl (fun h => hr ((running_iff _).mp h)) (fun h => absurd h ho))).trans
    (raiseLane_stays _ l)

/-! ### Hold sets -/

theorem mapOutput_stays {s : State} {o : OutputId} {f : Output → Output} (h : s.outputs[o].Ok → (f s.outputs[o]).Ok) :
    s.Stays (s.mapOutput o f) := by
  refine .of_items { changes := (mapOutput_changes s o f).mono, outputs := fun p hp => ?_ } rfl
  rw [mapOutput_outputs, tset_get]
  by_cases ho : o = p
  · subst ho
    rw [if_pos rfl]
    exact h hp
  · rw [if_neg ho]
    exact hp

theorem Output.Ok.erase {o : Output} (h : o.Ok) (x : Holder) : Output.Ok { o with holders := o.holders.erase x } := by
  obtain ⟨hlen, htest, hgen⟩ := h
  have hsub : (o.holders.erase x).Sublist o.holders := List.erase_sublist
  exact ⟨Nat.le_trans hsub.length_le hlen, Nat.le_trans (hsub.count_le _) htest, hgen⟩

theorem Output.Ok.join {o : Output} (h : o.Ok) (hr : o.hasRoom = true) {x : Holder} (hx : x = .test → o.testHold = false) :
    Output.Ok { o with holders := o.holders ++ [x] } := by
  obtain ⟨hlen, htest, hgen⟩ := h
  have hroom : o.holders.length < 4 := of_decide_eq_true hr
  refine ⟨by rw [List.length_append]; exact hroom, ?_, hgen⟩
  by_cases hxt : x = .test
  · have hnot : o.holders.count .test = 0 :=
      List.count_eq_zero.mpr (by simpa [Output.testHold] using hx hxt)
    rw [List.count_append, hnot, hxt]
    decide
  · rw [List.count_append, List.count_singleton, if_neg (by simpa using hxt)]
    exact htest

theorem release_stays (s : State) (o : OutputId) (h : Holder) : s.Stays (s.release o h) :=
  mapOutput_stays (fun ho => ho.erase h)

theorem addHolder_stays {s : State} {o : OutputId} (hr : s.outputs[o].hasRoom = true) {h : Holder}
    (ht : h = .test → s.outputs[o].testHold = false) : s.Stays (s.addHolder o h) :=
  mapOutput_stays (fun ho => ho.join hr ht)

/-! ### Schedule entries that end -/

theorem releaseEntry_stays (s : State) (e : ScheduleEntry) : s.Stays (s.releaseEntry e) := by
  unfold State.releaseEntry
  split
  · exact release_stays s _ _
  · exact .refl s

theorem Schedule.Ok.filter {t : Schedule} (h : t.Ok) (p : ScheduleEntry → Bool) :
    Schedule.Ok { t with positionList := t.positionList.filter p, timeList := t.timeList.filter p } := by
  obtain ⟨hlen, hpos, htime, hnd, hlt⟩ := h
  have hsub : (t.positionList.filter p ++ t.timeList.filter p).Sublist t.entries :=
    List.filter_sublist.append List.filter_sublist
  refine ⟨?_, fun e he => hpos e (List.mem_of_mem_filter he), fun e he => htime e (List.mem_of_mem_filter he),
    hnd.sublist (hsub.map _), fun e he => hlt e (hsub.subset he)⟩
  exact Nat.le_trans (Nat.add_le_add List.filter_sublist.length_le List.filter_sublist.length_le) hlen

theorem Schedule.used_filter (t : Schedule) (p : ScheduleEntry → Bool) :
    Schedule.used { t with positionList := t.positionList.filter p, timeList := t.timeList.filter p } ≤ t.used :=
  Nat.add_le_add List.filter_sublist.length_le List.filter_sublist.length_le

/-- The schedule loses the entries that fail a test. -/
theorem filterSchedule_stays (s : State) (p : ScheduleEntry → Bool) :
    s.Stays { s with schedule := { s.schedule with
      positionList := s.schedule.positionList.filter p, timeList := s.schedule.timeList.filter p } } :=
  .of_items {
    changes := (schedule_changes s _).mono
    schedule := fun h => h.filter p
    entries := s.schedule.used_filter p } rfl

theorem dropEntry_stays (s : State) (serial : Nat) : s.Stays (s.dropEntry serial) :=
  filterSchedule_stays s _

theorem dropEntries_stays (s : State) (rid : Nat) : s.Stays (s.dropEntries rid) :=
  (State.Stays.foldl _ releaseEntry_stays _ s).trans (filterSchedule_stays _ _)

theorem mapCommitted_follows (it : Item) (f : Committed → Committed) : it.Follows (it.mapCommitted f) :=
  ⟨rfl, rfl, rfl, rfl, id, id⟩

theorem endEntry_stays (s : State) (e : ScheduleEntry) (r : FiringResult) : s.Stays (s.endEntry e r) :=
  ((releaseEntry_stays s e).trans (dropEntry_stays _ _)).trans
    (mapRecord_stays _ _ (fun it => mapCommitted_follows it _))

/-! ### Windows that resolve -/

theorem mapWindows_stays {s : State} {i : InputId} {f : List Window → List Window}
    (h : (f s.windows[i]).length ≤ s.windows[i].length) : s.Stays (s.mapWindows i f) := by
  refine .of_items { changes := (mapWindows_changes s i f).mono, windows := fun j => ?_ } rfl
  rw [mapWindows_windows, tset_get]
  by_cases hj : i = j
  · subst hj
    rw [if_pos rfl]
    exact h
  · rw [if_neg hj]

theorem setPhase_stays (s : State) (i : InputId) (rid : Nat) (p : WindowPhase) : s.Stays (s.setPhase i rid p) :=
  mapWindows_stays (by rw [List.length_map])

theorem dropWindows_window (s : State) (rid : Nat) (i : InputId) :
    (s.dropWindows rid).windows[i] = s.windows[i].filter (fun w => w.rid ≠ rid) :=
  tmap_get _ _ _

theorem dropWindows_stays (s : State) (rid : Nat) : s.Stays (s.dropWindows rid) :=
  .of_items {
    changes := (dropWindows_changes s rid).mono
    windows := fun i => by
      rw [dropWindows_window]
      exact List.filter_sublist.length_le } rfl

/-! ### Records that leave their lists -/

theorem dropRecord_queue (s : State) (rid : Nat) (l : LaneId) :
    (s.dropRecord rid).items.queues[l] = dropRid rid s.items.queues[l] :=
  tmap_get _ _ _

theorem dropRecord_rids (s : State) (rid : Nat) :
    (s.dropRecord rid).items.rids = s.items.rids.filter (· ≠ rid) := by
  have key (xs : List Item) : (dropRid rid xs).map (·.rid) = (xs.map (·.rid)).filter (· ≠ rid) := by
    rw [List.filter_map]; rfl
  have h0 : (s.dropRecord rid).items.queues[0] = dropRid rid s.items.queues[0] := dropRecord_queue s rid 0
  have h1 : (s.dropRecord rid).items.queues[1] = dropRid rid s.items.queues[1] := dropRecord_queue s rid 1
  have h2 : (s.dropRecord rid).items.queues[2] = dropRid rid s.items.queues[2] := dropRecord_queue s rid 2
  have h3 : (s.dropRecord rid).items.queues[3] = dropRid rid s.items.queues[3] := dropRecord_queue s rid 3
  have hd : (s.dropRecord rid).items.done = dropRid rid s.items.done := rfl
  have hp : (s.dropRecord rid).items.passed = dropRid rid s.items.passed := rfl
  simp only [Items.rids, Items.all, h0, h1, h2, h3, hd, hp, List.map_append, key, List.filter_append]

theorem dropRecord_sheds (s : State) (rid : Nat) : s.Sheds (s.dropRecord rid) where
  changes := (dropRecord_changes s rid).mono
  rids := by
    rw [dropRecord_rids]
    exact List.filter_sublist.subperm
  tracked := tracked_le (fun l => by rw [dropRecord_queue]; exact List.filter_sublist.length_le)
    List.filter_sublist.length_le
  opened l := by
    rw [dropRecord_queue]
    exact List.filter_sublist.countP_le

/-- A record that joins the DONE part. -/
def State.addDone (s : State) (it : Item) : State :=
  { s with items := { s.items with done := s.items.done ++ [it] } }

theorem addDone_rids (s : State) (it : Item) : (s.addDone it).items.rids.Perm (it.rid :: s.items.rids) := by
  simp only [Items.rids, Items.all, State.addDone, List.map_append, List.map_cons, List.append_assoc,
    List.cons_append, List.nil_append]
  simp only [← List.append_assoc]
  exact List.perm_middle

theorem becomeDone_eq (s : State) (it : Item) (r : Summary) : s.becomeDone it r =
    if s.notices.settings.outcomeOn then
      (s.addDone { it with state := .done, result := some r }).raiseItem it.rid .outcome
    else { s with notices := s.notices.forget it.rid } :=
  rfl

/-- R20: a record in use leaves its list and becomes DONE. -/
theorem dropRecord_becomeDone_sheds {s : State} {it : Item} (h : it.rid ∈ s.items.rids) (r : Summary) :
    s.Sheds ((s.dropRecord it.rid).becomeDone it r) := by
  have hd := dropRecord_sheds s it.rid
  rw [becomeDone_eq]
  split
  · have hadd : s.Sheds ((s.dropRecord it.rid).addDone { it with state := .done, result := some r }) := {
      hd with
      changes := hd.changes.trans (items_changes _ _).mono
      rids := (addDone_rids _ _).subperm.trans (List.cons_subperm_of_not_mem_of_mem
        (by rw [dropRecord_rids]; simp) h hd.rids) }
    exact hadd.trans (raiseItem_stays _ _ _).sheds
  · exact hd.trans (notices_stays _ (fun h => h.forget it.rid)).sheds

end Sys2Proof.Machine
end

section
/-! SUPPORT. How items end and lanes stop, with the events that are handed on for it: what each operation costs. -/

namespace Sys2Proof.Machine

/-! ### Events handed on -/

theorem eventsWeight_append (xs ys : List Event) : eventsWeight (xs ++ ys) = eventsWeight xs + eventsWeight ys := by
  rw [eventsWeight, List.map_append, List.sum_append, eventsWeight, eventsWeight]

theorem agendaWeight_append (a b : List (List Event)) : agendaWeight (a ++ b) = agendaWeight a + agendaWeight b := by
  rw [agendaWeight, List.flatten_append, eventsWeight_append, agendaWeight, agendaWeight]

theorem appendAgenda_costs (s : State) {more : List (List Event)} (h : ∀ c ∈ more, c ≠ []) :
    s.Costs (agendaWeight more) 0 { s with agenda := s.agenda ++ more } where
  data := {
    position := id
    agenda := ⟨more, rfl, h⟩
    limit := fun _ _ hr => .inr (.inr ⟨hr, id⟩)
    timers := fun _ => id
    reactions := fun _ => id
    inputs := fun _ => id
    outputs := fun _ => id }
  notices := noticesOk_of_changes (agenda_changes s _).mono
  link := linkOk_of_changes (agenda_changes s _).mono
  records := recordsOk_of_changes (agenda_changes s _).mono
  load := by
    have hl : State.load { s with agenda := s.agenda ++ more } =
      agendaWeight (s.agenda ++ more) + s.items.tracked + s.runningCount := rfl
    rw [hl, agendaWeight_append, State.load]
    omega
  inUse := id
  windows := Nat.le_add_right_of_le (Nat.le_of_eq (windowLoad_congr rfl rfl))
  entries := id

theorem push_costs (s : State) (c : List Event) : s.Costs (eventsWeight c) 0 (s.push c) := by
  cases c with
  | nil => exact State.Keeps.refl s
  | cons e es =>
    have h := appendAgenda_costs s (more := [e :: es]) (by simp)
    rwa [agendaWeight, List.flatten_singleton] at h

theorem pushEach_costs (s : State) (es : List Event) : s.Costs (eventsWeight es) 0 (s.pushEach es) := by
  have h := appendAgenda_costs s (more := es.map (fun e => [e])) (by simp)
  have hf : (es.map (fun e => [e])).flatten = es := by
    rw [← List.flatMap_def, List.flatMap_singleton']
  rwa [agendaWeight, hf] at h

/-- What an operation brings has been counted for. -/
theorem State.Costs.paid {n w : Nat} {s t : State} (h : s.Costs n w t) (hl : t.load ≤ s.load) : s.Costs 0 w t :=
  { h with load := hl }

theorem push_load (s : State) (c : List Event) : (s.push c).load ≤ s.load + eventsWeight c :=
  (push_costs s c).load

/-! ### A record that leaves its list -/

theorem addDone_queue (s : State) (it : Item) (l : LaneId) : (s.addDone it).items.queues[l] = s.items.queues[l] := rfl

/-- The queues and the PASSED part of a state in which a record has become DONE. -/
theorem becomeDone_left (s : State) (it : Item) (r : Summary) :
    (∀ l : LaneId, FollowAll s.items.queues[l] (s.becomeDone it r).items.queues[l]) ∧
      FollowAll s.items.passed (s.becomeDone it r).items.passed := by
  rw [becomeDone_eq]
  split
  · have h := (raiseItem_stays (s.addDone { it with state := .done, result := some r }) it.rid .outcome).inPlace
    exact ⟨h.queues, h.passed⟩
  · exact ⟨fun _ => .refl _, .refl _⟩

theorem dropRecord_becomeDone_left (s : State) (rid : Nat) (it : Item) (r : Summary) :
    (∀ l : LaneId, FollowAll (dropRid rid s.items.queues[l]) ((s.dropRecord rid).becomeDone it r).items.queues[l]) ∧
      FollowAll (dropRid rid s.items.passed) ((s.dropRecord rid).becomeDone it r).items.passed := by
  obtain ⟨hq, hp⟩ := becomeDone_left (s.dropRecord rid) it r
  exact ⟨fun l => dropRecord_queue s rid l ▸ hq l, hp⟩

theorem becomeDone_tracked (s : State) (it : Item) (r : Summary) :
    (s.becomeDone it r).items.tracked = s.items.tracked := by
  rw [becomeDone_eq]
  split
  · exact (raiseItem_stays (s.addDone { it with state := .done, result := some r }) it.rid .outcome).inPlace.tracked
  · rfl

theorem dropRid_length_lt {it : Item} {xs : List Item} (h : it ∈ xs) : (dropRid it.rid xs).length < xs.length :=
  List.length_filter_lt_length_iff_exists.mpr ⟨it, h, by simp⟩

theorem dropRid_length_le (rid : Nat) (xs : List Item) : (dropRid rid xs).length ≤ xs.length :=
  List.filter_sublist.length_le

theorem dropRecord_tracked_of_passed {s : State} {it : Item} (h : it ∈ s.items.passed) :
    (s.dropRecord it.rid).items.tracked < s.items.tracked :=
  Nat.add_lt_add_of_le_of_lt (List.sum_le_sum (fun l _ => by rw [dropRecord_queue]; exact dropRid_length_le _ _))
    (dropRid_length_lt h)

theorem dropRecord_tracked_of_queue {s : State} {l : LaneId} {it : Item} (h : it ∈ s.items.queues[l]) :
    (s.dropRecord it.rid).items.tracked < s.items.tracked :=
  Nat.add_lt_add_of_lt_of_le
    (List.sum_lt_sum _ _ (fun m _ => by rw [dropRecord_queue]; exact dropRid_length_le _ _)
      ⟨l, mem_allLanes l, by rw [dropRecord_queue]; exact dropRid_length_lt h⟩)
    (dropRid_length_le _ _)

theorem State.Sheds.load_add {s t : State} (h : s.Sheds t) {k : Nat} (ht : t.items.tracked + k ≤ s.items.tracked) :
    t.load + k ≤ s.load := by
  have := runningCount_le (fun l => (h.lanes l).2.1)
  unfold State.load
  rw [h.agenda]
  omega

/-- R20: an item becomes DONE and its OUTCOME trigger is handed on. -/
theorem ends_keeps {s : State} {it it' : Item} (r : Summary) (hrid : it'.rid = it.rid) (hin : it.rid ∈ s.items.rids)
    (ht : (s.dropRecord it.rid).items.tracked < s.items.tracked)
    (hq : s.recordsOk → ∀ l : LaneId, Trails s.items.queues[l] (dropRid it.rid s.items.queues[l])) :
    s.Keeps (((s.dropRecord it.rid).becomeDone it' r).push [it'.outcomeEvent r]) := by
  have hs : s.Sheds ((s.dropRecord it.rid).becomeDone it' r) := hrid ▸ dropRecord_becomeDone_sheds (hrid ▸ hin) r
  have hk := hs.keeps (fun ok l => (hq ok l).follow ((dropRecord_becomeDone_left s it.rid it' r).1 l))
  have hl : ((s.dropRecord it.rid).becomeDone it' r).load + 1 ≤ s.load :=
    hs.load_add (by rw [becomeDone_tracked]; exact ht)
  exact (hk.costs (push_costs _ _)).paid (Nat.le_trans (push_load _ _) hl)

theorem mem_rids_of_all {t : Items} {it : Item} (h : it ∈ t.all) : it.rid ∈ t.rids :=
  List.mem_map_of_mem h

theorem mem_all_of_passed {t : Items} {it : Item} (h : it ∈ t.passed) : it ∈ t.all :=
  List.mem_append_right _ h

/-- R2: the records of the queues are others than a PASSED one. -/
theorem dropRid_queue_of_passed {t : Items} (ok : t.Ok) {it : Item} (h : it ∈ t.passed) (l : LaneId) :
    dropRid it.rid t.queues[l] = t.queues[l] :=
  dropRid_of_ne _ _ (fun x hx hr => (rid_only_in_queue t l x ok hx).2.2 it h hr.symm)

theorem checkDone_keeps (s : State) (rid : Nat) : s.Keeps (s.checkDone rid) := by
  unfold State.checkDone
  split
  · exact .refl s
  next it hfind =>
    have hmem := List.mem_of_find?_eq_some hfind
    have hrid : it.rid = rid := by simpa using List.find?_some hfind
    split
    · rw [← hrid]
      exact ends_keeps _ rfl (mem_rids_of_all (mem_all_of_passed hmem)) (dropRecord_tracked_of_passed hmem)
        (fun ok l => by rw [dropRid_queue_of_passed ok.1 hmem l]; exact .of_follow (.refl _))
    · exact .refl s

theorem endReported_keeps (s : State) (e : ScheduleEntry) (r : FiringResult) : s.Keeps (s.endReported e r) :=
  (endEntry_stays s e r).keeps.trans (checkDone_keeps _ _)

theorem resolveWindow_keeps (s : State) (i : InputId) (rid : Nat) (r : ConfirmResult) :
    s.Keeps (s.resolveWindow i rid r) :=
  ((mapWindows_stays List.filter_sublist.length_le).trans
    (mapRecord_stays _ _ (fun it => mapCommitted_follows it _))).keeps.trans (checkDone_keeps _ _)

/-! ### The oldest item leaves its queue (R17) -/

theorem dropRid_head {t : Items} (ok : t.Ok) {l : LaneId} {it : Item} {rest : List Item} (hq : t.queues[l] = it :: rest) :
    dropRid it.rid t.queues[l] = rest ∧ ∀ m : LaneId, m ≠ l → dropRid it.rid t.queues[m] = t.queues[m] := by
  have hmem : it ∈ t.queues[l] := by rw [hq]; exact List.mem_cons_self
  refine ⟨?_, fun m hm => dropRid_of_ne _ _ ((rid_only_in_queue t l it ok hmem).1 m hm)⟩
  have hnd : (t.queues[l].map (·.rid)).Nodup := by
    obtain ⟨_, _, hnd, _⟩ := ok
    refine hnd.sublist (List.Sublist.map _ ?_)
    unfold Items.all
    fin_cases l <;> grind
  rw [hq, dropRid, List.filter_cons_of_neg (by simp)]
  rw [hq, List.map_cons, List.nodup_cons] at hnd
  exact List.filter_eq_self.mpr (fun x hx => by
    have : x.rid ≠ it.rid := fun he => hnd.1 (he ▸ List.mem_map_of_mem hx)
    simpa using this)

theorem dropRid_head_trails {s : State} {l : LaneId} {it : Item} {rest : List Item} (hq : s.items.queues[l] = it :: rest)
    (ok : s.recordsOk) (m : LaneId) : Trails s.items.queues[m] (dropRid it.rid s.items.queues[m]) := by
  obtain ⟨hl, hm⟩ := dropRid_head ok.1 hq
  by_cases h : m = l
  · subst h
    rw [hl, hq]
    exact ⟨rest, List.suffix_cons _ _, .refl _⟩
  · rw [hm m h]
    exact .of_follow (.refl _)

/-- A record that joins the PASSED part. -/
def State.addPassed (s : State) (it : Item) : State :=
  { s with items := { s.items with passed := s.items.passed ++ [it] } }

theorem addPassed_rids (s : State) (it : Item) : (s.addPassed it).items.rids.Perm (it.rid :: s.items.rids) := by
  simp only [Items.rids, Items.all, State.addPassed, List.map_append, List.map_cons, List.map_nil]
  simp only [← List.append_assoc]
  exact List.perm_append_singleton _ _

theorem leaveQueue_keeps {s : State} {l : LaneId} {it : Item} {rest : List Item} (hq : s.items.queues[l] = it :: rest) :
    s.Keeps (s.leaveQueue it) := by
  have hmem : it ∈ s.items.queues[l] := by rw [hq]; exact List.mem_cons_self
  have hin := mem_rids_of_all (mem_all_of_queue s.items l it hmem)
  have ht := dropRecord_tracked_of_queue hmem
  cases hw : it.workDone with
  | true =>
    rw [leaveQueue_ends s it hw]
    exact ends_keeps _ rfl hin ht (fun ok m => dropRid_head_trails hq ok m)
  | false =>
    rw [leaveQueue_passes s it hw]
    have hd := dropRecord_sheds s it.rid
    have hs : s.Sheds ((s.dropRecord it.rid).addPassed { { it with covering := false } with state := .passed }) := {
      hd with
      changes := hd.changes.trans (items_changes _ _).mono
      rids := (addPassed_rids _ _).subperm.trans (List.cons_subperm_of_not_mem_of_mem
        (by rw [dropRecord_rids]; simp) hin hd.rids)
      tracked := by
        have hp (u : State) (x : Item) : (u.addPassed x).items.tracked = u.items.tracked + 1 := by
          simp only [Items.tracked, State.addPassed, List.length_append, List.length_singleton]
          omega
        rw [hp]
        exact ht }
    exact hs.keeps (fun ok m => dropRecord_queue s it.rid m ▸ dropRid_head_trails hq ok m)

/-! ### Records taken from all lists (R23, R24) -/

/-- The records of a list but those with one of the serial numbers. -/
def without (rids : List Nat) (xs : List Item) : List Item :=
  xs.filter (fun it => it.rid ∉ rids)

theorem without_singleton (rid : Nat) (xs : List Item) : without [rid] xs = dropRid rid xs := by
  unfold without dropRid
  simp only [List.mem_singleton]

theorem without_append (rs qs : List Nat) (xs : List Item) : without (rs ++ qs) xs = without qs (without rs xs) := by
  unfold without
  rw [List.filter_filter]
  exact List.filter_congr (fun it _ => by simp [Bool.and_comm])

theorem FollowAll.without {xs ys : List Item} (h : FollowAll xs ys) (rids : List Nat) :
    FollowAll (without rids xs) (without rids ys) := by
  induction h with
  | nil => exact .nil
  | @cons x y xs ys hx _ ih =>
    unfold Machine.without at ih ⊢
    rw [List.filter_cons, List.filter_cons, hx.rid]
    split
    · exact .cons hx ih
    · exact ih

/-- The records with these serial numbers have left the queues and the PASSED part, and no others. -/
structure State.Strips (rids : List Nat) (s t : State) : Prop where
  queues : ∀ l : LaneId, FollowAll (without rids s.items.queues[l]) t.items.queues[l]
  passed : FollowAll (without rids s.items.passed) t.items.passed

theorem State.Strips.trans {rs qs : List Nat} {s t u : State} (h : s.Strips rs t) (k : t.Strips qs u) :
    s.Strips (rs ++ qs) u where
  queues l := by
    rw [without_append]
    exact ((h.queues l).without qs).trans (k.queues l)
  passed := by
    rw [without_append]
    exact (h.passed.without qs).trans k.passed

theorem State.Strips.foldl {f : State → Nat → State} (h : ∀ (s : State) rid, s.Strips [rid] (f s rid)) :
    ∀ (rids : List Nat) (s : State), s.Strips rids (rids.foldl f s)
  | [], s => ⟨fun _ => by simpa [without] using FollowAll.refl _, by simpa [without] using FollowAll.refl _⟩
  | rid :: rids, s => (h s rid).trans (State.Strips.foldl h rids (f s rid))

theorem find_none_dropRid {t : Items} {rid : Nat} (h : t.find rid = none) {xs : List Item} (hx : xs ⊆ t.all) :
    dropRid rid xs = xs :=
  dropRid_of_ne rid xs (fun x hm => by simpa using List.find?_eq_none.mp h x (hx hm))

theorem find_rid {t : Items} {rid : Nat} {it : Item} (h : t.find rid = some it) : it.rid = rid ∧ it ∈ t.all :=
  ⟨by simpa using List.find?_some h, List.mem_of_find?_eq_some h⟩

theorem abandoned_rid (it : Item) : it.abandoned.rid = it.rid := rfl

/-- R23: the blocks by which an item lets go of its entries and its window. -/
theorem dropWork_stays (s : State) (rid : Nat) : s.Stays ((s.dropEntries rid).dropWindows rid) :=
  (dropEntries_stays s rid).trans (dropWindows_stays _ rid)

theorem dropWork_items (s : State) (rid : Nat) : ((s.dropEntries rid).dropWindows rid).items = s.items :=
  ((dropEntries_changes s rid).mono.trans (dropWindows_changes _ rid).mono :
    OnlyChanges [.outputs, .schedule, .windows] s _) .items (by decide)

theorem abandonItem_sheds (s : State) (rid : Nat) : s.Sheds (s.abandonItem rid) := by
  unfold State.abandonItem
  split
  · exact .refl s
  next it hfind =>
    obtain ⟨hrid, hall⟩ := find_rid hfind
    refine (dropWork_stays s rid).sheds.trans ?_
    rw [← hrid, ← abandoned_rid it]
    refine dropRecord_becomeDone_sheds ?_ _
    rw [dropWork_items]
    exact mem_rids_of_all (it := it) hall

theorem abandonItem_strips (s : State) (rid : Nat) : s.Strips [rid] (s.abandonItem rid) := by
  unfold State.abandonItem
  split
  next hfind =>
    constructor
    · intro l
      rw [without_singleton, find_none_dropRid hfind (fun x => mem_all_of_queue s.items l x)]
      exact .refl _
    · rw [without_singleton, find_none_dropRid hfind (fun x => mem_all_of_passed)]
      exact .refl _
  next it hfind =>
    have h := dropRecord_becomeDone_left ((s.dropEntries rid).dropWindows rid) rid it.abandoned .abandoned
    rw [dropWork_items] at h
    exact ⟨fun l => by rw [without_singleton]; exact h.1 l, by rw [without_singleton]; exact h.2⟩

theorem discardRecord_sheds (s : State) (rid : Nat) : s.Sheds (s.discardRecord rid) :=
  ((dropWork_stays s rid).sheds.trans (dropRecord_sheds _ rid)).trans (notices_stays _ (fun h => h.discard rid)).sheds

theorem discardRecord_strips (s : State) (rid : Nat) : s.Strips [rid] (s.discardRecord rid) := by
  have hi := dropWork_items s rid
  constructor
  · intro l
    rw [without_singleton]
    have hq := dropRecord_queue ((s.dropEntries rid).dropWindows rid) rid l
    rw [hi] at hq
    exact hq ▸ .refl _
  · rw [without_singleton]
    have hp : ((s.dropEntries rid).dropWindows rid).items.passed = s.items.passed := by rw [hi]
    exact hp ▸ .refl _

/-- R2: records of a lane, and PASSED or DONE ones, leave the other lanes' queues as they are. -/
theorem without_other_queue {t : Items} (ok : t.Ok) {l m : LaneId} (hm : m ≠ l) {xs : List Item}
    (hx : ∀ x ∈ xs, x ∈ t.queues[l] ∨ x ∈ t.done ∨ x ∈ t.passed) :
    without (xs.map (·.rid)) t.queues[m] = t.queues[m] := by
  refine List.filter_eq_self.mpr (fun y hy => decide_eq_true fun hr => ?_)
  obtain ⟨x, hxm, he⟩ := List.mem_map.mp hr
  obtain ⟨hq, hd, hp⟩ := rid_only_in_queue t m y ok hy
  rcases hx x hxm with h | h | h
  · exact hq l (Ne.symm hm) x h he
  · exact hd x h he
  · exact hp x h he

/-- A list of which all records are taken. -/
theorem without_all {xs : List Item} {rids : List Nat} (h : ∀ x ∈ xs, x.rid ∈ rids) : without rids xs = [] :=
  List.filter_eq_nil_iff.mpr (fun x hx => by simpa using h x hx)

/-- R23, R24: the queue of the lane empties, the others stay. -/
theorem State.Strips.trails {s t : State} {l : LaneId} {xs : List Item} (h : s.Strips (xs.map (·.rid)) t)
    (hq : s.items.queues[l] ⊆ xs) (hx : ∀ x ∈ xs, x ∈ s.items.queues[l] ∨ x ∈ s.items.done ∨ x ∈ s.items.passed)
    (ok : s.recordsOk) (m : LaneId) : Trails s.items.queues[m] t.items.queues[m] := by
  have hf := h.queues m
  by_cases hm : m = l
  · subst hm
    rw [without_all (fun x hx => List.mem_map_of_mem (hq hx))] at hf
    exact ⟨[], List.nil_suffix, hf⟩
  · rw [without_other_queue ok.1 hm hx] at hf
    exact .of_follow hf

/-! ### Abandon (R23) -/

theorem abandon_sheds (s : State) (l : LaneId) : s.Sheds (s.abandon l) :=
  State.Sheds.foldl _ abandonItem_sheds _ s

theorem abandon_strips (s : State) (l : LaneId) : s.Strips ((s.toAbandon l).map (·.rid)) (s.abandon l) :=
  State.Strips.foldl abandonItem_strips _ s

theorem mem_toAbandon {s : State} {l : LaneId} {it : Item} :
    it ∈ s.toAbandon l ↔ (it ∈ s.items.passed ∧ it.lane = l) ∨ it ∈ s.items.queues[l] := by
  simp [State.toAbandon]

theorem abandon_keeps (s : State) (l : LaneId) : s.Keeps (s.abandon l) :=
  (abandon_sheds s l).keeps ((abandon_strips s l).trails
    (fun _ h => mem_toAbandon.mpr (.inr h)) (fun _ h => (mem_toAbandon.mp h).elim (fun h => .inr (.inr h.1)) .inl))

/-- R23: no item of the lane is left in its queue. -/
theorem abandon_queue (s : State) (l : LaneId) : (s.abandon l).items.queues[l] = [] := by
  have h := (abandon_strips s l).queues l
  rw [without_all (fun x hx => List.mem_map_of_mem (mem_toAbandon.mpr (.inr hx)))] at h
  exact h.nil_left

theorem length_filter_add_le {α : Type} (p q : α → Bool) (xs : List α) (h : ∀ x ∈ xs, p x = true → q x = false) :
    (xs.filter p).length + (xs.filter q).length ≤ xs.length := by
  induction xs with
  | nil => exact Nat.le_refl _
  | cons x xs ih =>
    have := ih (fun y hy => h y (List.mem_cons_of_mem x hy))
    have hx := h x List.mem_cons_self
    rw [List.filter_cons, List.filter_cons, List.length_cons]
    cases hp : p x with
    | true => rw [hx hp]; simp only [if_true, Bool.false_eq_true, if_false, List.length_cons]; omega
    | false =>
      simp only [Bool.false_eq_true, if_false]
      split
      · rw [List.length_cons]; omega
      · omega

/-- R23: an abandon takes as many items as it names, each once. -/
theorem abandon_tracked (s : State) (l : LaneId) :
    (s.abandon l).items.tracked + (s.toAbandon l).length ≤ s.items.tracked := by
  have h := abandon_strips s l
  have hp : (s.abandon l).items.passed.length + (s.items.passed.filter (fun it => it.lane = l)).length ≤
      s.items.passed.length := by
    rw [h.passed.length]
    refine length_filter_add_le _ _ _ (fun x hx hn => ?_)
    have : x.rid ∉ (s.toAbandon l).map (·.rid) := of_decide_eq_true hn
    exact decide_eq_false (fun hl => this (List.mem_map_of_mem (mem_toAbandon.mpr (.inl ⟨hx, hl⟩))))
  have hq : (allLanes.map (fun m => (s.abandon l).items.queues[m].length)).sum + s.items.queues[l].length ≤
      (allLanes.map (fun m => s.items.queues[m].length)).sum := by
    have hle (m : LaneId) : (s.abandon l).items.queues[m].length + (if m = l then s.items.queues[l].length else 0) ≤
        s.items.queues[m].length := by
      split
      next hm => subst hm; rw [abandon_queue]; simp
      · rw [(h.queues m).length]
        exact List.filter_sublist.length_le
    have hsum := List.sum_le_sum (l := allLanes) (fun m _ => hle m)
    rw [List.sum_map_add] at hsum
    have hone : (allLanes.map (fun m => if m = l then s.items.queues[l].length else 0)).sum = s.items.queues[l].length := by
      fin_cases l <;> simp [allLanes]
    rwa [hone] at hsum
  unfold Items.tracked State.toAbandon
  rw [List.length_append]
  omega

theorem abandonEvents_weight (s : State) (l : LaneId) : eventsWeight (s.abandonEvents l) = (s.toAbandon l).length := by
  have h : (s.abandonEvents l).map Event.weight = (s.toAbandon l).map (fun _ => 1) := by
    rw [State.abandonEvents, List.map_map]; rfl
  rw [eventsWeight, h]
  simp

theorem abandon_load (s : State) (l : LaneId) : (s.abandon l).load + eventsWeight (s.abandonEvents l) ≤ s.load := by
  rw [abandonEvents_weight]
  exact (abandon_sheds s l).load_add (abandon_tracked s l)

/-! ### Discard (R24) -/

theorem discardAll_sheds (s : State) (l : LaneId) : s.Sheds (s.discardAll l) :=
  State.Sheds.foldl _ discardRecord_sheds _ s

theorem discardAll_strips (s : State) (l : LaneId) : s.Strips ((s.items.ofLane l).map (·.rid)) (s.discardAll l) :=
  State.Strips.foldl discardRecord_strips _ s

theorem mem_ofLane {t : Items} {l : LaneId} {it : Item} :
    it ∈ t.ofLane l ↔ it ∈ t.queues[l] ∨ ((it ∈ t.done ∨ it ∈ t.passed) ∧ it.lane = l) := by
  simp [Items.ofLane, Items.retired, or_and_right]

theorem discardAll_keeps (s : State) (l : LaneId) : s.Keeps (s.discardAll l) :=
  (discardAll_sheds s l).keeps ((discardAll_strips s l).trails (fun _ h => mem_ofLane.mpr (.inl h))
    (fun _ h => (mem_ofLane.mp h).imp_right (fun h => h.1)))

theorem discardAll_queue (s : State) (l : LaneId) : (s.discardAll l).items.queues[l] = [] := by
  have h := (discardAll_strips s l).queues l
  rw [without_all (fun x hx => List.mem_map_of_mem (mem_ofLane.mpr (.inl hx)))] at h
  exact h.nil_left

theorem discardLane_keeps (s : State) (l : LaneId) : s.Keeps (s.discardLane l) := by
  unfold State.discardLane
  split
  · exact (discardAll_keeps s l).trans (admitAll_stays _).keeps
  · exact discardAll_keeps s l

theorem discardLane_queue (s : State) (l : LaneId) : (s.discardLane l).items.queues[l] = [] := by
  unfold State.discardLane
  split
  · have h := (admitAll_stays (s.discardAll l)).inPlace.queues l
    rw [discardAll_queue] at h
    exact h.nil_left
  · exact discardAll_queue s l

end Sys2Proof.Machine
end

section
/-! SUPPORT. What the operations of lanes, schedule, windows and verdicts keep inside a moment. -/

namespace Sys2Proof.Machine

/-! ### Lists and lanes -/

/-- An operation on lanes, verdicts and schedule. -/
theorem State.Keeps.of_lists {s t : State} (hc : OnlyChanges [.lanes, .verdicts, .schedule] s t)
    (hr : ∀ l : LaneId, t.lanes[l].running = true → s.lanes[l].running = true)
    (hu : s.schedule.used ≤ 64 → t.schedule.used ≤ 64) (hrec : s.recordsOk → t.recordsOk) : s.Keeps t where
  data := .of_blocks hc.mono hr (fun o => by
    have ho : t.outputs = s.outputs := hc .outputs (by decide)
    rw [ho]; exact id) (fun k => by
    have ht : t.timers = s.timers := hc .timers (by decide)
    rw [ht]; exact id)
  notices := noticesOk_of_changes hc.mono
  link := linkOk_of_changes hc.mono
  records := hrec
  load := by
    have hi : t.items = s.items := hc .items (by decide)
    have ha : t.agenda = s.agenda := hc .agenda (by decide)
    rw [State.load, State.load, hi, ha]
    exact Nat.add_le_add_left (runningCount_le hr) _
  inUse := by
    have hi : t.items = s.items := hc .items (by decide)
    rw [hi]; exact id
  windows := Nat.le_add_right_of_le
    (Nat.le_of_eq (windowLoad_congr (hc .items (by decide)) (hc .windows (by decide))))
  entries := hu

theorem toLaneState_lane (s : State) (l : LaneId) (st : LaneState) :
    (s.toLaneState l st).lanes[l].sansNotice = Lane.sansNotice { s.lanes[l] with state := st } := by
  refine (raiseLane_sameLanes _ l l).trans ?_
  rw [mapLane_lanes, tset_get_self]

theorem sansNotice_state {x y : Lane} (h : x.sansNotice = y.sansNotice) : x.state = y.state :=
  (congrArg Lane.state h : _)

theorem toLaneState_state (s : State) (l : LaneId) (st : LaneState) : (s.toLaneState l st).lanes[l].state = st :=
  sansNotice_state (toLaneState_lane s l st)

theorem emptyAdvance_list (s : State) (l m : LaneId) :
    (s.emptyAdvance l).verdicts.advance[m] = if l = m then [] else s.verdicts.advance[m] :=
  tset_get _ _ _ _

/-- R41: the Advance Verdict lists of the lanes become lists that keep their order. -/
theorem advance_keeps {s t : State} (hc : OnlyChanges [.verdicts] s t)
    (hd : t.verdicts.dispositions = s.verdicts.dispositions)
    (ha : ∀ m : LaneId, t.verdicts.advance[m].Sublist s.verdicts.advance[m]) : s.Keeps t := by
  have hi : t.items = s.items := hc .items (by decide)
  have hl : t.lanes = s.lanes := hc .lanes (by decide)
  have hs : t.schedule = s.schedule := hc .schedule (by decide)
  refine .of_lists hc.mono (fun l h => hl ▸ h) (by rw [hs]; exact id) (fun ok => ?_)
  obtain ⟨hitems, hqs, hsch, hoff, hadv, hdis⟩ := ok
  refine ⟨hi ▸ hitems, ?_, hs ▸ hsch, fun l ho => ?_, fun l => ?_, fun i => ?_⟩
  · unfold State.queuesOk
    rw [hi, hl]
    exact hqs
  · rw [hl] at ho ⊢
    obtain ⟨he, hav, hb⟩ := hoff l ho
    exact ⟨by rw [hi]; exact he, List.sublist_nil.mp (hav ▸ ha l), hb⟩
  · rw [hl]
    exact ⟨(hadv l).1.sublist (ha l), fun e he => (hadv l).2 e ((ha l).subset he)⟩
  · rw [hd]
    exact hdis i

theorem emptyAdvance_keeps (s : State) (l : LaneId) : s.Keeps (s.emptyAdvance l) :=
  advance_keeps (emptyAdvance_changes s l) rfl (fun m => by
    rw [emptyAdvance_list]
    split
    · exact List.nil_sublist _
    · exact List.Sublist.refl _)

/-- R108: a lane whose lists are empty enters OFF. -/
theorem offState_keeps {s : State} {l : LaneId} (hq : s.items.queues[l] = []) (ha : s.verdicts.advance[l] = [])
    (hb : s.lanes[l].blanked = false) : s.Keeps (s.toLaneState l .off) := by
  refine State.Keeps.trans (.of_lists (mapLane_changes s l _).mono (fun m hm => ?_) id (fun ok => ?_))
    (raiseLane_stays _ l).keeps
  · rw [mapLane_lanes, tset_get] at hm
    split at hm
    · cases hm
    · exact hm
  · obtain ⟨hitems, hqs, hsch, hoff, hadv, hdis⟩ := ok
    have hnext (m : LaneId) :
        (s.mapLane l (fun lane => { lane with state := .off })).lanes[m].nextTag = s.lanes[m].nextTag := by
      rw [mapLane_lanes, tset_get]
      split
      next h => subst h; rfl
      · rfl
    refine ⟨hitems, fun m => ?_, hsch, fun m ho => ?_, fun m => ?_, hdis⟩
    · rw [hnext]
      exact hqs m
    · rw [mapLane_lanes, tset_get] at ho ⊢
      split at ho
      next h =>
        subst h
        rw [if_pos rfl]
        exact ⟨hq, ha, hb⟩
      next h =>
        rw [if_neg h]
        exact hoff m ho
    · rw [hnext]
      exact hadv m

theorem unblank_stays (s : State) (l : LaneId) : s.Stays (s.mapLane l (fun lane => { lane with blanked := false })) :=
  mapLane_stays (mapLane_lanesKept s l _ rfl id (fun h => ⟨h, fun _ => rfl⟩))

theorem enterOff_keeps {s : State} {l : LaneId} (h : s.items.queues[l] = []) : s.Keeps (s.enterOff l) := by
  have hk := (emptyAdvance_keeps s l).trans (unblank_stays (s.emptyAdvance l) l).keeps
  unfold State.enterOff
  simp only
  split
  · exact hk
  · refine hk.trans (offState_keeps h ?_ ?_)
    · exact (emptyAdvance_list s l l).trans (if_pos rfl)
    · rw [mapLane_lanes, tset_get_self]

theorem reportCount_keeps (s : State) (l : LaneId) : s.Keeps (s.reportCount l) := by
  unfold State.reportCount
  split
  next h => exact enterOff_keeps (List.length_eq_zero_iff.mp h.2)
  · exact .refl s

theorem exitPoint_keeps (s : State) (l : LaneId) (rid : Nat) : s.Keeps (s.exitPoint l rid) := by
  unfold State.exitPoint
  split
  · exact .refl s
  next it rest hq =>
    split
    · exact (leaveQueue_keeps hq).trans (reportCount_keeps _ l)
    · exact .refl s

/-! ### Causes (R111, R112) -/

theorem countUntracked_stays (s : State) (l : LaneId) : s.Stays (s.countUntracked l) :=
  mapLane_stays (mapLane_lanesKept s l _ rfl id (fun h => ⟨h, id⟩))

theorem abandons_costs (s : State) (l : LaneId) (more : List Event) :
    s.Costs (eventsWeight more) 0 ((s.abandon l).push (s.abandonEvents l ++ more)) :=
  { (abandon_keeps s l).costs (push_costs _ _) with
    load := by
      have := push_load (s.abandon l) (s.abandonEvents l ++ more)
      rw [eventsWeight_append] at this
      have := abandon_load s l
      omega }

theorem runningCount_lt {s t : State} (h : ∀ l : LaneId, t.lanes[l].running = true → s.lanes[l].running = true)
    {l : LaneId} (hs : s.lanes[l].running = true) (ht : t.lanes[l].running = false) :
    t.runningCount < s.runningCount := by
  unfold State.runningCount
  rw [List.countP_eq_length_filter, List.countP_eq_length_filter]
  have hsub : (allLanes.filter (fun m => t.lanes[m].running)) =
      (allLanes.filter (fun m => s.lanes[m].running)).filter (fun m => t.lanes[m].running) := by
    rw [List.filter_filter]
    refine List.filter_congr (fun m _ => ?_)
    have := h m
    cases hm : t.lanes[m].running with
    | true => rw [this hm]; rfl
    | false => rfl
  rw [hsub]
  exact List.length_filter_lt_length_iff_exists.mpr
    ⟨l, List.mem_filter.mpr ⟨mem_allLanes l, hs⟩, by rw [ht]; exact Bool.false_ne_true⟩

/-- R111: the lane of a state that has just taken a cause. -/
def State.struck (s : State) (l : LaneId) (c : Cause) : State :=
  (s.mapLane l (fun lane =>
    { lane with causes := CauseSet.empty.add c, first := some c,
                struck := some { full := s.lanes[l].state = .run && s.noRoom l, stepped := false } })).toLaneState l .fault

theorem enterFault_eq (s : State) (l : LaneId) (c : Cause) : s.enterFault l c =
    if c.abandons then ((s.struck l c).abandon l).push ((s.struck l c).abandonEvents l ++ [.trigger (.laneFault l)])
    else (s.struck l c).push [.trigger (.laneFault l)] :=
  rfl

theorem struck_stays (s : State) (l : LaneId) (c : Cause) : s.Stays (s.struck l c) :=
  (mapLane_stays (mapLane_lanesKept s l _ rfl id (fun h => ⟨h, id⟩))).trans
    (toLaneState_stays _ l (by decide) (by simp))

theorem struck_state (s : State) (l : LaneId) (c : Cause) : (s.struck l c).lanes[l].state = .fault :=
  toLaneState_state _ l .fault

theorem running_of_fault {x : Lane} (h : x.state = .fault) : x.running = false := by
  rw [Lane.running, h]; rfl

theorem enterFault_keeps {s : State} {l : LaneId} (h : s.lanes[l].running = true) (c : Cause) :
    s.Keeps (s.enterFault l c) := by
  have hs := struck_stays s l c
  have hrun := runningCount_lt (fun m => (hs.sheds.lanes m).2.1) h (running_of_fault (struck_state s l c))
  have hl : (s.struck l c).load + 1 ≤ s.load := by
    have := hs.inPlace.tracked
    unfold State.load
    rw [hs.sheds.agenda]
    omega
  rw [enterFault_eq]
  split
  · have hc := abandons_costs (s.struck l c) l [.trigger (.laneFault l)]
    exact (hs.keeps.costs hc).paid (Nat.le_trans hc.load hl)
  · have hc := push_costs (s.struck l c) [.trigger (.laneFault l)]
    exact (hs.keeps.costs hc).paid (Nat.le_trans hc.load hl)

/-- R112: the lane of a state in FAULT with a cause in its set. -/
def State.withCause (s : State) (l : LaneId) (c : Cause) : State :=
  if s.lanes[l].causes.has c then s
  else (s.mapLane l (fun lane => { lane with causes := lane.causes.add c })).raiseLane l

theorem joinCause_eq (s : State) (l : LaneId) (c : Cause) : s.joinCause l c =
    if c.abandons then ((s.withCause l c).abandon l).push ((s.withCause l c).abandonEvents l) else s.withCause l c :=
  rfl

theorem withCause_stays (s : State) (l : LaneId) (c : Cause) : s.Stays (s.withCause l c) := by
  unfold State.withCause
  split
  · exact .refl s
  · exact (mapLane_stays (mapLane_lanesKept s l _ rfl id (fun h => ⟨h, id⟩))).trans (raiseLane_stays _ l)

theorem joinCause_keeps (s : State) (l : LaneId) (c : Cause) : s.Keeps (s.joinCause l c) := by
  have hw := (withCause_stays s l c).keeps
  rw [joinCause_eq]
  split
  · have hc := abandons_costs (s.withCause l c) l []
    rw [List.append_nil] at hc
    exact hw.trans hc
  · exact hw

theorem takeCause_keeps (s : State) (l : LaneId) (c : Cause) : s.Keeps (s.takeCause l c) := by
  unfold State.takeCause
  split
  · exact .refl s
  next h => exact enterFault_keeps ((running_iff _).mpr (.inl h)) c
  next h => exact enterFault_keeps ((running_iff _).mpr (.inr h)) c
  · exact joinCause_keeps s l c

theorem push_lane (s : State) (c : List Event) (l : LaneId) : (s.push c).lanes[l] = s.lanes[l] := by
  have h : (s.push c).lanes = s.lanes := push_changes s c .lanes (by decide)
  rw [h]

/-- R109: a lane that has taken a cause is in RUN or DRAIN no more. -/
theorem takeCause_stops (s : State) (l : LaneId) (c : Cause) : (s.takeCause l c).lanes[l].running = false := by
  have habandon {t : State} (ht : t.lanes[l].running = false) : (t.abandon l).lanes[l].running = false :=
    Bool.eq_false_iff.mpr (fun h => Bool.false_ne_true (ht ▸ ((abandon_sheds t l).lanes l).2.1 h))
  have hfault : (s.enterFault l c).lanes[l].running = false := by
    have hf := running_of_fault (struck_state s l c)
    rw [enterFault_eq]
    split
    · rw [push_lane]; exact habandon hf
    · rw [push_lane]; exact hf
  unfold State.takeCause
  split
  next h => rw [Lane.running, h]; rfl
  · exact hfault
  · exact hfault
  next h =>
    have hw : (s.withCause l c).lanes[l].running = false :=
      Bool.eq_false_iff.mpr (fun hr =>
        Bool.false_ne_true (running_of_fault h ▸ ((withCause_stays s l c).sheds.lanes l).2.1 hr))
    rw [joinCause_eq]
    split
    · rw [push_lane]; exact habandon hw
    · exact hw

theorem choose_keeps (s : State) (n : Nat) : s.Keeps (s.choose n).2 :=
  .of_own (choose_changes s n).mono

theorem overrunSecond_keeps (s : State) (l : LaneId) : s.Keeps (s.overrunSecond l) := by
  unfold State.overrunSecond
  split
  · simp only
    split
    · exact (choose_keeps s 2).trans (joinCause_keeps _ l _)
    · exact choose_keeps s 2
  · exact .refl s

theorem laneHold_keeps (s : State) (l : LaneId) : s.Keeps (s.laneHold l) := by
  unfold State.laneHold
  split
  · exact takeCause_keeps s l _
  · exact .refl s

theorem jamPoint_keeps (s : State) (l : LaneId) (rid : Nat) : s.Keeps (s.jamPoint l rid) := by
  unfold State.jamPoint
  split
  · exact .refl s
  · split
    · exact (mapRecord_stays s rid (f := fun it => { it with overlength := true })
        (fun it => ⟨rfl, rfl, rfl, rfl, id, id⟩)).keeps.trans (takeCause_keeps _ l _)
    · exact .refl s

/-! ### The schedule -/

theorem insertEntry_perm (e : ScheduleEntry) (list : List ScheduleEntry) : (insertEntry e list).Perm (e :: list) := by
  obtain ⟨b, a, hl, hi, _⟩ := insertEntry_split e list
  rw [hi, hl]
  exact List.perm_middle

/-- The schedule with an entry filed (R53, R54). -/
def Schedule.file (t : Schedule) (e : ScheduleEntry) : Schedule :=
  match e.phase with
  | .onTime _ => { t with timeList := insertEntry e t.timeList }
  | _ => { t with positionList := insertEntry e t.positionList }

theorem fileEntry_schedule (s : State) (e : ScheduleEntry) : s.fileEntry e = { s with schedule := s.schedule.file e } := by
  unfold State.fileEntry Schedule.file
  split <;> rename_i h <;> rw [h]

theorem Schedule.file_perm (t : Schedule) (e : ScheduleEntry) : (t.file e).entries.Perm (e :: t.entries) := by
  unfold Schedule.file Schedule.entries
  split
  · exact ((insertEntry_perm e _).append_left _).trans List.perm_middle
  · exact (insertEntry_perm e _).append_right _

theorem Schedule.used_eq (t : Schedule) : t.used = t.entries.length :=
  List.length_append.symm

theorem Schedule.file_used (t : Schedule) (e : ScheduleEntry) : (t.file e).used = t.used + 1 := by
  rw [Schedule.used_eq, (t.file_perm e).length_eq, Schedule.used_eq, List.length_cons]

theorem Schedule.file_nextSerial (t : Schedule) (e : ScheduleEntry) : (t.file e).nextSerial = t.nextSerial := by
  unfold Schedule.file
  split <;> rfl

/-- R53, R54: an entry of a new serial number is filed where there is a free one. -/
theorem Schedule.Ok.file {t : Schedule} (h : t.Ok) {e : ScheduleEntry} (hu : t.used < 64)
    (hs : e.serial ∉ t.entries.map (·.serial)) (hn : e.serial < t.nextSerial) : (t.file e).Ok := by
  obtain ⟨_, hpos, htime, hnd, hlt⟩ := h
  have hperm := t.file_perm e
  refine ⟨?_, ?_, ?_, ?_, fun x hx => ?_⟩
  · exact Nat.le_trans (Nat.le_of_eq (t.file_used e)) hu
  · unfold Schedule.file
    split
    · exact hpos
    next hph =>
      intro x hx off
      rcases List.mem_cons.mp ((insertEntry_perm e _).subset hx) with rfl | hx
      · exact fun he => hph off he
      · exact hpos x hx off
  · unfold Schedule.file
    split
    next off hph =>
      intro x hx
      rcases List.mem_cons.mp ((insertEntry_perm e _).subset hx) with rfl | hx
      · exact ⟨off, hph⟩
      · exact htime x hx
    · exact htime
  · exact ((hperm.map _).nodup_iff).mpr (List.nodup_cons.mpr ⟨hs, hnd⟩)
  · rw [Schedule.file_nextSerial]
    rcases List.mem_cons.mp (hperm.subset hx) with rfl | hx
    · exact hn
    · exact hlt x hx

/-- An operation on the schedule alone. -/
theorem State.Keeps.of_schedule {s t : State} (hc : OnlyChanges [.schedule] s t)
    (hu : s.schedule.used ≤ 64 → t.schedule.used ≤ 64) (hok : s.schedule.Ok → t.schedule.Ok) : s.Keeps t := by
  have hl : t.lanes = s.lanes := hc .lanes (by decide)
  refine .of_lists hc.mono (fun l h => hl ▸ h) hu (fun ok => ?_)
  exact recordsOk_of_trails ok
    (fun l => by rw [hc .items (by decide)]; exact .of_follow (.refl _))
    (by rw [hc .items (by decide)]) (by rw [hc .items (by decide)]) hok (hc .verdicts (by decide))
    (fun l => by rw [hl]; exact ⟨rfl, fun h => ⟨h, id⟩⟩)

/-- R58: an entry in use is filed again. -/
theorem refile_keeps {s : State} {e : ScheduleEntry} (he : e ∈ s.schedule.entries) (p : Phase) :
    s.Keeps ((s.dropEntry e.serial).fileEntry { e with phase := p }) := by
  rw [fileEntry_schedule]
  have hdrop : (s.dropEntry e.serial).schedule.entries = s.schedule.entries.filter (fun x => x.serial ≠ e.serial) :=
    (List.filter_append _ _).symm
  have hlt : (s.dropEntry e.serial).schedule.used < s.schedule.used := by
    rw [Schedule.used_eq, Schedule.used_eq, hdrop]
    exact List.length_filter_lt_length_iff_exists.mpr ⟨e, he, by simp⟩
  have hused : ((s.dropEntry e.serial).schedule.file { e with phase := p }).used ≤ s.schedule.used := by
    rw [Schedule.file_used]
    exact hlt
  refine .of_schedule (schedule_changes s _) (Nat.le_trans hused) (fun ok => ?_)
  have hlen : s.schedule.used ≤ 64 := ok.1
  refine (ok.filter _).file (Nat.lt_of_lt_of_le hlt hlen) ?_ (ok.2.2.2.2 e he)
  intro hm
  obtain ⟨x, hx, hxe⟩ := List.mem_map.mp hm
  have hx' : x ∈ s.schedule.entries.filter (fun x => x.serial ≠ e.serial) := hdrop ▸ hx
  exact absurd hxe (by simpa using (List.mem_filter.mp hx').2)

theorem goOn_keeps {s : State} {e : ScheduleEntry} (he : e ∈ s.schedule.entries)
    (hr : s.outputs[e.output].hasRoom = true) : s.Keeps (s.goOn e) :=
  (addHolder_stays hr (by simp)).keeps.trans (refile_keeps (s := s.addHolder e.output (.firing e.owner)) he _)

theorem takeOn_keeps {s : State} {e : ScheduleEntry} (he : e ∈ s.schedule.entries) : s.Keeps (s.takeOn e) := by
  unfold State.takeOn
  split
  · exact (endEntry_stays s e _).keeps
  · split
    next h => exact goOn_keeps he h
    · exact (endEntry_stays s e _).keeps

theorem takePoint_keeps {s : State} {e : ScheduleEntry} (he : e ∈ s.schedule.entries) : s.Keeps (s.takePoint e) := by
  unfold State.takePoint
  split
  · exact takeOn_keeps he
  · exact endReported_keeps s e _
  · exact .refl s

theorem schedulePoint_keeps (s : State) (serial : Nat) : s.Keeps (s.schedulePoint serial) := by
  unfold State.schedulePoint
  split
  · exact .refl s
  next e he =>
    split
    · exact takePoint_keeps (List.mem_append_left _ (List.mem_of_find?_eq_some he))
    · exact .refl s

theorem offTime_keeps (s : State) (serial : Nat) : s.Keeps (s.offTime serial) := by
  unfold State.offTime
  split
  · exact .refl s
  · split
    · exact endReported_keeps s _ _
    · exact .refl s

theorem cutEntry_keeps (s : State) (serial : Nat) : s.Keeps (s.cutEntry serial) := by
  unfold State.cutEntry
  split
  · exact .refl s
  · split
    · exact endReported_keeps s _ _
    · exact .refl s

/-! ### Windows and confirmation edges -/

theorem openWindow_keeps (s : State) (i : InputId) (rid : Nat) : s.Keeps (s.openWindow i rid) := by
  unfold State.openWindow
  split
  · exact .refl s
  · split
    · exact (setPhase_stays s i rid _).keeps
    · exact .refl s

theorem closeWindow_keeps (s : State) (i : InputId) (rid : Nat) : s.Keeps (s.closeWindow i rid) := by
  unfold State.closeWindow
  split
  · exact .refl s
  · split
    · split
      · exact (setPhase_stays s i rid _).keeps
      · exact resolveWindow_keeps s i rid _
    · exact .refl s

theorem confirmEdge_keeps (s : State) (i : InputId) (c : Capture) : s.Keeps (s.confirmEdge i c) := by
  unfold State.confirmEdge
  split
  · unfold State.stray
    split
    · exact (produce_stays s _ _).keeps
    · exact .refl s
  · exact resolveWindow_keeps s i _ _

theorem resolveHolding_keeps (n : Nat) (i : InputId) : ∀ s : State, s.Keeps (State.resolveHolding n i s) := by
  induction n with
  | zero => intro s; exact .refl s
  | succ n ih =>
    intro s
    unfold State.resolveHolding
    simp only
    split
    · exact .refl s
    · exact ((choose_keeps s _).trans (resolveWindow_keeps _ i _ _)).trans (ih _)

theorem endRun_keeps (s : State) (i : InputId) (edge : Option Capture) : s.Keeps (s.endRun i edge) := by
  unfold State.endRun
  cases edge with
  | none => exact resolveHolding_keeps _ i s
  | some c => exact (confirmEdge_keeps s i c).trans (resolveHolding_keeps _ i _)

end Sys2Proof.Machine
end

section
/-! SUPPORT. What a commit, a new item and the edges of the inputs keep inside a moment. -/

namespace Sys2Proof.Machine

/-! ### Commit (R45 to R47) -/

theorem Schedule.Ok.serialUp {t : Schedule} (h : t.Ok) : Schedule.Ok { t with nextSerial := t.nextSerial + 1 } := by
  obtain ⟨hlen, hpos, htime, hnd, hlt⟩ := h
  exact ⟨hlen, hpos, htime, hnd, fun e he => Nat.lt_succ_of_lt (hlt e he)⟩

theorem createEntry_used (s : State) (it : Item) (k : Fin 4) (f : CommittedFiring) :
    (s.createEntry it k f).schedule.used = s.schedule.used + 1 := by
  unfold State.createEntry
  rw [fileEntry_schedule]
  exact Schedule.file_used _ _

theorem createEntry_ok {s : State} (h : s.schedule.Ok) (hu : s.schedule.used < 64) (it : Item) (k : Fin 4)
    (f : CommittedFiring) : (s.createEntry it k f).schedule.Ok := by
  unfold State.createEntry
  rw [fileEntry_schedule]
  refine h.serialUp.file hu (fun hm => ?_) (Nat.lt_succ_self _)
  obtain ⟨x, hx, he⟩ := List.mem_map.mp hm
  exact absurd he (Nat.ne_of_lt (h.2.2.2.2 x hx))

theorem createEntry_foldl (it : Item) : ∀ (ps : List (CommittedFiring × Fin 4)) (s : State),
    (ps.foldl (fun s p => s.createEntry it p.2 p.1) s).schedule.used = s.schedule.used + ps.length ∧
      (s.schedule.Ok → s.schedule.used + ps.length ≤ 64 →
        (ps.foldl (fun s p => s.createEntry it p.2 p.1) s).schedule.Ok)
  | [], s => ⟨rfl, fun h _ => h⟩
  | p :: ps, s => by
    obtain ⟨hu, hok⟩ := createEntry_foldl it ps (s.createEntry it p.2 p.1)
    rw [createEntry_used] at hu hok
    rw [List.foldl_cons, List.length_cons]
    exact ⟨by omega, fun h hl => hok (createEntry_ok h (by omega) it p.2 p.1) (by omega)⟩

theorem createEntries_keeps {s : State} (it : Item) {fs : List CommittedFiring} (h : fs.length ≤ s.schedule.free) :
    s.Keeps (s.createEntries it fs) := by
  obtain ⟨hu, hok⟩ := createEntry_foldl it (fs.zip [0, 1, 2, 3]) s
  have hlen : (fs.zip [0, 1, 2, 3] : List (CommittedFiring × Fin 4)).length ≤ fs.length := by
    rw [List.length_zip]
    exact Nat.min_le_left _ _
  have hroom (hs : s.schedule.used ≤ 64) : s.schedule.used + (fs.zip [0, 1, 2, 3] : List (CommittedFiring × Fin 4)).length ≤ 64 := by
    unfold Schedule.free Config.scheduleSize at h
    unfold Schedule.used at hs ⊢
    omega
  exact .of_schedule (createEntries_changes s it fs) (fun hs => Nat.le_trans (Nat.le_of_eq hu) (hroom hs))
    (fun ok => hok ok (hroom ok.1))

theorem insertWindow_length (w : Window) (ws : List Window) : (insertWindow w ws).length = ws.length + 1 := by
  obtain ⟨b, a, hl, hi, _⟩ := insertWindow_split w ws
  rw [hi, hl, List.length_append, List.length_append, List.length_cons]
  omega

/-- A window that joins a list. -/
theorem addWindow_costs (s : State) (i : InputId) (w : Window) : s.Costs 0 1 (s.mapWindows i (insertWindow w)) where
  data := .of_changes (mapWindows_changes s i _).mono
  notices := noticesOk_of_changes (mapWindows_changes s i _).mono
  link := linkOk_of_changes (mapWindows_changes s i _).mono
  records := recordsOk_of_changes (mapWindows_changes s i _).mono
  load := Nat.le_refl _
  inUse := id
  windows := by
    have hle (j : InputId) : (s.mapWindows i (insertWindow w)).windows[j].length ≤
        s.windows[j].length + (if j = i then 1 else 0) := by
      rw [mapWindows_windows, tset_get]
      split
      next h => rw [insertWindow_length, h, if_pos rfl]
      · exact Nat.le_add_right _ _
    have hsum := List.sum_le_sum (l := allInputs) (fun j _ => hle j)
    have hone : ∀ i : InputId, (allInputs.map (fun j => if j = i then 1 else 0)).sum = 1 := by decide
    rw [List.sum_map_add, hone] at hsum
    unfold State.windowLoad
    rw [mapWindows_items]
    omega
  entries := id

theorem createWindow_costs (s : State) (it : Item) (c : Option CommittedConfirm) : s.Costs 0 1 (s.createWindow it c) := by
  unfold State.createWindow
  split
  · exact (State.Keeps.refl s).mono (Nat.le_refl _) (Nat.zero_le _)
  · exact addWindow_costs s _ _

theorem openCount_mapRid_lt {it : Item} {f : Item → Item} (hf : ∀ x : Item, x.Follows (f x))
    (hfo : ∀ x : Item, (f x).state ≠ .opened) (ho : it.state = .opened) {xs : List Item} (h : it ∈ xs) :
    openCount (mapRid it.rid f xs) < openCount xs := by
  induction xs with
  | nil => cases h
  | cons x xs ih =>
    have hle : openCount (mapRid it.rid f xs) ≤ openCount xs := (mapRid_follows hf xs).openCount_le
    unfold openCount mapRid at ih hle ⊢
    rw [List.map_cons, List.countP_cons, List.countP_cons]
    rcases List.mem_cons.mp h with rfl | hx
    · rw [if_pos rfl]
      simp only [hfo, ho, decide_false, decide_true, Bool.false_eq_true, if_false, if_true]
      omega
    · have := ih hx
      have hstep : (if decide ((if x.rid = it.rid then f x else x).state = .opened) = true then 1 else 0) ≤
          if decide (x.state = .opened) = true then 1 else 0 := by
        split <;> split <;> simp_all
      omega

/-- R45: the OPEN item that is committed brings its window. -/
theorem mapRecord_windowLoad_lt {s : State} {l : LaneId} {it : Item} {f : Item → Item} (hf : ∀ x : Item, x.Follows (f x))
    (hfo : ∀ x : Item, (f x).state ≠ .opened) (ho : it.state = .opened) (hq : it ∈ s.items.queues[l]) :
    (s.mapRecord it.rid f).windowLoad < s.windowLoad := by
  have hqueue (m : LaneId) : (s.mapRecord it.rid f).items.queues[m] = mapRid it.rid f s.items.queues[m] := tmap_get _ _ _
  refine Nat.add_lt_add_of_le_of_lt (Nat.le_refl _) (List.sum_lt_sum _ _ (fun m _ => ?_) ⟨l, mem_allLanes l, ?_⟩)
  · rw [hqueue]
    exact (mapRid_follows hf _).openCount_le
  · rw [hqueue]
    exact openCount_mapRid_lt hf hfo ho hq

/-- R45: an OPEN item becomes COMMITTED, its window in its list. -/
theorem commitRecord_keeps {s u : State} (h : s.Costs 0 1 u) (hi : u.items = s.items) {l : LaneId} {it : Item}
    (hq : it ∈ s.items.queues[l]) (ho : it.state = .opened) (c : Committed) :
    s.Keeps (u.mapRecord it.rid (fun x => { x with state := .committed, committed := some c })) := by
  have hf (x : Item) : x.Follows { x with state := .committed, committed := some c } :=
    ⟨rfl, rfl, rfl, rfl, id, nofun⟩
  refine { h.keeps (mapRecord_stays u it.rid hf).keeps with windows := ?_ }
  have hlt := mapRecord_windowLoad_lt (s := u) (l := l) hf (fun _ => nofun) ho (hi ▸ hq)
  have hle := h.windows
  omega

theorem created_items (s : State) (it : Item) (fs : List CommittedFiring) (c : Option CommittedConfirm) :
    ((s.createEntries it fs).createWindow it c).items = s.items :=
  (createWindow_changes _ it c .items (by decide)).trans (createEntries_changes s it fs .items (by decide))

theorem commitDecision_keeps {s : State} {l : LaneId} {it : Item} (hq : it ∈ s.items.queues[l])
    (ho : it.state = .opened) (d : Decision) : s.Keeps (s.commitDecision it d) := by
  unfold State.commitDecision
  simp only
  split
  next hroom =>
    have hu := (createEntries_keeps it hroom).costs
      (createWindow_costs (s.createEntries it _) it (d.confirm.map ConfirmSpec.commit))
    exact (commitRecord_keeps hu (created_items s it _ _) hq ho _).trans (raiseItem_stays _ _ _).keeps
  · exact (mapRecord_stays s it.rid (f := fun x => { x with
        state := .committed, committed := some ⟨d.source, d.index, d.substituted, [], none⟩, skipped := true })
      (fun x => ⟨rfl, rfl, rfl, rfl, id, nofun⟩)).keeps.trans (raiseItem_stays _ _ _).keeps

theorem commit_keeps (s : State) (l : LaneId) (rid : Nat) : s.Keeps (s.commit l rid) := by
  unfold State.commit
  split
  · exact .refl s
  next it hfind =>
    split
    next ho => exact commitDecision_keeps (List.mem_of_find?_eq_some hfind) ho _
    · exact .refl s

/-! ### A new item (R5, R10) -/

theorem takeCreated_keeps (s : State) (e : Event) : s.Keeps (s.takeCreated e) := by
  unfold State.takeCreated
  split
  · exact jamPoint_keeps s _ _
  · exact commit_keeps s _ _
  · exact schedulePoint_keeps s _
  · exact openWindow_keeps s _ _
  · exact closeWindow_keeps s _ _
  · exact .refl s

theorem takeReached_keeps (n : Nat) (l : LaneId) (rid : Nat) : ∀ s : State, s.Keeps (State.takeReached n l rid s) := by
  induction n with
  | zero => intro s; exact .refl s
  | succ n ih =>
    intro s
    unfold State.takeReached
    split
    · exact .refl s
    · simp only
      split
      · exact ((choose_keeps s _).trans (takeCreated_keeps _ _)).trans (ih _)
      · split
        · exact exitPoint_keeps s l rid
        · exact .refl s

/-- R2, R10: the queue of a lane with a new item. -/
def joinQueue (q : List Item) (it : Item) : List Item :=
  q.map (fun it => { it with covering := false }) ++ [it]

theorem addItem_items (s : State) (l : LaneId) (it : Item) : (s.addItem l it).items =
    { s.items with queues := tset s.items.queues l (joinQueue s.items.queues[l] it), nextRid := s.items.nextRid + 1 } :=
  rfl

theorem addItem_queue (s : State) (l m : LaneId) (it : Item) : (s.addItem l it).items.queues[m] =
    if l = m then joinQueue s.items.queues[l] it else s.items.queues[m] :=
  tset_get _ _ _ _

theorem addItem_lane (s : State) (l m : LaneId) (it : Item) : (s.addItem l it).lanes[m] =
    if l = m then { s.lanes[l] with nextTag := s.lanes[l].nextTag + 1 } else s.lanes[m] :=
  tset_get _ _ _ _

theorem addItem_advance (s : State) (l m : LaneId) (it : Item) : (s.addItem l it).verdicts.advance[m] =
    if l = m then s.verdicts.advance[l].filter (fun e => e.tag ≠ it.tag) else s.verdicts.advance[m] :=
  tset_get _ _ _ _

theorem joinQueue_rids (q : List Item) (it : Item) : (joinQueue q it).map (·.rid) = q.map (·.rid) ++ [it.rid] := by
  unfold joinQueue
  rw [List.map_append, List.map_map]
  rfl

theorem addItem_rids (s : State) (l : LaneId) (it : Item) :
    (s.addItem l it).items.rids.Perm (it.rid :: s.items.rids) := by
  have hq (m : LaneId) : ((s.addItem l it).items.queues[m]).map (·.rid) =
      if l = m then s.items.queues[l].map (·.rid) ++ [it.rid] else s.items.queues[m].map (·.rid) := by
    rw [addItem_queue]
    split
    · exact joinQueue_rids _ _
    · rfl
  have h0 : ((s.addItem l it).items.queues[0]).map (·.rid) = _ := hq 0
  have h1 : ((s.addItem l it).items.queues[1]).map (·.rid) = _ := hq 1
  have h2 : ((s.addItem l it).items.queues[2]).map (·.rid) = _ := hq 2
  have h3 : ((s.addItem l it).items.queues[3]).map (·.rid) = _ := hq 3
  refine List.perm_iff_count.mpr (fun a => ?_)
  simp only [Items.rids, Items.all, List.map_append, h0, h1, h2, h3, List.count_append, List.count_cons]
  fin_cases l <;> simp [addItem_items, List.count_append, List.count_cons] <;> omega

/-- R2: a new item at the end of a queue. -/
theorem queueOk_join {next : Half} {q : List Item} (h : queueOk next q) {it : Item} (ht : it.tag = next)
    (hp : ∀ x, q.getLast? = some x → (x.entryPos - it.entryPos).toInt ≤ 0) : queueOk (next + 1) (joinQueue q it) := by
  obtain ⟨hpairs, hlast⟩ := h
  unfold joinQueue
  refine ⟨fun k a b ha hb => ?_, fun x hx => ?_⟩
  · rw [List.getElem?_append, List.length_map, List.getElem?_map] at ha hb
    by_cases hk : k + 1 < q.length
    · rw [if_pos (by omega)] at ha
      rw [if_pos hk] at hb
      obtain ⟨a', ha', rfl⟩ := Option.map_eq_some_iff.mp ha
      obtain ⟨b', hb', rfl⟩ := Option.map_eq_some_iff.mp hb
      obtain ⟨htag, hpos, _⟩ := hpairs k a' b' ha' hb'
      exact ⟨htag, hpos, rfl⟩
    · rw [if_neg hk] at hb
      have hkq : k + 1 - q.length = 0 := by
        rcases Nat.eq_zero_or_pos (k + 1 - q.length) with h | h
        · exact h
        · rw [List.getElem?_eq_none (by rw [List.length_singleton]; omega)] at hb
          cases hb
      rw [hkq] at hb
      cases hb
      rw [if_pos (by omega)] at ha
      obtain ⟨a', ha', rfl⟩ := Option.map_eq_some_iff.mp ha
      have hl : q.getLast? = some a' := by
        rw [List.getLast?_eq_getElem?, ← ha']
        congr 1
        omega
      exact ⟨ht.trans (hlast a' hl), hp a' hl, rfl⟩
  · rw [List.getLast?_append, List.getLast?_singleton, Option.some_or] at hx
    cases hx
    rw [ht]

theorem entryPosition_behind (s : State) (l : LaneId) (c : Capture) {x : Item} (h : s.items.queues[l].getLast? = some x) :
    (x.entryPos - s.entryPosition l c).toInt ≤ 0 := by
  unfold State.entryPosition
  rw [h]
  simp only
  split
  · simp
  next hb =>
    have : ¬ 0 < (x.entryPos - c.bp).toInt := fun hlt => hb (decide_eq_true hlt)
    omega

/-- R41: the verdict lists count from the next tag on. -/
theorem advance_step {next : Half} {list : List AdvanceEntry} (hp : list.Pairwise (tagOrder next))
    (hd : ∀ e ∈ list, (e.tag - next).toNat ≤ 7) :
    (list.filter (fun e => e.tag ≠ next)).Pairwise (tagOrder (next + 1)) ∧
      ∀ e ∈ list.filter (fun e => e.tag ≠ next), (e.tag - (next + 1)).toNat ≤ 7 := by
  have key (e : AdvanceEntry) (he : e ∈ list.filter (fun e => e.tag ≠ next)) :
      (e.tag - (next + 1)).toNat + 1 = (e.tag - next).toNat := by
    have hne : e.tag ≠ next := by simpa using (List.mem_filter.mp he).2
    bv_omega
  refine ⟨?_, fun e he => ?_⟩
  · refine (hp.sublist List.filter_sublist).imp_of_mem (fun {a b} ha hb hab => ?_)
    have := key a ha
    have := key b hb
    unfold tagOrder at hab ⊢
    omega
  · have := key e he
    have := hd e (List.mem_filter.mp he).1
    omega

theorem mem_joinQueue {q : List Item} {it x : Item} (h : x ∈ joinQueue q it) :
    (∃ y ∈ q, x = { y with covering := false }) ∨ x = it := by
  rcases List.mem_append.mp h with h | h
  · obtain ⟨y, hy, he⟩ := List.mem_map.mp h
    exact .inl ⟨y, hy, he.symm⟩
  · exact .inr (List.mem_singleton.mp h)

/-- R1, R5: a new record in the table. -/
theorem addItem_items_ok {s : State} (ok : s.items.Ok) (hroom : s.items.inUse < 192) (l : LaneId) (c : Capture) :
    (s.addItem l (s.newItem l c)).items.Ok := by
  obtain ⟨_, hlane, hnd, hlt⟩ := ok
  have hperm := addItem_rids s l (s.newItem l c)
  have hlt' : ∀ r ∈ s.items.rids, r < s.items.nextRid := by
    intro r hr
    obtain ⟨x, hx, rfl⟩ := List.mem_map.mp hr
    exact hlt x hx
  refine ⟨?_, fun m x hx => ?_, ?_, fun x hx => ?_⟩
  · rw [inUse_eq_length, hperm.length_eq, List.length_cons, ← inUse_eq_length]
    exact hroom
  · rw [addItem_queue] at hx
    split at hx
    next h =>
      subst h
      rcases mem_joinQueue hx with ⟨y, hy, rfl⟩ | rfl
      · exact hlane l y hy
      · rfl
    · exact hlane m x hx
  · exact hperm.nodup_iff.mpr (List.nodup_cons.mpr ⟨fun h => Nat.lt_irrefl _ (hlt' _ h), hnd⟩)
  · have hx' := hperm.subset (mem_rids_of_all hx)
    rcases List.mem_cons.mp hx' with h | h
    · rw [h]; exact Nat.lt_succ_self _
    · exact Nat.lt_succ_of_lt (hlt' _ h)

theorem addItem_recordsOk {s : State} (ok : s.recordsOk) {l : LaneId} (hrun : s.lanes[l].state ≠ .off)
    (hroom : s.items.inUse < 192) (c : Capture) : (s.addItem l (s.newItem l c)).recordsOk := by
  obtain ⟨hitems, hqs, hsch, hoff, hadv, hdis⟩ := ok
  refine ⟨addItem_items_ok hitems hroom l c, ?_, hsch, fun m ho => ?_, fun m => ?_, hdis⟩
  · rw [queuesOk_iff] at hqs ⊢
    intro m
    rw [addItem_lane, addItem_queue]
    split
    next h =>
      subst h
      exact queueOk_join (hqs l) rfl (fun x hx => entryPosition_behind s l c hx)
    · exact hqs m
  · rw [addItem_lane] at ho
    rw [addItem_queue, addItem_advance, addItem_lane]
    split at ho
    · exact absurd ho hrun
    next h =>
      rw [if_neg h, if_neg h, if_neg h]
      exact hoff m ho
  · rw [addItem_advance, addItem_lane]
    split
    · exact advance_step (hadv l).1 (hadv l).2
    · exact hadv m

theorem openCount_joinQueue (q : List Item) (it : Item) : openCount (joinQueue q it) ≤ openCount q + 1 := by
  unfold openCount joinQueue
  rw [List.countP_append, List.countP_map]
  exact Nat.add_le_add (Nat.le_refl _) (List.countP_le_length.trans (by simp))

theorem sum_lane_one (l : LaneId) : (allLanes.map (fun m => if l = m then 1 else 0)).sum = 1 := by
  revert l
  decide

/-- R10: a record is created where the pool has one. -/
theorem addItem_costs {s : State} {l : LaneId} (hrun : s.lanes[l].state ≠ .off) (hfree : s.items.free ≠ 0) (c : Capture) :
    s.Costs 1 1 (s.addItem l (s.newItem l c)) := by
  have hc := addItem_changes s l (s.newItem l c)
  have hroom : s.items.inUse < 192 := by
    unfold Items.free Config.poolSize at hfree
    omega
  have hlanes (m : LaneId) (h : (s.addItem l (s.newItem l c)).lanes[m].running = true) : s.lanes[m].running = true := by
    rw [addItem_lane] at h
    split at h
    next hm => subst hm; exact h
    · exact h
  exact {
    data := .of_blocks hc.mono hlanes (fun _ => id) (fun _ => id)
    notices := noticesOk_of_changes hc.mono
    link := linkOk_of_changes hc.mono
    records := fun ok => addItem_recordsOk ok hrun hroom c
    load := by
      have hq (m : LaneId) : (s.addItem l (s.newItem l c)).items.queues[m].length ≤
          s.items.queues[m].length + (if l = m then 1 else 0) := by
        rw [addItem_queue]
        split
        next h => subst h; simp [joinQueue]
        · exact Nat.le_refl _
      have hsum := List.sum_le_sum (l := allLanes) (fun m _ => hq m)
      rw [List.sum_map_add, sum_lane_one] at hsum
      have hrunning := runningCount_le hlanes
      have ha : (s.addItem l (s.newItem l c)).agenda = s.agenda := hc .agenda (by decide)
      unfold State.load Items.tracked
      rw [ha]
      show _ + (_ + s.items.passed.length) + _ ≤ _
      omega
    inUse := fun _ => by
      rw [inUse_eq_length, (addItem_rids s l _).length_eq, List.length_cons, ← inUse_eq_length]
      exact hroom
    windows := by
      have hq (m : LaneId) : openCount (s.addItem l (s.newItem l c)).items.queues[m] ≤
          openCount s.items.queues[m] + (if l = m then 1 else 0) := by
        rw [addItem_queue]
        split
        next h => subst h; exact openCount_joinQueue _ _
        · exact Nat.le_refl _
      have hsum := List.sum_le_sum (l := allLanes) (fun m _ => hq m)
      rw [List.sum_map_add, sum_lane_one] at hsum
      have hw : (s.addItem l (s.newItem l c)).windows = s.windows := hc .windows (by decide)
      unfold State.windowLoad
      rw [hw]
      omega
    entries := id }

theorem createItem_costs {s : State} {l : LaneId} (hrun : s.lanes[l].state ≠ .off) (hfree : s.items.free ≠ 0)
    (c : Capture) : s.Costs 1 1 (s.createItem l c) :=
  ((addItem_costs hrun hfree c).keeps (raiseItem_stays _ _ _).keeps).keeps (takeReached_keeps _ _ _ _)

/-! ### Edges (R9, R12, R13) -/

theorem leadingEdge_costs (s : State) (l : LaneId) (c : Capture) : s.Costs 1 1 (s.leadingEdge l c) := by
  have none_costs {t : State} (h : s.Keeps t) : s.Costs 1 1 t := h.mono (by omega) (by omega)
  unfold State.leadingEdge
  split
  · exact none_costs (.refl s)
  next hrun =>
    split
    · exact none_costs (.refl s)
    · split
      · exact none_costs ((countUntracked_stays s l).keeps.trans (takeCause_keeps _ l _))
      next hroom =>
        refine createItem_costs (by rw [hrun]; decide) (fun hf => hroom ?_) c
        simp [State.noRoom, hf]
  · split
    · exact none_costs (countUntracked_stays s l).keeps
    · exact none_costs (.refl s)
  · split
    · exact none_costs ((countUntracked_stays s l).keeps.trans (overrunSecond_keeps _ l))
    · exact none_costs (.refl s)

theorem trailingEdge_keeps (s : State) (l : LaneId) (c : Capture) : s.Keeps (s.trailingEdge l c) := by
  unfold State.trailingEdge
  split
  · have hi : s.items.InPlace (s.setQueue l (s.items.queues[l].map (fun it =>
        if it.covering then { it with covering := false, length := some (it.lengthAt c.bp) } else it))).items := by
      refine ⟨fun m => ?_, .refl _, .refl _, rfl⟩
      rw [setQueue_items, tset_get]
      split
      next h =>
        subst h
        refine .of_map (fun it => ?_) _
        split
        · exact ⟨rfl, rfl, rfl, rfl, nofun, id⟩
        · exact .refl it
      · exact .refl _
    exact (State.Sheds.of_inPlace (setQueue_changes s l _).mono hi (.of_lanes rfl) id).keeps_inPlace hi
  · exact .refl s

end Sys2Proof.Machine
end

section
/-! SUPPORT. What timers, reactions, inputs and the Position Unit keep inside a moment. -/

namespace Sys2Proof.Machine

/-! ### Registers -/

/-- An operation on registers of the timers, the reactions and the inputs. -/
theorem State.Keeps.of_registers {s t : State} (hc : OnlyChanges [.timers, .reactions, .inputs, .pins, .choices] s t)
    (ht : ∀ k : TimerId, s.timers[k].Ok → t.timers[k].Ok) (hr : ∀ r : ReactionId, s.reactions[r].Ok → t.reactions[r].Ok)
    (hi : ∀ i : InputId, s.inputs[i].Ok → t.inputs[i].Ok) : s.Keeps t where
  data := {
    position := by
      have hp : t.position = s.position := hc .position (by decide)
      rw [hp]; exact id
    agenda := ⟨[], by rw [hc .agenda (by decide), List.append_nil], nofun⟩
    limit := fun _ l h => by
      have hl : t.lanes = s.lanes := hc .lanes (by decide)
      have hp : t.position = s.position := hc .position (by decide)
      rw [hl] at h
      exact .inr (.inr ⟨h, by rw [hp]; exact id⟩)
    timers := ht
    reactions := hr
    inputs := hi
    outputs := fun o => by
      have ho : t.outputs = s.outputs := hc .outputs (by decide)
      rw [ho]; exact id }
  notices := noticesOk_of_changes hc.mono
  link := linkOk_of_changes hc.mono
  records := recordsOk_of_changes hc.mono
  load := by
    rw [State.load, State.load, runningCount_congr (s := s) (hc .lanes (by decide)), hc .items (by decide),
      hc .agenda (by decide), Nat.add_zero]
  inUse := by rw [hc .items (by decide)]; exact id
  windows := Nat.le_add_right_of_le
    (Nat.le_of_eq (windowLoad_congr (hc .items (by decide)) (hc .windows (by decide))))
  entries := by rw [hc .schedule (by decide)]; exact id

theorem mapTimer_keeps {s : State} {k : TimerId} {f : Timer → Timer} (h : s.timers[k].Ok → (f s.timers[k]).Ok) :
    s.Keeps (s.mapTimer k f) := by
  refine .of_registers (mapTimer_changes s k f).mono (fun j hj => ?_) (fun _ => id) (fun _ => id)
  rw [mapTimer_timers, tset_get]
  split
  next hk => subst hk; exact h hj
  · exact hj

theorem mapReaction_keeps {s : State} {r : ReactionId} {f : Reaction → Reaction}
    (h : s.reactions[r].Ok → (f s.reactions[r]).Ok) : s.Keeps (s.mapReaction r f) := by
  refine .of_registers (mapReaction_changes s r f).mono (fun _ => id) (fun j hj => ?_) (fun _ => id)
  rw [mapReaction_reactions, tset_get]
  split
  next hk => subst hk; exact h hj
  · exact hj

theorem mapInput_keeps {s : State} {i : InputId} {f : Input → Input} (h : s.inputs[i].Ok → (f s.inputs[i]).Ok) :
    s.Keeps (s.mapInput i f) := by
  refine .of_registers (mapInput_changes s i f).mono (fun _ => id) (fun _ => id) (fun j hj => ?_)
  rw [mapInput_inputs, tset_get]
  split
  next hk => subst hk; exact h hj
  · exact hj

theorem showPin_keeps (s : State) (i : InputId) (v : Level) : s.Keeps (s.showPin i v) :=
  .of_own (showPin_changes s i v).mono

/-! ### Timers (R145 to R147) -/

theorem Timer.Ok.start {t : Timer} (h : t.Ok) : t.start.Ok := by
  obtain ⟨hlo, hhi, _, _⟩ := h
  exact ⟨hlo, hhi, fun _ => ⟨hlo, Nat.le_refl _⟩, nofun⟩

theorem Timer.Ok.stop {t : Timer} (h : t.Ok) : t.stop.Ok := by
  obtain ⟨hlo, hhi, _, _⟩ := h
  exact ⟨hlo, hhi, nofun, fun _ => rfl⟩

theorem Timer.Ok.expired {t : Timer} (h : t.Ok) (hr : t.running = true) : t.expired.Ok := by
  unfold Timer.expired
  split
  · obtain ⟨hlo, hhi, _, _⟩ := h
    exact ⟨hlo, hhi, fun _ => ⟨hlo, Nat.le_refl _⟩, fun hf => absurd (hr.symm.trans hf) (by decide)⟩
  · exact h.stop

theorem Timer.Ok.ticked {t : Timer} (h : t.Ok) : t.ticked.Ok := by
  unfold Timer.ticked
  split
  next he => exact h.expired (by simp [Timer.expires] at he; exact he.1)
  next he =>
    split
    next hr =>
      obtain ⟨hlo, hhi, hrun, _⟩ := h
      obtain ⟨_, hle⟩ := hrun hr
      have hgt : ¬ t.remaining ≤ 1 := fun hle => he (by simp [Timer.expires, hr, hle])
      exact ⟨hlo, hhi, fun _ => ⟨by show 1 ≤ t.remaining - 1; omega, by show t.remaining - 1 ≤ t.period; omega⟩,
        fun hf => absurd (hr.symm.trans hf) (by decide)⟩
    · exact h

theorem eventsWeight_map {α : Type} (f : α → Event) {w : Nat} (h : ∀ a, (f a).weight = w) (xs : List α) :
    eventsWeight (xs.map f) = w * xs.length := by
  unfold eventsWeight
  rw [List.map_map]
  have hc : xs.map (Event.weight ∘ f) = xs.map (fun _ => w) := List.map_congr_left (fun a _ => h a)
  rw [hc]
  simp [Nat.mul_comm]

theorem pushTrigger_costs (s : State) (e : TriggerEvent) : s.Costs 1 0 (s.push [.trigger e]) :=
  push_costs s [.trigger e]

theorem setTimers_changes (s : State) (v : Vector Timer 4) : OnlyChanges [.timers] s { s with timers := v } := by
  intro b hb
  cases b
  case timers => exact absurd (List.mem_singleton_self _) hb
  all_goals rfl

theorem tickTimers_costs (s : State) : s.Costs 8 0 s.tickTimers := by
  have ht : s.Keeps { s with timers := tmap Timer.ticked s.timers } :=
    .of_registers (setTimers_changes s _).mono (fun k h => by rw [tmap_get]; exact h.ticked) (fun _ => id) (fun _ => id)
  refine (ht.costs (pushEach_costs _ _)).mono ?_ (Nat.le_refl _)
  rw [eventsWeight_map (w := 2) _ (fun _ => rfl)]
  have : (allTimers.filter (fun t => s.timers[t].expires)).length ≤ 4 := List.length_filter_le _ _
  omega

theorem reportExpiry_costs (s : State) (t : TimerId) : s.Costs 1 0 (s.reportExpiry t) := by
  unfold State.reportExpiry
  simp only
  refine State.Keeps.costs ?_ (pushTrigger_costs _ _)
  split
  · exact (produce_stays s _ _).keeps
  · exact .refl s

/-! ### Outputs and reactions (R78, R79, R81, R153, R154) -/

theorem mapGeneral_keeps {s : State} {o : OutputId} {f : Output → Output}
    (h : s.outputs[o].Ok → s.outputs[o].role = .general → (f s.outputs[o]).Ok) : s.Keeps (s.mapGeneral o f) := by
  unfold State.mapGeneral
  split
  next hr => exact (mapOutput_stays (fun ok => h ok hr)).keeps
  · exact .refl s

theorem Output.Ok.general {o : Output} (h : o.Ok) (hr : o.role = .general) (latch : Bool) (pulse : Option Pos) :
    Output.Ok { o with latch := latch, pulse := pulse } :=
  ⟨h.1, h.2.1, fun hn => absurd hr hn⟩

theorem Output.Ok.noPulse {o : Output} (h : o.Ok) : Output.Ok { o with pulse := none } :=
  ⟨h.1, h.2.1, fun hn => ⟨(h.2.2 hn).1, rfl⟩⟩

theorem outPulse_keeps (s : State) (o : OutputId) (ms : Half) : s.Keeps (s.outPulse o ms) := by
  unfold State.outPulse
  split
  · exact .refl s
  · exact mapGeneral_keeps (fun ok hr => ok.general hr _ _)

theorem endPulse_keeps (s : State) (o : OutputId) : s.Keeps (s.endPulse o) := by
  unfold State.endPulse
  split
  · exact (mapOutput_stays (fun ok => ok.noPulse)).keeps
  · exact .refl s

theorem inhibited_ok {o : Output} (h : o.Ok) : o.inhibited.Ok := by
  unfold Output.inhibited
  split
  · exact h.erase .test
  · exact h.noPulse
  · exact h
  · exact h

theorem inhibitOutputs_keeps (s : State) : s.Keeps s.inhibitOutputs :=
  (State.Stays.of_items (t := s.inhibitOutputs) {
    changes := (inhibitOutputs_changes s).mono
    outputs := fun o h => by
      show (tmap Output.inhibited s.outputs)[o].Ok
      rw [tmap_get]
      exact inhibited_ok h } rfl).keeps

theorem perform_keeps (s : State) (r : ReactionId) : s.Keeps (s.perform r) := by
  unfold State.perform
  split
  · exact .refl s
  · exact mapGeneral_keeps (fun ok hr => ok.general hr _ _)
  · exact mapGeneral_keeps (fun ok hr => ok.general hr _ _)
  · exact outPulse_keeps s _ _
  · exact mapTimer_keeps (fun h => h.start)
  · exact mapTimer_keeps (fun h => h.stop)
  · exact laneHold_keeps s _
  · exact (produce_stays s _ _).keeps
  · exact (produce_stays s _ _).keeps

theorem disableOnce_keeps (s : State) (r : ReactionId) : s.Keeps (s.disableOnce r) :=
  mapReaction_keeps (fun h => by
    split
    · exact nofun
    · exact h)

theorem performAll_keeps (s : State) (c : List ReactionId) : s.Keeps (s.performAll c) :=
  (State.Keeps.foldl _ perform_keeps c s).trans (State.Keeps.foldl _ disableOnce_keeps c _)

theorem takeTrigger_keeps (s : State) (e : TriggerEvent) : s.Keeps (s.takeTrigger e) :=
  performAll_keeps s _

theorem ackTick_keeps (s : State) : s.Keeps s.ackTick :=
  (notices_stays s (fun h => h.tick)).keeps

/-! ### Inputs (R134 to R141) -/

/-- R140: INHIBIT that becomes active cuts the entries that are ON. -/
theorem reportInhibit_costs (s : State) (old : Bool) : s.Costs (1 + s.schedule.used) 0 (s.reportInhibit old) := by
  unfold State.reportInhibit
  split
  · refine (pushEach_costs s _).mono ?_ (Nat.le_refl _)
    have hlen : (s.schedule.entries.filter (·.isOn)).length ≤ s.schedule.used :=
      Nat.le_trans (List.length_filter_le _ _) (Nat.le_of_eq (Schedule.used_eq _).symm)
    have hw : eventsWeight ((s.schedule.entries.filter (·.isOn)).map (fun e => .cut e.serial)) =
        1 * (s.schedule.entries.filter (·.isOn)).length := eventsWeight_map (fun e : ScheduleEntry => .cut e.serial) (fun _ => rfl) _
    rw [← List.singleton_append, eventsWeight_append, hw]
    show 1 + _ ≤ _
    omega
  · exact (State.Keeps.refl s).mono (Nat.zero_le _) (Nat.le_refl _)

theorem deliverEntry_costs (s : State) (i : InputId) (e : Edge) (c : Capture) : s.Costs 1 1 (s.deliverEntry i e c) := by
  have none_costs {t : State} (h : s.Keeps t) : s.Costs 1 1 t := h.mono (by omega) (by omega)
  unfold State.deliverEntry
  split
  · exact none_costs (.refl s)
  · exact leadingEdge_costs s _ c
  · unfold State.laneDeactivation
    split
    · exact none_costs (unblank_stays s _).keeps
    · exact none_costs (trailingEdge_keeps s _ c)

theorem deliverConfirm_keeps (s : State) (i : InputId) (e : Edge) (c : Capture) : s.Keeps (s.deliverConfirm i e c) :=
  endRun_keeps s i _

theorem deliverGeneral_costs (s : State) (i : InputId) (e : Edge) (c : Capture) :
    s.Costs 1 0 (s.deliverGeneral i e c) := by
  unfold State.deliverGeneral
  split
  · simp only
    refine State.Keeps.costs ?_ (pushTrigger_costs _ _)
    split
    · exact (produce_stays s _ _).keeps
    · exact .refl s
  · exact (State.Keeps.refl s).mono (Nat.zero_le _) (Nat.le_refl _)

/-- R134: an input without a run. -/
theorem Input.Ok.idle {x : Input} (h : x.Ok) (accepted : Level) (awaiting : Bool) (mark : SampleMark) :
    Input.Ok { x with accepted := accepted, awaiting := awaiting, mark := mark, run := none } :=
  ⟨h.1, h.2.1, nofun⟩

theorem accept_costs (s : State) (i : InputId) (v : Level) (c : Capture) :
    s.Costs (1 + s.schedule.used) 1 (s.accept i v c) := by
  have hm : s.Keeps (s.mapInput i (fun x => { x with accepted := v, run := none, mark := .taken })) :=
    mapInput_keeps (fun h => h.idle v _ _)
  unfold State.accept
  simp only
  split
  · exact hm.mono (Nat.zero_le _) (Nat.zero_le _)
  · exact (hm.costs (deliverEntry_costs _ i _ c)).mono (by omega) (by omega)
  · exact (hm.trans (deliverConfirm_keeps _ i _ c)).mono (by omega) (by omega)
  · exact (hm.costs (reportInhibit_costs _ _)).mono (Nat.le_refl _) (by omega)
  · exact (hm.costs (deliverGeneral_costs _ i _ c)).mono (by omega) (by omega)

/-- R133: an input that has not been compared has no run. -/
theorem Input.Ok.awaiting_idle {x : Input} (h : x.Ok) (ha : x.awaiting = true) : x.run = none :=
  Option.eq_none_iff_forall_not_mem.mpr (fun r hr => by
    obtain ⟨_, hn, _⟩ := h.2.2 r hr
    rw [ha] at hn
    cases hn)

theorem Input.Ok.of_idle {x y : Input} (h : x.Ok) (hr : y.run = none) (hs : y.stable = x.stable) : y.Ok :=
  ⟨hs ▸ h.1, hs ▸ h.2.1, fun r h => by rw [hr] at h; cases h⟩

theorem settleInput_keeps (s : State) (i : InputId) : s.Keeps (s.settleInput i) := by
  unfold State.settleInput
  split
  next ha => exact mapInput_keeps (fun h => h.of_idle (h.awaiting_idle ha) rfl)
  · exact .refl s

theorem takeRequested_costs {s : State} {i : InputId} (hr : s.inputs[i].run = none) (raw : Level) :
    s.Costs (1 + s.schedule.used) 0 (s.takeRequested i raw) :=
  ((mapInput_keeps (f := fun x => { x with accepted := raw }) (fun h => h.of_idle hr rfl)).costs
    (reportInhibit_costs _ _)).mono (Nat.le_refl _) (Nat.le_refl _)

theorem compare_costs (s : State) (i : InputId) (raw : Level) : s.Costs (1 + s.schedule.used) 1 (s.compare i raw) := by
  have hp := showPin_keeps s i raw
  have none_costs {t : State} (h : s.Keeps t) : s.Costs (1 + s.schedule.used) 1 t := h.mono (Nat.zero_le _) (by omega)
  unfold State.compare
  simp only
  split
  · exact none_costs (hp.trans (settleInput_keeps _ i))
  next hawait =>
    split
    · exact none_costs hp
    next hrun =>
      have hidle : s.inputs[i].run = none := by simpa using hrun
      split
      · exact none_costs hp
      · exact (hp.costs (takeRequested_costs (s := s.showPin i raw) hidle raw)).mono (Nat.le_refl _) (by omega)
      · split
        · exact none_costs (hp.trans (mapInput_keeps (fun h => h.of_idle hidle rfl)))
        next hne =>
          split
          next hf =>
            refine none_costs (hp.trans (mapInput_keeps (fun h => ⟨h.1, h.2.1, fun r hr => ?_⟩)))
            cases hr
            exact ⟨hf, by simpa using hawait, Nat.le_refl _, h.1, hne⟩
          · exact (hp.costs (accept_costs _ i raw _)).mono (Nat.le_refl _) (Nat.le_refl _)

theorem abandonRun_keeps (s : State) (i : InputId) : s.Keeps (s.abandonRun i) := by
  have hm : s.Keeps (s.mapInput i (fun x => { x with run := none, mark := .taken })) :=
    mapInput_keeps (fun h => h.of_idle rfl rfl)
  unfold State.abandonRun
  simp only
  split
  · exact hm.trans (endRun_keeps _ i none)
  · exact hm

theorem sample_costs {s : State} {i : InputId} {r : Run} (hr : s.inputs[i].run = some r) (v : Level) :
    s.Costs (1 + s.schedule.used) 1 (s.sample i r v) := by
  have hp := showPin_keeps s i v
  unfold State.sample
  simp only
  split
  · split
    · exact (hp.costs (accept_costs _ i _ _)).mono (Nat.le_refl _) (Nat.le_refl _)
    next hstable =>
      refine (hp.trans (mapInput_keeps (s := s.showPin i v) (fun h => ⟨h.1, h.2.1, fun q hq => ?_⟩))).mono
        (Nat.zero_le _) (Nat.zero_le _)
      obtain ⟨hf, ha, _, _, hne⟩ := h.2.2 r hr
      cases hq
      exact ⟨hf, ha, Nat.le_add_left _ _, Nat.lt_of_not_le hstable, hne⟩
  · exact (hp.trans (abandonRun_keeps _ i)).mono (Nat.zero_le _) (Nat.zero_le _)

theorem runDue_run {s : State} {i : InputId} {r : Run} (h : s.runDue i = some r) : s.inputs[i].run = some r :=
  (runDue_eq_some.mp h).1

theorem sampleCandidate_costs (s : State) (i : InputId) : s.Costs (1 + s.schedule.used) 1 (s.sampleCandidate i) := by
  unfold State.sampleCandidate
  split
  · exact (State.Keeps.refl s).mono (Nat.zero_le _) (Nat.zero_le _)
  next r hr => exact sample_costs (runDue_run hr) _

theorem sampleAccepted_costs (s : State) (i : InputId) : s.Costs (1 + s.schedule.used) 1 (s.sampleAccepted i) := by
  unfold State.sampleAccepted
  split
  · exact (State.Keeps.refl s).mono (Nat.zero_le _) (Nat.zero_le _)
  next r hr => exact sample_costs (runDue_run hr) _

theorem transition_costs (s : State) (i : InputId) : s.Costs (1 + s.schedule.used) 1 (s.transition i) := by
  unfold State.transition
  split
  · exact sampleCandidate_costs s i
  · split
    · exact (State.Keeps.refl s).mono (Nat.zero_le _) (Nat.zero_le _)
    · exact compare_costs s i _

theorem takeSample_costs (s : State) (i : InputId) : s.Costs (1 + s.schedule.used) 1 (s.takeSample i) := by
  unfold State.takeSample
  split
  · exact compare_costs s i _
  next r hr => exact sample_costs (runDue_run hr) _

/-! ### Belt position (R123, R126) -/

theorem toInt_nonneg_iff (x : Pos) : 0 ≤ x.toInt ↔ x.toNat < 2147483648 := by
  rw [BitVec.toInt_eq_toNat_cond]
  have := x.isLt
  split <;> omega

theorem toInt_of_nonneg {x : Pos} (h : 0 ≤ x.toInt) : x.toInt = x.toNat := by
  have := (toInt_nonneg_iff x).mp h
  rw [BitVec.toInt_eq_toNat_cond]
  split <;> omega

/-- R123: HW − BP after a forward step. -/
theorem forward_rd (p : Position) : p.forward.rd = if p.bp = p.hw then p.rd else p.rd - 1 := by
  unfold Position.forward Position.rd Position.atHighWater
  by_cases h : p.bp = p.hw
  · simp only [h, decide_true, if_true]
    bv_omega
  · simp only [h, decide_false, Bool.false_eq_true, if_false]
    bv_omega

theorem back_rd (p : Position) : p.back.rd = if p.rd = deepest then p.rd else p.rd + 1 := by
  have hr : p.back.rd = (if p.rd = deepest then p.hw - 1 else p.hw) - (p.bp - 1) := rfl
  rw [hr]
  by_cases h : p.rd = deepest
  · rw [if_pos h, if_pos h, Position.rd]
    bv_omega
  · rw [if_neg h, if_neg h, Position.rd]
    bv_omega

theorem rd_zero_of_atHighWater {p : Position} (h : p.bp = p.hw) : p.rd = 0 := by
  simp [Position.rd, h]

theorem rd_ne_zero {p : Position} (h : p.bp ≠ p.hw) : p.rd.toNat ≠ 0 := by
  rw [Position.rd]
  bv_omega

theorem forward_rd_le {p : Position} (h : 0 ≤ p.rd.toInt) :
    0 ≤ p.forward.rd.toInt ∧ p.forward.rd.toInt ≤ p.rd.toInt := by
  rw [forward_rd]
  split
  · exact ⟨h, Int.le_refl _⟩
  next hne =>
    have hpos := rd_ne_zero hne
    have hlt := (toInt_nonneg_iff _).mp h
    have hsub : (p.rd - 1).toNat = p.rd.toNat - 1 := by bv_omega
    have h0 : 0 ≤ (p.rd - 1).toInt := (toInt_nonneg_iff _).mpr (by omega)
    rw [toInt_of_nonneg h0, toInt_of_nonneg h, hsub]
    omega

theorem back_rd_le {p : Position} (h : 0 ≤ p.rd.toInt) :
    0 ≤ p.back.rd.toInt ∧ (p.crossesLimit = false → p.within → p.back.rd.toInt ≤ (p.rl.toNat : Int)) := by
  have hlt := (toInt_nonneg_iff _).mp h
  rw [back_rd]
  split
  · exact ⟨h, fun _ hw => hw⟩
  next hd =>
    have hd' : p.rd.toNat ≠ 2147483647 := fun he => hd (BitVec.eq_of_toNat_eq he)
    have hadd : (p.rd + 1).toNat = p.rd.toNat + 1 := by bv_omega
    have h0 : 0 ≤ (p.rd + 1).toInt := (toInt_nonneg_iff _).mpr (by omega)
    refine ⟨h0, fun hc hw => ?_⟩
    have hne : p.rd ≠ p.rl.setWidth 32 := fun he => by
      rw [Position.crossesLimit, he] at hc
      simp [he ▸ hd] at hc
    have hne' : p.rd.toNat ≠ p.rl.toNat := fun he => hne (BitVec.eq_of_toNat_eq (by
      rw [he, BitVec.toNat_setWidth, Nat.mod_eq_of_lt]
      exact Nat.lt_trans p.rl.isLt (by decide)))
    unfold Position.within at hw
    rw [toInt_of_nonneg h] at hw
    rw [toInt_of_nonneg h0, hadd]
    omega

/-- An operation on the Position Unit that does not deepen the reverse depth past the limit. -/
theorem State.Keeps.of_position {s t : State} (hc : OnlyChanges [.position] s t) (hp : s.position.Ok → t.position.Ok)
    (hw : s.position.Ok → s.position.within → t.position.within) : s.Keeps t :=
  have hl : t.lanes = s.lanes := hc .lanes (by decide)
  have ht : t.timers = s.timers := hc .timers (by decide)
  have hr : t.reactions = s.reactions := hc .reactions (by decide)
  have hi : t.inputs = s.inputs := hc .inputs (by decide)
  have ho : t.outputs = s.outputs := hc .outputs (by decide)
  { data := {
      position := hp
      agenda := ⟨[], by rw [hc .agenda (by decide), List.append_nil], nofun⟩
      limit := fun ok l h => .inr (.inr ⟨hl ▸ h, hw ok⟩)
      timers := fun k h => by rw [ht]; exact h
      reactions := fun k h => by rw [hr]; exact h
      inputs := fun k h => by rw [hi]; exact h
      outputs := fun k h => by rw [ho]; exact h }
    notices := noticesOk_of_changes hc.mono
    link := linkOk_of_changes hc.mono
    records := recordsOk_of_changes hc.mono
    load := by
      rw [State.load, State.load, runningCount_congr hl, hc .items (by decide), hc .agenda (by decide), Nat.add_zero]
    inUse := by rw [hc .items (by decide)]; exact id
    windows := Nat.le_add_right_of_le
      (Nat.le_of_eq (windowLoad_congr (hc .items (by decide)) (hc .windows (by decide))))
    entries := by rw [hc .schedule (by decide)]; exact id }

end Sys2Proof.Machine
end

section
/-! SUPPORT. What steps of the belt, ticks and the events of a moment keep. -/

namespace Sys2Proof.Machine

/-! ### Steps (R123, R126) -/

theorem Position.Ok.of_counts {p q : Position} (h : p.Ok) (hrd : 0 ≤ q.rd.toInt)
    (hc : (q.subMs, q.eaRun, q.ebRun, q.timersTaken, q.tickDue) =
      (p.subMs, p.eaRun, p.ebRun, p.timersTaken, p.tickDue)) : q.Ok := by
  obtain ⟨_, hsub, hea, heb, htaken⟩ := h
  simp only [Prod.mk.injEq] at hc
  obtain ⟨h1, h2, h3, h4, h5⟩ := hc
  exact ⟨hrd, h1 ▸ hsub, h2 ▸ hea, h3 ▸ heb, by rw [h4, h5]; exact htaken⟩

theorem Position.Ok.forward {p : Position} (h : p.Ok) : p.forward.Ok :=
  h.of_counts (forward_rd_le h.1).1 rfl

theorem Position.Ok.back {p : Position} (h : p.Ok) : p.back.Ok :=
  h.of_counts (back_rd_le h.1).1 rfl

theorem State.Costs.foldl {α : Type} (f : State → α → State) (g : α → Nat)
    (h : ∀ (s : State) a, s.Costs (g a) 0 (f s a)) : ∀ (l : List α) (s : State), s.Costs (l.map g).sum 0 (l.foldl f s)
  | [], s => State.Keeps.refl s
  | a :: l, s => (h s a).trans (State.Costs.foldl f g h l (f s a))

theorem eventsWeight_map_le {α : Type} (f : α → Event) (h : ∀ a, (f a).weight = 1) (p : α → Bool) (xs : List α) :
    eventsWeight ((xs.filter p).map f) ≤ xs.length := by
  rw [eventsWeight_map f h, Nat.one_mul]
  exact List.length_filter_le _ _

/-- How many events a step on new ground hands on at most. -/
def State.stepCost (s : State) : Nat :=
  3 * s.items.tracked + s.schedule.used + s.windowLoad

theorem windowsDue_weight (s : State) (i : InputId) : eventsWeight (s.windowsDue i) ≤ s.windows[i].length := by
  unfold State.windowsDue
  rw [eventsWeight_append, eventsWeight_map (fun w : Window => .windowOpen i w.rid) (fun _ => rfl),
    eventsWeight_map (fun w : Window => .windowClose i w.rid) (fun _ => rfl), Nat.one_mul, Nat.one_mul]
  refine length_filter_add_le _ _ _ (fun w _ hp => ?_)
  have hp' := (of_decide_eq_true hp).1
  exact decide_eq_false (fun h => by rw [hp'] at h; exact absurd h.1 (by decide))

theorem eventsWeight_flatMap_le {α : Type} (f : α → List Event) (g : α → Nat) (h : ∀ a, eventsWeight (f a) ≤ g a) :
    ∀ xs : List α, eventsWeight (xs.flatMap f) ≤ (xs.map g).sum
  | [] => Nat.le_refl _
  | x :: xs => by
    rw [List.flatMap_cons, eventsWeight_append, List.map_cons, List.sum_cons]
    exact Nat.add_le_add (h x) (eventsWeight_flatMap_le f g h xs)

theorem offerLane_costs (s acc : State) (l : LaneId) :
    acc.Costs (3 * s.items.queues[l].length) 0
      (((acc.push (s.decisionsDue l)).push (s.exitsDue l)).pushEach (s.jamsDue l)) := by
  have hd : eventsWeight (s.decisionsDue l) ≤ s.items.queues[l].length := eventsWeight_map_le _ (fun _ => rfl) _ _
  have he : eventsWeight (s.exitsDue l) ≤ s.items.queues[l].length := eventsWeight_map_le _ (fun _ => rfl) _ _
  have hj : eventsWeight (s.jamsDue l) ≤ s.items.queues[l].length := eventsWeight_map_le _ (fun _ => rfl) _ _
  exact (((push_costs acc _).trans (push_costs _ _)).trans (pushEach_costs _ _)).mono (by omega) (Nat.le_refl _)

theorem offerStep_costs (s : State) : s.Costs s.stepCost 0 s.offerStep := by
  have hlanes := State.Costs.foldl _ _ (fun acc l => offerLane_costs s acc l) allLanes s
  have hsched : eventsWeight s.scheduleDue ≤ s.schedule.positionList.length := eventsWeight_map_le _ (fun _ => rfl) _ _
  have hwin := eventsWeight_flatMap_le s.windowsDue (fun i => s.windows[i].length) (windowsDue_weight s) allInputs
  refine ((hlanes.trans (pushEach_costs _ s.scheduleDue)).trans
    (pushEach_costs _ (allInputs.flatMap s.windowsDue))).mono ?_ (Nat.le_refl _)
  rw [List.sum_map_mul_left]
  unfold State.stepCost Items.tracked Schedule.used State.windowLoad
  omega

theorem stepForward_costs (s : State) : s.Costs s.stepCost 0 s.stepForward := by
  have hp : s.Keeps { s with position := s.position.forward } :=
    .of_position (position_changes s _) (fun h => h.forward)
      (fun ok hw => Int.le_trans (forward_rd_le ok.1).2 hw)
  unfold State.stepForward
  simp only
  split
  · exact (hp.costs (offerStep_costs { s with position := s.position.forward })).mono (Nat.le_refl _) (Nat.le_refl _)
  · exact hp.mono (Nat.zero_le _) (Nat.le_refl _)

theorem offerAll_costs (s : State) (c : Cause) : s.Costs 4 0 (s.offerAll c) := by
  have hs : s.Keeps s.sameMoment.2 := .of_own (sameMoment_changes s).mono
  refine (hs.costs (pushEach_costs _ _)).mono ?_ (Nat.le_refl _)
  exact eventsWeight_map_le (fun l : LaneId => .offer l c) (fun _ => rfl) _ allLanes

theorem offerAll_offers (s : State) (c : Cause) {l : LaneId} (h : s.lanes[l].running = true) :
    .offer l c ∈ (s.offerAll c).agenda.flatten := by
  have ha : (s.offerAll c).agenda = s.sameMoment.2.agenda ++ ((allLanes.filter (fun l => s.lanes[l].running ||
      (s.sameMoment.1 && s.lanes[l].justFaulted))).map (fun l => .offer l c)).map (fun e => [e]) := rfl
  rw [ha, List.flatten_append]
  refine List.mem_append_right _ (List.mem_flatten.mpr ⟨[.offer l c], ?_, List.mem_singleton_self _⟩)
  refine List.mem_map_of_mem (List.mem_map_of_mem (List.mem_filter.mpr ⟨mem_allLanes l, ?_⟩))
  rw [h, Bool.true_or]

theorem stepReverse_costs (s : State) : s.Costs 4 0 s.stepReverse := by
  unfold State.stepReverse
  simp only
  split
  next hc =>
    let t : State := { s with position := s.position.back }
    have ho := offerAll_costs t .reverse
    have hd := ho.data
    have hl : (t.offerAll .reverse).lanes = s.lanes := offerAll_changes t .reverse .lanes (by decide)
    exact {
      data := {
        position := fun ok => hd.position ok.back
        agenda := hd.agenda
        limit := fun _ l hr => .inr (.inl (offerAll_offers t .reverse (hl ▸ hr)))
        timers := hd.timers
        reactions := hd.reactions
        inputs := hd.inputs
        outputs := hd.outputs }
      notices := ho.notices
      link := ho.link
      records := ho.records
      load := ho.load
      inUse := ho.inUse
      windows := ho.windows
      entries := ho.entries }
  next hc =>
    exact (State.Keeps.of_position (t := { s with position := s.position.back }) (position_changes s _)
      (fun h => h.back) (fun ok hw => (back_rd_le ok.1).2 (Bool.eq_false_iff.mpr hc) hw)).mono (Nat.zero_le _)
      (Nat.le_refl _)

/-! ### Decoding and the filters of the channels (R119 to R122) -/

theorem setReference_keeps (s : State) (r : Level × Level) : s.Keeps (s.setReference r) :=
  .of_position (setReference_changes s r) (fun h => h) (fun _ h => h)

theorem setPins_keeps (s : State) (r : Level × Level) : s.Keeps (s.setPins r) :=
  .of_position (setPins_changes s r) (fun h => ⟨h.1, h.2.1, Nat.zero_le _, Nat.zero_le _, h.2.2.2.2⟩) (fun _ h => h)

theorem setChannels_keeps (s : State) (r : Level × Level) : s.Keeps (s.setChannels r) :=
  (setPins_keeps s r).trans (setReference_keeps _ r)

theorem illegal_costs (s : State) : s.Costs 4 0 s.illegal :=
  State.Keeps.costs (.of_position (t := { s with position := { s.position with encoderFault := true } })
    (position_changes s _) (fun h => h) (fun _ h => h)) (offerAll_costs _ _)

/-- How many events a transition of the channels hands on at most. -/
def State.transitionCost (s : State) : Nat :=
  s.stepCost + 4

theorem stepForward_transition (s : State) : s.Costs s.transitionCost 0 s.stepForward :=
  (stepForward_costs s).mono (Nat.le_add_right _ _) (Nat.le_refl _)

theorem stepReverse_transition (s : State) : s.Costs s.transitionCost 0 s.stepReverse :=
  (stepReverse_costs s).mono (Nat.le_add_left _ _) (Nat.le_refl _)

theorem idle_transition (s : State) : s.Costs s.transitionCost 0 s :=
  (State.Keeps.refl s).mono (Nat.zero_le _) (Nat.le_refl _)

theorem quadrature_costs (s : State) (old : Level × Level) : s.Costs s.transitionCost 0 (s.quadrature old) := by
  unfold State.quadrature
  simp only
  split
  · exact (illegal_costs s).mono (Nat.le_add_left _ _) (Nat.le_refl _)
  · split
    · split
      · exact stepForward_transition s
      · split
        · exact stepReverse_transition s
        · exact idle_transition s
    · split
      · exact stepForward_transition s
      · split
        · exact stepReverse_transition s
        · exact idle_transition s

theorem pulseStep_costs (s : State) (old : Level × Level) : s.Costs s.transitionCost 0 (s.pulseStep old) := by
  unfold State.pulseStep
  split
  · split
    · exact stepReverse_transition s
    · exact stepForward_transition s
  · exact idle_transition s

theorem decode_costs (s : State) (new : Level × Level) : s.Costs s.transitionCost 0 (s.decode new) := by
  have hs := setReference_keeps s new
  have hq := quadrature_costs (s.setReference new) (s.position.ea, s.position.eb)
  have hp := pulseStep_costs (s.setReference new) (s.position.ea, s.position.eb)
  unfold State.decode
  simp only
  split
  · exact hs.costs hq
  · exact hs.costs hq
  · exact hs.costs hp
  · exact hs.costs hp

theorem filterSample_run (level pin : Level) {run : Nat} : (filterSample level pin run).2 ≤ 2 := by
  unfold filterSample Config.channelSamples
  split
  · exact Nat.zero_le _
  · split
    next h => exact Nat.le_of_lt_succ h
    · exact Nat.zero_le _

theorem sampleChannels_costs (s : State) : s.Costs s.transitionCost 0 s.sampleChannels := by
  have hp (a b : Nat) (ha : a ≤ 2) (hb : b ≤ 2) :
      s.Keeps { s with position := { s.position with eaRun := a, ebRun := b } } :=
    .of_position (position_changes s _) (fun h => ⟨h.1, h.2.1, ha, hb, h.2.2.2.2⟩) (fun _ h => h)
  have hpos := hp _ _ (filterSample_run s.position.ea s.position.eaPin (run := s.position.eaRun))
    (filterSample_run s.position.eb s.position.ebPin (run := s.position.ebRun))
  unfold State.sampleChannels
  simp only
  split
  · exact hpos.mono (Nat.zero_le _) (Nat.le_refl _)
  · exact (hpos.costs (decode_costs _ _)).mono (Nat.le_refl _) (Nat.le_refl _)

theorem flipChannel_keeps (s : State) (c : Channel) : s.Keeps (s.flipChannel c) :=
  .of_position (flipChannel_changes s c) (fun h => by cases c <;> exact h) (fun _ h => by cases c <;> exact h)

/-! ### The tick (R131) -/

theorem tick_costs (s : State) : s.Costs (26 + s.schedule.used) 0 s.tick := by
  have hp : s.Keeps { s with position := { s.position with tickDue := false, timersTaken := false } } :=
    .of_position (position_changes s _) (fun h => ⟨h.1, h.2.1, h.2.2.1, h.2.2.2.1, nofun⟩) (fun _ h => h)
  refine (hp.costs (pushEach_costs _ _)).mono ?_ (Nat.le_refl _)
  have hoff : eventsWeight s.offTimesDue ≤ s.schedule.timeList.length := eventsWeight_map_le _ (fun _ => rfl) _ _
  have hpulse : eventsWeight s.pulsesDue ≤ 16 := eventsWeight_map_le (fun o : OutputId => .pulseEnd o) (fun _ => rfl) _ allOutputs
  have htimers : eventsWeight s.timersDue ≤ 9 := by
    unfold State.timersDue
    split
    · decide
    · split <;> decide
  have hack : eventsWeight s.ackDue ≤ 1 := by
    unfold State.ackDue
    split <;> decide
  rw [eventsWeight_append, eventsWeight_append, eventsWeight_append]
  unfold Schedule.used
  omega

theorem advance_keeps_position (s : State) : s.Keeps { s with position := s.position.advance } := by
  refine .of_position (position_changes s _) (fun h => ?_) (fun _ h => ?_)
  · obtain ⟨hrd, hsub, hea, heb, htaken⟩ := h
    show s.position.advance.Ok
    unfold Position.advance
    split
    next hlt => exact ⟨hrd, hlt, hea, heb, htaken⟩
    · exact ⟨hrd, Nat.zero_le _, hea, heb, fun _ => rfl⟩
  · show s.position.advance.within
    unfold Position.advance
    split
    · exact h
    · exact h

end Sys2Proof.Machine
end

section
/-! SUPPORT. The events of a moment taken one after the other, the grant, and the end of the moment. -/

namespace Sys2Proof.Machine

/-! ### What a whole moment keeps -/

/-- The registers, the line and the records are kept. -/
structure State.Passes (s t : State) : Prop where
  data : s.dataOk → t.dataOk
  line : s.lineOk → t.lineOk
  records : s.recordsOk → t.recordsOk

theorem State.Passes.refl (s : State) : s.Passes s := ⟨id, id, id⟩

theorem State.Passes.trans {s t u : State} (h : s.Passes t) (k : t.Passes u) : s.Passes u :=
  ⟨k.data ∘ h.data, k.line ∘ h.line, k.records ∘ h.records⟩

theorem State.Costs.passes {n w : Nat} {s t : State} (h : s.Costs n w t) : s.Passes t :=
  ⟨h.data.dataOk, fun ⟨hn, hl⟩ => ⟨h.notices hn, h.link hl⟩, h.records⟩

/-- The bounds under which a moment is short: the pool, the schedule, the windows made and to come, and no empty chain. -/
structure State.Bounded (w : Nat) (s : State) : Prop where
  inUse : s.items.inUse ≤ 192
  entries : s.schedule.used ≤ 64
  windows : s.windowLoad ≤ w
  chains : ∀ c ∈ s.agenda, c ≠ []

theorem State.DataKept.chains {s t : State} (h : s.DataKept t) (hs : ∀ c ∈ s.agenda, c ≠ []) : ∀ c ∈ t.agenda, c ≠ [] := by
  obtain ⟨more, hm, hm'⟩ := h.agenda
  rw [hm]
  exact fun c hc => (List.mem_append.mp hc).elim (hs c) (hm' c)

theorem State.Costs.bounded {n w v : Nat} {s t : State} (h : s.Costs n w t) (hs : s.Bounded v) : t.Bounded (v + w) :=
  ⟨h.inUse hs.inUse, h.entries hs.entries, Nat.le_trans h.windows (Nat.add_le_add_right hs.windows w),
    h.data.chains hs.chains⟩

/-! ### An event is taken -/

/-- What an event costs beyond itself. -/
theorem handle_costs (s : State) (e : Event) : s.Costs (e.weight - 1) 0 (s.handle e) := by
  cases e with
  | decision l rid => exact commit_keeps s l rid
  | jam l rid => exact jamPoint_keeps s l rid
  | exitPoint l rid => exact exitPoint_keeps s l rid
  | schedulePoint serial => exact schedulePoint_keeps s serial
  | windowOpen i rid => exact openWindow_keeps s i rid
  | windowClose i rid => exact closeWindow_keeps s i rid
  | offTime serial => exact offTime_keeps s serial
  | pulseEnd o => exact endPulse_keeps s o
  | timersTick => exact tickTimers_costs s
  | expired t => exact reportExpiry_costs s t
  | ackTick => exact ackTick_keeps s
  | cut serial => exact cutEntry_keeps s serial
  | inhibitOutputs => exact inhibitOutputs_keeps s
  | offer l c => exact takeCause_keeps s l c
  | trigger t => exact takeTrigger_keeps s t

theorem Event.weight_pos (e : Event) : 1 ≤ e.weight := by
  cases e <;> simp [Event.weight]

theorem takeEvent_some : ∀ (k : Nat) (a : List (List Event)), (∀ c ∈ a, c ≠ []) → k < a.length →
    ∃ e rest, takeEvent k a = some (e, rest) ∧ (∀ c ∈ rest, c ≠ []) ∧ a.flatten.Perm (e :: rest.flatten)
  | _, [], _, hk => absurd hk (Nat.not_lt_zero _)
  | 0, [] :: _, hc, _ => absurd rfl (hc [] List.mem_cons_self)
  | 0, [e] :: rest, hc, _ => ⟨e, rest, rfl, fun c h => hc c (List.mem_cons_of_mem _ h), List.Perm.refl _⟩
  | 0, (e :: e' :: es) :: rest, hc, _ =>
    ⟨e, (e' :: es) :: rest, rfl, fun c h => (List.mem_cons.mp h).elim (fun he => he ▸ by simp)
      (fun h => hc c (List.mem_cons_of_mem _ h)), List.Perm.refl _⟩
  | k + 1, c :: rest, hc, hk => by
    obtain ⟨e, rest', he, hc', hp⟩ := takeEvent_some k rest (fun d h => hc d (List.mem_cons_of_mem _ h))
      (Nat.lt_of_succ_lt_succ hk)
    refine ⟨e, c :: rest', by simp [takeEvent, he], fun d h => ?_, ?_⟩
    · rcases List.mem_cons.mp h with rfl | h
      · exact hc d List.mem_cons_self
      · exact hc' d h
    · rw [List.flatten_cons, List.flatten_cons]
      exact (hp.append_left c).trans List.perm_middle

theorem choose_lt (s : State) {n : Nat} (h : 0 < n) : (s.choose n).1 < n := by
  unfold State.choose
  split
  · exact h
  · exact Nat.mod_lt _ h

/-- The state in which an event has been chosen and left the agenda. -/
def State.withAgenda (s : State) (a : List (List Event)) : State :=
  { s with agenda := a }

theorem takeOne_eq {s : State} (hc : ∀ c ∈ s.agenda, c ≠ []) (hne : s.agenda ≠ []) :
    ∃ e rest, s.takeOne = ((s.choose s.agenda.length).2.withAgenda rest).handle e ∧ (∀ c ∈ rest, c ≠ []) ∧
      s.agenda.flatten.Perm (e :: rest.flatten) := by
  have ha : (s.choose s.agenda.length).2.agenda = s.agenda := choose_changes s _ .agenda (by decide)
  obtain ⟨e, rest, he, hc', hp⟩ := takeEvent_some (s.choose s.agenda.length).1 s.agenda hc
    (choose_lt s (List.length_pos_iff.mpr hne))
  refine ⟨e, rest, ?_, hc', hp⟩
  unfold State.takeOne
  simp only
  rw [ha, he]
  rfl

/-- One event the fewer. -/
theorem takeOne_load {s : State} (hc : ∀ c ∈ s.agenda, c ≠ []) (hne : s.agenda ≠ []) : s.takeOne.load < s.load := by
  obtain ⟨e, rest, heq, _, hp⟩ := takeOne_eq hc hne
  have hk := choose_keeps s s.agenda.length
  have hle := (handle_costs ((s.choose s.agenda.length).2.withAgenda rest) e).load
  have hw : agendaWeight s.agenda = e.weight + agendaWeight rest := by
    unfold agendaWeight eventsWeight
    rw [(hp.map Event.weight).sum_nat, List.map_cons, List.sum_cons]
  have hs : ((s.choose s.agenda.length).2.withAgenda rest).load + e.weight = s.load := by
    have hi : (s.choose s.agenda.length).2.items = s.items := choose_changes s _ .items (by decide)
    have hr : (s.choose s.agenda.length).2.runningCount = s.runningCount :=
      runningCount_congr (choose_changes s _ .lanes (by decide))
    have hl : ((s.choose s.agenda.length).2.withAgenda rest).load =
        agendaWeight rest + (s.choose s.agenda.length).2.items.tracked + (s.choose s.agenda.length).2.runningCount := rfl
    rw [hl, hi, hr, State.load, hw]
    omega
  have := e.weight_pos
  rw [heq]
  omega

theorem takeOne_bounded {w : Nat} {s : State} (h : s.Bounded w) (hne : s.agenda ≠ []) : s.takeOne.Bounded w := by
  obtain ⟨e, rest, heq, hc, _⟩ := takeOne_eq h.chains hne
  have hk := (choose_keeps s s.agenda.length).bounded h
  rw [heq]
  exact (handle_costs ((s.choose s.agenda.length).2.withAgenda rest) e).bounded (v := w)
    ⟨hk.inUse, hk.entries, hk.windows, hc⟩

theorem takeOne_dataOk {s : State} (h : s.dataOk) (hne : s.agenda ≠ []) : s.takeOne.dataOk := by
  obtain ⟨hp, ⟨hc, hl⟩, ht, hr, hi, ho⟩ := (choose_keeps s s.agenda.length).passes.data h
  have ha : (s.choose s.agenda.length).2.agenda = s.agenda := choose_changes s _ .agenda (by decide)
  rw [ha] at hc hl
  obtain ⟨e, rest, heq, hc', hperm⟩ := takeOne_eq hc hne
  rw [heq]
  let u := (s.choose s.agenda.length).2.withAgenda rest
  have hd := (handle_costs u e).data
  refine ⟨hd.position hp, ⟨hd.chains hc', fun l hrun => ?_⟩, fun k => hd.timers k (ht k), fun r => hd.reactions r (hr r),
    fun i => hd.inputs i (hi i), fun o => hd.outputs o (ho o)⟩
  obtain hw | hoff | ⟨hrun', hw⟩ := hd.limit hp l ((running_iff _).mpr hrun)
  · exact .inl hw
  · exact .inr hoff
  · rcases hl l ((running_iff _).mp hrun') with hin | hoff
    · exact .inl (hw hin)
    · rcases List.mem_cons.mp (hperm.subset hoff) with he | hrest
      · subst he
        have hstop : (u.handle (.offer l .reverse)).lanes[l].running = false := takeCause_stops u l .reverse
        exact absurd (hstop.symm.trans ((running_iff _).mpr hrun)) Bool.false_ne_true
      · obtain ⟨more, hm, _⟩ := hd.agenda
        rw [hm, List.flatten_append]
        exact .inr (List.mem_append_left _ hrest)

theorem withAgenda_changes (s : State) (a : List (List Event)) : OnlyChanges [.agenda] s (s.withAgenda a) :=
  agenda_changes s a

/-- Whatever the agenda, the line and the records are kept. -/
theorem takeOne_lineOk_recordsOk (s : State) :
    (s.lineOk → s.takeOne.lineOk) ∧ (s.recordsOk → s.takeOne.recordsOk) := by
  have hk := (choose_keeps s s.agenda.length).passes
  have hw {t : State} (a : List (List Event)) : (t.lineOk → (t.withAgenda a).lineOk) ∧
      (t.recordsOk → (t.withAgenda a).recordsOk) :=
    ⟨id, recordsOk_of_changes (withAgenda_changes t a).mono⟩
  unfold State.takeOne
  simp only
  split
  · exact ⟨(hw []).1 ∘ hk.line, (hw []).2 ∘ hk.records⟩
  next e rest _ =>
    have he := (handle_costs ((s.choose s.agenda.length).2.withAgenda rest) e).passes
    exact ⟨he.line ∘ (hw rest).1 ∘ hk.line, he.records ∘ (hw rest).2 ∘ hk.records⟩

theorem takeOne_passes {s : State} (hne : s.agenda ≠ []) : s.Passes s.takeOne :=
  ⟨fun h => takeOne_dataOk h hne, (takeOne_lineOk_recordsOk s).1, (takeOne_lineOk_recordsOk s).2⟩

theorem settle_passes (n : Nat) : ∀ s : State, s.Passes (State.settle n s) := by
  induction n with
  | zero => intro s; exact .refl s
  | succ n ih =>
    intro s
    unfold State.settle
    split
    · exact .refl s
    next c a ha => exact (takeOne_passes (by rw [ha]; exact List.cons_ne_nil _ _)).trans (ih _)

/-- R155, R124: the events of a moment come to an end. -/
theorem settle_ends {w : Nat} (n : Nat) : ∀ {s : State}, s.Bounded w → s.load ≤ n →
    (State.settle n s).Bounded w ∧ (State.settle n s).agenda = [] := by
  induction n with
  | zero =>
    intro s h hl
    refine ⟨h, List.eq_nil_iff_forall_not_mem.mpr (fun c hc => ?_)⟩
    obtain ⟨e, es, rfl⟩ := List.exists_cons_of_ne_nil (h.chains c hc)
    have := takeOne_load h.chains (List.ne_nil_of_mem hc)
    omega
  | succ n ih =>
    intro s h hl
    unfold State.settle
    split
    next ha => exact ⟨h, ha⟩
    next c a ha =>
      have hne : s.agenda ≠ [] := by rw [ha]; exact List.cons_ne_nil _ _
      have := takeOne_load h.chains hne
      exact ih (takeOne_bounded h hne) (by omega)

/-! ### The grant (R184) -/

/-- An operation on the notices and the line that leaves the records in their places. -/
theorem State.Keeps.of_line {s t : State} (hc : OnlyChanges [.items, .notices, .link] s t) (hi : s.items.InPlace t.items)
    (hn : s.notices.Ok → t.notices.Ok) (hl : s.link.Ok → t.link.Ok) : s.Keeps t where
  data := .of_changes hc.mono
  notices := hn
  link := hl
  records h := recordsOk_of_inPlace h hi (hc .schedule (by decide)) (hc .verdicts (by decide))
    (fun l => by rw [hc .lanes (by decide)]; exact ⟨rfl, fun h => ⟨h, id⟩⟩)
  load := by
    rw [State.load, State.load, runningCount_congr (s := s) (hc .lanes (by decide)), hc .agenda (by decide), hi.tracked,
      Nat.add_zero]
  inUse := by rw [inUse_eq_length, inUse_eq_length, hi.rids]; exact id
  windows := Nat.le_add_right_of_le (windowLoad_le
    (fun i => by rw [hc .windows (by decide)]) (fun l => (hi.queues l).openCount_le))
  entries := by rw [hc .schedule (by decide)]; exact id

theorem flagLinked_nextRid (s : State) (e : NoticeEntry) (f : NoticeFlag) :
    (s.flagLinked e f).items.nextRid = s.items.nextRid := by
  unfold State.flagLinked
  split <;> rfl

theorem sendNotice_nextRid (s : State) : s.sendNotice.items.nextRid = s.items.nextRid := by
  unfold State.sendNotice
  split
  · rfl
  · split
    · rfl
    · split
      · split
        · rfl
        · exact flagLinked_nextRid _ _ _
      · rfl

theorem sendNotice_inPlace (s : State) : s.items.InPlace s.sendNotice.items :=
  .of_sameRecords (sendNotice_sameRecords s) (sendNotice_nextRid s)

theorem flagLinked_link (s : State) (e : NoticeEntry) (f : NoticeFlag) : (s.flagLinked e f).link = s.link :=
  flagLinked_changes s e f .link (by decide)

/-- R167: a grant to the Notice Queue begins at most a notice frame. -/
theorem sendNotice_link (s : State) :
    s.sendNotice.link = s.link ∨ ∃ f, s.sendNotice.link = { s.link with transmitter := .notice f } := by
  unfold State.sendNotice
  split
  · exact .inl rfl
  · split
    · exact .inr ⟨_, rfl⟩
    · split
      · split
        · exact .inl rfl
        · exact .inr ⟨_, flagLinked_link _ _ _⟩
      · exact .inl rfl

theorem Link.Ok.notice {l : Link} (h : l.Ok) (hi : l.transmitter = .idle) (f : Frame) :
    Link.Ok { l with transmitter := .notice f } := by
  obtain ⟨hreq, hslot, hbad, hover, htrans⟩ := h
  refine ⟨hreq, hslot, hbad, hover, fun g => ⟨nofun, fun ⟨r, hr, hb, hf⟩ => ?_⟩⟩
  have := (htrans g).mpr ⟨r, hr, hb, hf⟩
  rw [hi] at this
  cases this

theorem sendNotice_keeps {s : State} (hi : s.link.transmitter = .idle) : s.Keeps s.sendNotice :=
  .of_line (sendNotice_changes s) (sendNotice_inPlace s) sendNotice_notices_ok (fun h => by
    rcases sendNotice_link s with he | ⟨f, he⟩
    · rw [he]; exact h
    · rw [he]; exact h.notice hi f)

theorem Link.Ok.beginReply {l : Link} (h : l.Ok) : l.beginReply.Ok := by
  obtain ⟨hreq, hslot, hbad, hover, _⟩ := h
  unfold Link.beginReply
  split
  next hs => exact ⟨hreq, hslot, hbad, hover, by assumption⟩
  next r hs =>
    refine ⟨hreq, nofun, hbad, hover, fun f => ⟨fun hf => ?_, fun ⟨q, hq, _, hf⟩ => ?_⟩⟩
    · cases hf
      exact ⟨_, rfl, rfl, rfl⟩
    · cases hq
      cases hf
      rfl

theorem grant_keeps (s : State) : s.Keeps s.grant := by
  unfold State.grant
  split
  · exact .refl s
  next hidle =>
    split
    · exact .of_line (link_changes s _).mono (.refl _) id (fun h => h.beginReply)
    · exact sendNotice_keeps (by simpa using hidle)

/-! ### The end of a moment -/

theorem finish_passes (s : State) : s.Passes s.finish :=
  (settle_passes _ s).trans (grant_keeps _).passes

theorem finish_ends {w : Nat} {s : State} (h : s.Bounded w) (hl : s.load ≤ 4096) :
    s.finish.Bounded w ∧ s.finish.agenda = [] := by
  obtain ⟨hb, ha⟩ := settle_ends 4096 h hl
  exact ⟨(grant_keeps _).bounded hb, (grant_changes _ .agenda (by decide)).trans ha⟩

theorem runningCount_le_four (s : State) : s.runningCount ≤ 4 :=
  List.countP_le_length

/-- With nothing of the moment left there is little to come of items and lanes. -/
theorem load_of_empty {w : Nat} {s : State} (h : s.Bounded w) (ha : s.agenda = []) : s.load ≤ 196 := by
  have := Nat.le_trans (tracked_le_inUse s.items) h.inUse
  have := runningCount_le_four s
  unfold State.load
  rw [ha, show agendaWeight [] = 0 from rfl]
  omega

theorem lanes_keeps {s t : State} (hc : OnlyChanges [.lanes] s t) (hl : s.LanesKept t) : s.Keeps t :=
  have hi : t.items = s.items := hc .items (by decide)
  (State.Sheds.of_inPlace hc.mono (hi ▸ .refl _) hl (noticesOk_of_changes hc.mono)).keeps_inPlace (hi ▸ .refl _)

theorem struckOnly_lanesKept {s t : State} (h : ∀ l : LaneId, ∃ m, t.lanes[l] = { s.lanes[l] with struck := m }) :
    s.LanesKept t := fun l => by
  obtain ⟨m, hm⟩ := h l
  rw [hm]
  exact ⟨rfl, id, fun h => ⟨h, id⟩⟩

theorem stepEnded_keeps (s : State) : s.Keeps s.stepEnded :=
  lanes_keeps (stepEnded_changes s) (struckOnly_lanesKept (fun l => by
    rw [stepEnded_lane]
    unfold Lane.stepEnded
    split
    · exact ⟨_, rfl⟩
    · exact ⟨_, rfl⟩))

theorem nextMoment_keeps (s : State) : s.Keeps s.nextMoment :=
  lanes_keeps (nextMoment_changes s) (struckOnly_lanesKept (fun l => ⟨none, nextMoment_lane s l⟩))

theorem ended_keeps (s t : State) : t.Keeps (s.ended t) := by
  unfold State.ended
  split
  · exact .refl t
  · exact stepEnded_keeps t

theorem keeps_agenda_of_changes {s t : State} (hc : OnlyChanges [.lanes] s t) (ha : s.agenda = []) : t.agenda = [] :=
  (hc .agenda (by decide)).trans ha

end Sys2Proof.Machine
end

section
/-! SUPPORT. What each request keeps (R169 to R192). -/

namespace Sys2Proof.Machine

/-! ### Answers -/

/-- What the state of an answer keeps: a request brings an INHIBIT change or a lane that begins to run at most. -/
def State.Fits (s : State) (a : Answer) : Prop :=
  s.Costs (1 + s.schedule.used) 0 a.2

theorem State.Costs.fits {n : Nat} {s t : State} (h : s.Costs n 0 t) (hn : n ≤ 1) (bs : List Byte) : s.Fits (bs, t) :=
  h.mono (Nat.le_trans hn (Nat.le_add_right _ _)) (Nat.le_refl _)

theorem State.Keeps.fits {s t : State} (h : s.Keeps t) (bs : List Byte) : s.Fits (bs, t) :=
  h.mono (Nat.zero_le _) (Nat.le_refl _)

theorem fits_refl (s : State) (bs : List Byte) : s.Fits (bs, s) :=
  State.Keeps.fits (.refl s) bs

theorem refuse_fits (s : State) (st : Status) : s.Fits (s.refuse st) :=
  fits_refl s _

theorem named_fits {s : State} {n : Nat} {b : Byte} {f : Fin n → Answer} (h : ∀ i, s.Fits (f i)) :
    s.Fits (s.named n b f) := by
  unfold State.named
  split
  · exact refuse_fits s _
  · exact h _

theorem sized_fits {s : State} {a : Answer} (p : List Byte) (n : Nat) (h : s.Fits a) : s.Fits (s.sized p n a) := by
  unfold State.sized
  split
  · exact h
  · exact refuse_fits s _

theorem ite_fits {s : State} {c : Prop} [Decidable c] {a b : Answer} (h : s.Fits a) (k : s.Fits b) :
    s.Fits (if c then a else b) := by
  split
  · exact h
  · exact k

/-! ### Notice Queue -/

/-- An operation by which records of the DONE part leave, and nothing else moves. -/
structure State.Frees (s t : State) : Prop where
  sheds : s.Sheds t
  queues : ∀ l : LaneId, FollowAll s.items.queues[l] t.items.queues[l]

theorem State.Frees.trans {s t u : State} (h : s.Frees t) (k : t.Frees u) : s.Frees u :=
  ⟨h.sheds.trans k.sheds, fun l => (h.queues l).trans (k.queues l)⟩

theorem State.Stays.frees {s t : State} (h : s.Stays t) : s.Frees t :=
  ⟨h.sheds, h.inPlace.queues⟩

theorem State.Frees.keeps {s t : State} (h : s.Frees t) : s.Keeps t :=
  h.sheds.keeps (fun _ l => .of_follow (h.queues l))

theorem freeRecord_frees (s : State) (rid : Nat) : s.Frees (s.freeRecord rid) where
  sheds := {
    changes := (freeRecord_changes s rid).mono
    rids := by
      have h : (s.freeRecord rid).items.all.Sublist s.items.all := by
        unfold Items.all
        exact (List.Sublist.append_left List.filter_sublist _).append_right _
      exact (h.map _).subperm
    notices := fun h => h.forget rid }
  queues l := .refl _

theorem flagLinked_stays (s : State) (e : NoticeEntry) (f : NoticeFlag) : s.Stays (s.flagLinked e f) := by
  unfold State.flagLinked
  split
  · exact setFlag_stays s _ _ f
  · exact .refl s
  · exact .refl s
  · exact .refl s

theorem acknowledge_frees (s : State) (e : NoticeEntry) : s.Frees (s.acknowledge e) := by
  unfold State.acknowledge
  split
  · split
    · exact freeRecord_frees s _
    · exact (flagLinked_stays s e _).frees
  · exact (State.Stays.refl s).frees
  · exact (State.Stays.refl s).frees

theorem acknowledge_foldl_frees : ∀ (es : List NoticeEntry) (s : State), s.Frees (es.foldl State.acknowledge s)
  | [], s => (State.Stays.refl s).frees
  | e :: es, s => (acknowledge_frees s e).trans (acknowledge_foldl_frees es _)

theorem dropSent_ok {n : Notices} (h : n.Ok) (k : Nat) : Notices.Ok { n with sent := n.sent.drop k } := by
  have ⟨_, hdepth, hother, hsent, _⟩ := h
  have hlen := List.length_drop (l := n.sent) (i := k)
  have hcount := (List.drop_sublist k n.sent).countP_le (p := NoticeEntry.isOther)
  unfold Notices.depth at hdepth
  refine h.entries (unsent := n.unsent) (by omega) ?_ (by omega)
  rw [List.countP_append] at hother ⊢
  omega

theorem ackNotice_keeps (s : State) (number : Byte) : s.Keeps (s.ackNotice number) := by
  unfold State.ackNotice
  simp only
  split
  · exact .refl s
  · refine State.Frees.keeps (((State.Frees.trans (t := { s with notices := { s.notices with
      sent := s.notices.sent.drop (s.notices.covered number) } }) ?_ (acknowledge_foldl_frees _ _)).trans
        (notices_stays _ (fun h => h.resume)).frees).trans (admitAll_stays _).frees)
    exact (notices_stays s (fun h => dropSent_ok h _)).frees

theorem reqAckNotice_fits (s : State) (number : Byte) : s.Fits (s.reqAckNotice number) :=
  (ackNotice_keeps s number).fits _

theorem reqSetNotice_fits (s : State) (f : NoticeFields) : s.Fits (s.reqSetNotice f) := by
  unfold State.reqSetNotice
  split
  · exact refuse_fits s _
  next n hn =>
    exact ((notices_stays s (fun h => h.settings (noticeSettingsOf_ok hn))).trans (admitAll_stays _)).keeps.fits _

/-! ### Lanes -/

theorem reqSetLane_fits (s : State) (lane : Byte) (f : LaneFields) : s.Fits (s.reqSetLane lane f) :=
  named_fits (fun l => by
    split
    · exact refuse_fits s _
    next c _ =>
      have hk : s.Keeps (s.mapLane l (fun x => { x with config := c })) :=
        (mapLane_stays (mapLane_lanesKept s l _ rfl id (fun h => ⟨h, id⟩))).keeps
      exact ite_fits (refuse_fits s _) (hk.fits _))

theorem countP_eq_sum {α : Type} (p : α → Bool) (xs : List α) :
    xs.countP p = (xs.map (fun x => if p x = true then 1 else 0)).sum := by
  induction xs with
  | nil => rfl
  | cons x xs ih => rw [List.countP_cons, List.map_cons, List.sum_cons, ih, Nat.add_comm]

theorem runningCount_le_succ {s t : State} {l : LaneId}
    (h : ∀ m : LaneId, l ≠ m → t.lanes[m].running = true → s.lanes[m].running = true) :
    t.runningCount ≤ s.runningCount + 1 := by
  have hle (m : LaneId) : (if t.lanes[m].running = true then 1 else 0) ≤
      (if s.lanes[m].running = true then 1 else 0) + (if l = m then 1 else 0) := by
    by_cases hm : l = m
    · rw [if_pos hm]; split <;> omega
    · rw [if_neg hm]
      split
      next ht => rw [if_pos (h m hm ht)]
      · exact Nat.zero_le _
  have hsum := List.sum_le_sum (l := allLanes) (fun m _ => hle m)
  rw [List.sum_map_add, sum_lane_one] at hsum
  unfold State.runningCount
  rw [countP_eq_sum, countP_eq_sum]
  exact hsum

/-- R103, R106: a lane begins to run where the reverse depth is within the limit. -/
theorem startLane_costs {s t : State} {l : LaneId} {x : Lane} (hc : OnlyChanges [.lanes, .position] s t)
    (hl : t.lanes = tset s.lanes l x) (hp : t.position = { s.position with encoderFault := t.position.encoderFault })
    (hn : x.nextTag = s.lanes[l].nextTag) (ho : x.state ≠ .off) (hw : s.position.within) : s.Costs 1 0 t := by
  have hother {m : LaneId} (hm : l ≠ m) : t.lanes[m] = s.lanes[m] := by
    rw [hl]
    exact tset_get_ne _ _ _ _ hm
  have hself : t.lanes[l] = x := by
    rw [hl]
    exact tset_get_self _ _ _
  have hi : t.items = s.items := hc .items (by decide)
  have hv : t.verdicts = s.verdicts := hc .verdicts (by decide)
  have ht : t.timers = s.timers := hc .timers (by decide)
  have hr : t.reactions = s.reactions := hc .reactions (by decide)
  have hin : t.inputs = s.inputs := hc .inputs (by decide)
  have hout : t.outputs = s.outputs := hc .outputs (by decide)
  have hnext (m : LaneId) : t.lanes[m].nextTag = s.lanes[m].nextTag := by
    by_cases hm : l = m
    · subst hm; rw [hself, hn]
    · rw [hother hm]
  exact {
    data := {
      position := fun h => by rw [hp]; exact h
      agenda := ⟨[], by rw [hc .agenda (by decide), List.append_nil], nofun⟩
      limit := fun _ _ _ => .inl (by rw [hp]; exact hw)
      timers := fun k h => by rw [ht]; exact h
      reactions := fun k h => by rw [hr]; exact h
      inputs := fun k h => by rw [hin]; exact h
      outputs := fun k h => by rw [hout]; exact h }
    notices := noticesOk_of_changes hc.mono
    link := linkOk_of_changes hc.mono
    records := fun ⟨hitems, hqs, hsch, hoff, hadv, hdis⟩ => by
      refine ⟨hi ▸ hitems, fun m => ?_, ?_, fun m hm => ?_, fun m => ?_, hv ▸ hdis⟩
      · rw [hnext, hi]
        exact hqs m
      · rw [hc .schedule (by decide)]
        exact hsch
      · by_cases hlm : l = m
        · subst hlm
          exact absurd (hself ▸ hm) ho
        · rw [hother hlm] at hm ⊢
          rw [hi, hv]
          exact hoff m hm
      · rw [hnext, hv]
        exact hadv m
    load := by
      have := runningCount_le_succ (s := s) (t := t) (l := l) (fun m hm h => hother hm ▸ h)
      rw [State.load, State.load, hi, hc .agenda (by decide)]
      omega
    inUse := by rw [hi]; exact id
    windows := Nat.le_add_right_of_le (Nat.le_of_eq (windowLoad_congr hi (hc .windows (by decide))))
    entries := by rw [hc .schedule (by decide)]; exact id }

theorem toLaneState_starts {s : State} {l : LaneId} {st : LaneState} (ho : st ≠ .off) (hw : s.position.within) :
    s.Costs 1 0 (s.toLaneState l st) :=
  (startLane_costs (t := s.mapLane l (fun lane => { lane with state := st })) (mapLane_changes s l _).mono rfl rfl rfl ho
    hw).keeps (raiseLane_stays _ l).keeps

theorem within_of_beyondLimit {p : Position} (h : p.beyondLimit = false) : p.within :=
  Int.not_lt.mp (of_decide_eq_false h)

theorem firstFailing_none : ∀ {n : Nat} {cs : List (Status × Bool)}, firstFailing n cs = none → ∀ c ∈ cs, c.2 = true
  | _, [], _, c, hc => absurd hc List.not_mem_nil
  | n, (st, ok) :: rest, h, c, hc => by
    unfold firstFailing at h
    split at h
    next hok =>
      rcases List.mem_cons.mp hc with rfl | hc
      · exact hok
      · exact firstFailing_none h c hc
    · cases h

theorem armLane_costs {s : State} {l : LaneId} (hw : s.position.within) : s.Costs 1 0 (s.armLane l) :=
  (startLane_costs (t := State.mapLane (State.mapLane { s with position := { s.position with encoderFault := false } } l
      (fun lane => { lane with causes := .empty, first := none, untracked := 0, blanked := s.armBlanked l })) l
      (fun lane => { lane with state := .run }))
    (((position_changes s _).mono.trans (mapLane_changes _ l _).mono).trans (mapLane_changes _ l _).mono)
    (tset_tset _ _ _ _) rfl (by rw [mapLane_lanes, tset_get_self]) (by simp) hw).keeps (raiseLane_stays _ l).keeps

theorem reqArm_fits (s : State) (lane : Byte) : s.Fits (s.reqArm lane) :=
  named_fits (fun l => by
    split
    · exact fits_refl s _
    · split
      · exact fits_refl s _
      next hcheck =>
        have hlim := firstFailing_none hcheck (.wrongState, !s.position.beyondLimit) (by simp [State.armChecks])
        exact (armLane_costs (within_of_beyondLimit (by simpa using hlim))).fits (Nat.le_refl _) _)

theorem reqDisarm_fits (s : State) (lane : Byte) : s.Fits (s.reqDisarm lane) :=
  named_fits (fun l => by
    split
    · exact fits_refl s _
    · exact fits_refl s _
    next hrun =>
      split
      next hq => exact (enterOff_keeps (List.length_eq_zero_iff.mp hq)).fits _
      · exact (toLaneState_stays s l (by decide) (fun _ => (running_iff _).mpr (.inl hrun))).keeps.fits _
    · split
      next hq => exact (enterOff_keeps (List.length_eq_zero_iff.mp hq)).fits _
      · split
        · exact refuse_fits s _
        next hlim =>
          exact (toLaneState_starts (by decide) (within_of_beyondLimit (by simpa using hlim))).fits (Nat.le_refl _) _)

theorem reqClear_fits (s : State) (lane : Byte) : s.Fits (s.reqClear lane) :=
  named_fits (fun l => ((discardLane_keeps s l).trans (enterOff_keeps (discardLane_queue s l))).fits _)

end Sys2Proof.Machine
end

section
/-! SUPPORT. What the requests of the other blocks keep, and the dispatch. -/

namespace Sys2Proof.Machine

/-! ### Verdict Unit (R29 to R41) -/

theorem firingsOf_length : ∀ {fs : List FiringField} {xs : List Firing}, firingsOf fs = some xs → xs.length = fs.length
  | [], xs, h => by cases h; rfl
  | f :: fs, xs, h => by
    unfold firingsOf at h
    split at h
    next x ys _ hys =>
      cases h
      rw [List.length_cons, List.length_cons, firingsOf_length hys]
    · cases h

theorem dispositionOf_length {fs : List FiringField} {c : Option ConfirmField} {d : Disposition}
    (h : dispositionOf fs c = some d) : d.firings.length ≤ 4 := by
  unfold dispositionOf at h
  split at h
  · cases h
  next hlen =>
    split at h
    next xs hxs =>
      cases h
      exact Nat.le_trans (Nat.le_of_eq (firingsOf_length hxs)) (Nat.le_of_not_lt hlen)
    next xs k hxs =>
      obtain ⟨c, _, rfl⟩ := Option.map_eq_some_iff.mp h
      exact Nat.le_trans (Nat.le_of_eq (firingsOf_length hxs)) (Nat.le_of_not_lt hlen)
    · cases h

theorem setDisposition_keeps (s : State) (i : Fin 16) {d : Disposition} (hd : d.firings.length ≤ 4) :
    s.Keeps { s with verdicts := { s.verdicts with dispositions := tset s.verdicts.dispositions i d } } := by
  refine .of_lists (verdicts_changes s _).mono (fun _ => id) id (fun ok => ?_)
  obtain ⟨hitems, hqs, hsch, hoff, hadv, hdis⟩ := ok
  refine ⟨hitems, hqs, hsch, hoff, hadv, fun j => ?_⟩
  show ((tset s.verdicts.dispositions i d)[j]).firings.length ≤ 4
  rw [tset_get]
  split
  · exact hd
  · exact hdis j

theorem reqSetDisposition_fits (s : State) (index : Byte) (fs : List FiringField) (present : Byte)
    (c : Option ConfirmField) : s.Fits (s.reqSetDisposition index fs present c) :=
  named_fits (fun i => by
    split
    · exact refuse_fits s _
    · split
      · exact refuse_fits s _
      next d hd => exact ite_fits ((setDisposition_keeps s i (dispositionOf_length hd)).fits _) (refuse_fits s _))

theorem takeDisposition_fits (s : State) (p : List Byte) : s.Fits (s.takeDisposition p) :=
  ite_fits (refuse_fits s _) (sized_fits _ _ (reqSetDisposition_fits s _ _ _ _))

theorem insertAdvance_mem {next : Half} {e x : AdvanceEntry} : ∀ {list : List AdvanceEntry},
    x ∈ insertAdvance next e list → x = e ∨ x ∈ list
  | [], h => .inl (List.mem_singleton.mp h)
  | y :: ys, h => by
    unfold insertAdvance at h
    split at h
    · exact (List.mem_cons.mp h).imp_right (List.mem_cons_of_mem _)
    · split at h
      · exact List.mem_cons.mp h
      · rcases List.mem_cons.mp h with rfl | h
        · exact .inr List.mem_cons_self
        · exact (insertAdvance_mem h).imp_right (List.mem_cons_of_mem _)

/-- R41: an entry joins a list at its place in tag order. -/
theorem insertAdvance_pairwise {next : Half} {e : AdvanceEntry} : ∀ {list : List AdvanceEntry},
    list.Pairwise (tagOrder next) → (insertAdvance next e list).Pairwise (tagOrder next)
  | [], _ => List.pairwise_singleton _ _
  | y :: ys, h => by
    obtain ⟨hy, hys⟩ := List.pairwise_cons.mp h
    unfold insertAdvance
    split
    next he =>
      refine List.pairwise_cons.mpr ⟨fun z hz => ?_, hys⟩
      have := hy z hz
      unfold tagOrder at this ⊢
      rw [← he]
      exact this
    · split
      next hlt =>
        refine List.pairwise_cons.mpr ⟨fun z hz => ?_, h⟩
        rcases List.mem_cons.mp hz with rfl | hz
        · exact hlt
        · exact Nat.lt_trans hlt (hy z hz)
      next hne hge =>
        refine List.pairwise_cons.mpr ⟨fun z hz => ?_, insertAdvance_pairwise hys⟩
        rcases insertAdvance_mem hz with rfl | hz
        · have hd : (y.tag - next).toNat ≠ (z.tag - next).toNat := fun he => hne (by bv_omega)
          unfold tagOrder
          omega
        · exact hy z hz

theorem adviseVerdict_keeps {s : State} {l : LaneId} (hl : s.lanes[l].live = true) {tag : Half}
    (ht : (tag - s.lanes[l].nextTag).toNat ≤ 7) (k : Fin 16) : s.Keeps (s.adviseVerdict l tag k).2 := by
  have ha (m : LaneId) : (s.adviseVerdict l tag k).2.verdicts.advance[m] =
      if l = m then insertAdvance s.lanes[l].nextTag { tag := tag, index := k } s.verdicts.advance[l]
      else s.verdicts.advance[m] := tset_get _ _ _ _
  refine .of_lists (verdicts_changes s _).mono (fun _ => id) id (fun ok => ?_)
  obtain ⟨hitems, hqs, hsch, hoff, hadv, hdis⟩ := ok
  refine ⟨hitems, hqs, hsch, fun m ho => ?_, fun m => ?_, hdis⟩
  · have hne : l ≠ m := fun he => by
      subst he
      have hlive : s.lanes[l].state ≠ .off := of_decide_eq_true hl
      exact hlive ho
    rw [ha, if_neg hne]
    exact hoff m ho
  · rw [ha]
    split
    next he =>
      subst he
      refine ⟨insertAdvance_pairwise (hadv l).1, fun e he => ?_⟩
      rcases insertAdvance_mem he with rfl | he
      · exact ht
      · exact (hadv l).2 e he
    · exact hadv m

theorem bind_follows (it : Item) (k : Fin 16) : it.Follows (it.bind k) := by
  unfold Item.bind
  split
  · exact ⟨rfl, rfl, rfl, rfl, id, id⟩
  · exact ⟨rfl, rfl, rfl, rfl, id, id⟩

theorem verdictFor_fits {s : State} {l : LaneId} (hl : s.lanes[l].live = true) (tag : Half) (k : Fin 16) :
    s.Fits (s.verdictFor l tag k) := by
  unfold State.verdictFor
  split
  · exact ite_fits ((mapRecord_stays s _ (fun it => bind_follows it k)).keeps.fits _) (refuse_fits s _)
  · refine ite_fits (refuse_fits s _) ?_
    split
    next ht => exact (adviseVerdict_keeps hl ht k).fits _
    · exact refuse_fits s _

theorem reqVerdict_fits (s : State) (lane : Byte) (tag : Half) (index : Byte) : s.Fits (s.reqVerdict lane tag index) :=
  named_fits (fun l => named_fits (fun k => by
    split
    next hl => exact verdictFor_fits hl tag k
    · exact refuse_fits s _))

/-! ### Output Driver (R75 to R82) -/

theorem reqSetOutput_fits (s : State) (output role polarity lane : Byte) :
    s.Fits (s.reqSetOutput output role polarity lane) :=
  named_fits (fun o => by
    split
    next r p _ _ =>
      have hk : s.Keeps (s.mapOutput o (fun _ =>
          { role := r, polarity := p, lane := lane, holders := [], latch := false, pulse := none })) :=
        (mapOutput_stays (fun _ => ⟨by simp, by simp, fun _ => ⟨rfl, rfl⟩⟩)).keeps
      exact ite_fits (refuse_fits s _) (ite_fits (refuse_fits s _) (hk.fits _))
    · exact refuse_fits s _)

theorem forceReply_fits {s t : State} (h : s.Keeps t) (o : OutputId) : s.Fits (t.forceReply o) :=
  h.fits _

theorem forceActuator_fits (s : State) (o : OutputId) (active : Bool) (pulse : Half) :
    s.Fits (s.forceActuator o active pulse) := by
  unfold State.forceActuator
  refine ite_fits (refuse_fits s _) (ite_fits (refuse_fits s _) (ite_fits (refuse_fits s _) ?_))
  split
  · exact refuse_fits s _
  next hroom =>
    split
    next hact =>
      refine forceReply_fits ?_ o
      split
      · exact .refl s
      next hno =>
        have htest : s.outputs[o].testHold = false := by simpa using hno
        refine (addHolder_stays ?_ (fun _ => htest)).keeps
        rw [hact, htest] at hroom
        simpa using hroom
    · exact forceReply_fits (release_stays s o .test).keeps o

theorem forceGeneral_fits {s : State} {o : OutputId} (hr : s.outputs[o].role = .general) (active : Bool) (pulse : Half) :
    s.Fits (s.forceGeneral o active pulse) := by
  unfold State.forceGeneral
  split
  · exact forceReply_fits (mapOutput_stays (fun h => h.general hr _ _)).keeps o
  · split
    · exact forceReply_fits (mapOutput_stays (fun h => h.general hr _ _)).keeps o
    · split
      · exact refuse_fits s _
      · exact forceReply_fits (mapOutput_stays (fun h => h.general hr _ _)).keeps o

theorem reqForceOutput_fits (s : State) (output level : Byte) (pulse : Half) :
    s.Fits (s.reqForceOutput output level pulse) :=
  named_fits (fun o => by
    split
    · exact refuse_fits s _
    · refine ite_fits (refuse_fits s _) ?_
      split
      · exact refuse_fits s _
      · exact refuse_fits s _
      · exact forceActuator_fits s o _ pulse
      next hr => exact forceGeneral_fits hr _ pulse)

/-! ### Inputs and belt -/

theorem reqSetInput_fits (s : State) (input role active filter period stable edge : Byte) :
    s.Fits (s.reqSetInput input role active filter period stable edge) :=
  named_fits (fun i => by
    split
    next r a f p e _ _ _ _ _ =>
      split
      · exact refuse_fits s _
      next hstable =>
        have hk : s.Keeps (s.mapInput i (fun x => x.configured r a (f = .high) p stable.toNat e s.pins[i])) :=
          mapInput_keeps (fun _ => ⟨by show 2 ≤ stable.toNat; omega, by show stable.toNat ≤ 16; omega, nofun⟩)
        exact ite_fits (refuse_fits s _) (ite_fits (refuse_fits s _)
          ((hk.costs (reportInhibit_costs _ _)).mono (Nat.le_refl _) (Nat.le_refl _)))
    · exact refuse_fits s _)

theorem not_running_of_allOff {s : State} (h : s.allOff = true) (l : LaneId) : s.lanes[l].running = false := by
  have hl : s.lanes[l].live = false := by simpa using List.all_eq_true.mp h l (mem_allLanes l)
  have hoff : s.lanes[l].state = .off := by simpa [Lane.live] using hl
  rw [Lane.running, hoff]
  rfl

/-- R127, R128: with all lanes OFF the Position Unit may be set anew. -/
theorem setPosition_keeps {s : State} (h : s.allOff = true) {p : Position} (hp : s.position.Ok → p.Ok) :
    s.Keeps { s with position := p } :=
  have hc := position_changes s p
  { data := {
      position := hp
      agenda := ⟨[], (List.append_nil _).symm, nofun⟩
      limit := fun _ l hr => absurd hr (by rw [not_running_of_allOff h l]; exact Bool.false_ne_true)
      timers := fun _ => id
      reactions := fun _ => id
      inputs := fun _ => id
      outputs := fun _ => id }
    notices := id
    link := id
    records := recordsOk_of_changes hc.mono
    load := Nat.le_refl _
    inUse := id
    windows := Nat.le_add_right_of_le (Nat.le_of_eq (windowLoad_congr rfl rfl))
    entries := id }

theorem reqSetEncoder_fits (s : State) (mode : Byte) (rl : Half) (ft : Byte) : s.Fits (s.reqSetEncoder mode rl ft) := by
  unfold State.reqSetEncoder
  split
  · exact refuse_fits s _
  next m _ =>
    split
    next h =>
      exact (setPosition_keeps (p := { s.position with
        mode := m, rl := rl, ft := ft, encoderFault := false, direction := .none }) h
        (fun ok => ok.of_counts ok.1 rfl)).fits _
    · exact refuse_fits s _

theorem reqSetPosition_fits (s : State) (value : Pos) : s.Fits (s.reqSetPosition value) := by
  unfold State.reqSetPosition
  split
  next h =>
    refine (setPosition_keeps (p := { s.position with bp := value, hw := value, direction := .none }) h
      (fun ok => ok.of_counts ?_ rfl)).fits _
    simp [Position.rd]
  · exact refuse_fits s _

/-! ### Timers and reactions -/

theorem reqSetTimer_fits (s : State) (timer : Byte) (period : Half) (mode : Byte) :
    s.Fits (s.reqSetTimer timer period mode) :=
  named_fits (fun t => by
    split
    · exact refuse_fits s _
    next m _ =>
      split
      · exact refuse_fits s _
      next hp =>
        have hpos : 1 ≤ period.toNat := by
          rcases Nat.eq_zero_or_pos period.toNat with h | h
          · exact absurd (BitVec.eq_of_toNat_eq h) hp
          · exact h
        exact (mapTimer_keeps (f := fun x => Timer.stop { x with period := period.toNat, mode := m })
          (fun _ => ⟨hpos, Nat.le_of_lt_succ period.isLt, nofun, fun _ => rfl⟩)).fits _)

theorem reqStartTimer_fits (s : State) (timer : Byte) : s.Fits (s.reqStartTimer timer) :=
  named_fits (fun _ => (mapTimer_keeps (fun h => h.start)).fits _)

theorem reqStopTimer_fits (s : State) (timer : Byte) : s.Fits (s.reqStopTimer timer) :=
  named_fits (fun _ => (mapTimer_keeps (fun h => h.stop)).fits _)

theorem reqSetReaction_fits (s : State) (reaction : Byte) (f : ReactionFields) : s.Fits (s.reqSetReaction reaction f) :=
  named_fits (fun r => by
    split
    next t a m c _ _ _ _ =>
      split
      · exact refuse_fits s _
      next hoff =>
        exact (mapReaction_keeps (f := fun x => { x with trigger := t, action := a, mode := m, chain := c })
          (fun _ => fun h => absurd h hoff)).fits _
    · exact refuse_fits s _)

theorem masked_trigger (x : Reaction) (r : ReactionId) (on off : BitVec 12) : (x.masked r on off).trigger = x.trigger := by
  unfold Reaction.masked
  split
  · rfl
  · split <;> rfl

theorem masked_ok {x : Reaction} {r : ReactionId} {on off : BitVec 12} (h : x.Ok)
    (hon : on.getLsbD r = true → x.trigger ≠ .none) : (x.masked r on off).Ok := by
  unfold Reaction.masked
  split
  next hr => exact fun _ => hon hr
  · split
    · exact nofun
    · exact h

theorem masks_foldl_keeps {on off : BitVec 12} : ∀ (rs : List ReactionId) (s : State),
    (∀ r : ReactionId, on.getLsbD r = true → s.reactions[r].trigger ≠ .none) →
      s.Keeps (rs.foldl (fun acc r => acc.mapReaction r (fun x => x.masked r on off)) s)
  | [], s, _ => .refl s
  | r :: rs, s, h => by
    refine State.Keeps.trans (mapReaction_keeps (fun ok => masked_ok ok (h r))) (masks_foldl_keeps rs _ (fun q hq => ?_))
    rw [mapReaction_reactions, tset_get]
    split
    next he =>
      subst he
      rw [masked_trigger]
      exact h r hq
    · exact h q hq

theorem reqEnableReaction_fits (s : State) (enable disable : Half) : s.Fits (s.reqEnableReaction enable disable) := by
  unfold State.reqEnableReaction
  split
  next on off _ _ =>
    refine ite_fits (refuse_fits s _) ?_
    split
    · exact refuse_fits s _
    next hany =>
      refine (masks_foldl_keeps allReactions s (fun r hr ht => hany ?_)).fits _
      exact List.any_eq_true.mpr ⟨r, mem_allReactions r, by rw [hr, decide_eq_true ht]; rfl⟩
  · exact refuse_fits s _

theorem reqFireReaction_fits (s : State) (reaction : Byte) : s.Fits (s.reqFireReaction reaction) :=
  named_fits (fun r => by
    split
    · exact (performAll_keeps s _).fits _
    · exact fits_refl s _)

/-! ### The dispatch -/

theorem reads_fits {s : State} {a : Answer} (h : a.2 = s) : s.Fits a := by
  unfold State.Fits
  rw [h]
  exact (State.Keeps.refl s).mono (Nat.zero_le _) (Nat.le_refl _)

theorem dispatch_fits (s : State) (kind : Byte) (p : List Byte) : s.Fits (s.dispatch kind p) := by
  unfold State.dispatch
  refine ite_fits (sized_fits _ _ (reads_fits rfl)) ?_
  refine ite_fits (sized_fits _ _ (fits_refl s _)) ?_
  refine ite_fits (sized_fits _ _ (reads_fits (reqGetConfig_state s _ _))) ?_
  refine ite_fits (sized_fits _ _ (reqAckNotice_fits s _)) ?_
  refine ite_fits (sized_fits _ _ (reqSetNotice_fits s _)) ?_
  refine ite_fits (sized_fits _ _ (reqSetLane_fits s _ _)) ?_
  refine ite_fits (sized_fits _ _ (reads_fits (reqGetLane_state s _))) ?_
  refine ite_fits (sized_fits _ _ (reqArm_fits s _)) ?_
  refine ite_fits (sized_fits _ _ (reqDisarm_fits s _)) ?_
  refine ite_fits (sized_fits _ _ (reqClear_fits s _)) ?_
  refine ite_fits (takeDisposition_fits s p) ?_
  refine ite_fits (sized_fits _ _ (reqVerdict_fits s _ _ _)) ?_
  refine ite_fits (sized_fits _ _ (reads_fits (reqGetItem_state s _ _))) ?_
  refine ite_fits (sized_fits _ _ (reads_fits (reqListItems_state s _ _))) ?_
  refine ite_fits (sized_fits _ _ (reqSetOutput_fits s _ _ _ _)) ?_
  refine ite_fits (sized_fits _ _ (reqForceOutput_fits s _ _ _)) ?_
  refine ite_fits (sized_fits _ _ (reqSetInput_fits s _ _ _ _ _ _ _)) ?_
  refine ite_fits (sized_fits _ _ (reqSetEncoder_fits s _ _ _)) ?_
  refine ite_fits (sized_fits _ _ (reqSetPosition_fits s _)) ?_
  refine ite_fits (sized_fits _ _ (reads_fits rfl)) ?_
  refine ite_fits (sized_fits _ _ (reqSetTimer_fits s _ _ _)) ?_
  refine ite_fits (sized_fits _ _ (reqStartTimer_fits s _)) ?_
  refine ite_fits (sized_fits _ _ (reqStopTimer_fits s _)) ?_
  refine ite_fits (sized_fits _ _ (reqSetReaction_fits s _ _)) ?_
  refine ite_fits (sized_fits _ _ (reqEnableReaction_fits s _ _)) ?_
  exact ite_fits (sized_fits _ _ (reqFireReaction_fits s _)) (refuse_fits s _)

end Sys2Proof.Machine
end

section
/-! SUPPORT. What the line, the ends of a command and the resets keep. -/

namespace Sys2Proof.Machine

/-! ### Taking a request (R180 to R183) -/

/-- R178 to R184: the bounds of the line between the end of a reply and the next request taken: requests may wait though
the slot is empty. -/
def Link.Steady (l : Link) : Prop :=
  l.requests.length ≤ 2 ∧ l.badFrames ≤ 65535 ∧ l.overruns ≤ 65535 ∧
    ∀ f, l.transmitter = .reply f ↔ ∃ r, l.slot = some r ∧ r.begun = true ∧ r.frame = f

theorem Link.Ok.steady {l : Link} (h : l.Ok) : l.Steady := by
  obtain ⟨hreq, _, hbad, hover, htrans⟩ := h
  exact ⟨hreq, hbad, hover, htrans⟩

theorem Link.Steady.ok {l : Link} (h : l.Steady) (hs : l.slot = none → l.requests = []) : l.Ok := by
  obtain ⟨hreq, hbad, hover, htrans⟩ := h
  exact ⟨hreq, hs, hbad, hover, htrans⟩

/-- R180: a reply is placed in an empty slot. -/
theorem Link.Steady.reply {l : Link} (h : l.Steady) (hs : l.slot = none) (r : ReplySlot) (hb : r.begun = false)
    (last : Option LastRequest) : Link.Ok { l with slot := some r, last := last } := by
  obtain ⟨hreq, hbad, hover, htrans⟩ := h
  refine ⟨hreq, nofun, hbad, hover, fun f => ⟨fun hf => ?_, fun ⟨q, hq, hqb, _⟩ => ?_⟩⟩
  · obtain ⟨q, hq, _⟩ := (htrans f).mp hf
    rw [hs] at hq
    cases hq
  · cases hq
    rw [hb] at hqb
    cases hqb

/-- What happens between two changes of the line. -/
theorem State.Costs.relink {n w : Nat} {s s' t t' : State} (h1 : OnlyChanges [.link] s s') (h : s'.Costs n w t)
    (h2 : OnlyChanges [.link] t t') (hl : s.link.Ok → t'.link.Ok) : s.Costs n w t' where
  data := ((State.DataKept.of_changes h1.mono).trans h.data).trans (.of_changes h2.mono)
  notices := noticesOk_of_changes h2.mono ∘ h.notices ∘ noticesOk_of_changes h1.mono
  link := hl
  records := recordsOk_of_changes h2.mono ∘ h.records ∘ recordsOk_of_changes h1.mono
  load := by
    have hload {a b : State} (hc : OnlyChanges [.link] a b) : b.load = a.load := by
      rw [State.load, State.load, runningCount_congr (s := a) (hc .lanes (by decide)), hc .items (by decide),
        hc .agenda (by decide)]
    rw [hload h2, ← hload h1]
    exact h.load
  inUse := by
    rw [h2 .items (by decide), ← h1 .items (by decide)]
    exact h.inUse
  windows := by
    rw [windowLoad_congr (h2 .items (by decide)) (h2 .windows (by decide)),
      ← windowLoad_congr (h1 .items (by decide)) (h1 .windows (by decide))]
    exact h.windows
  entries := by
    rw [h2 .schedule (by decide), ← h1 .schedule (by decide)]
    exact h.entries

theorem relink_keeps {s t : State} (hc : OnlyChanges [.link] s t) (hl : s.link.Ok → t.link.Ok) : s.Keeps t :=
  .relink hc (State.Keeps.refl t) (.refl _ t) hl

theorem dispatch_link (s : State) (kind : Byte) (p : List Byte) : (s.dispatch kind p).2.link = s.link :=
  dispatch_changes s kind p .link (by decide)

theorem takeRequest_costs {s t : State} (hc : OnlyChanges [.link] s t) (hs : s.link.Ok → t.link.Steady)
    (hslot : t.link.slot = none) (f : Frame) : s.Costs (1 + s.schedule.used) 0 (t.takeRequest f) := by
  unfold State.takeRequest
  split
  next hdup =>
    refine (relink_keeps (hc.trans (link_changes t _)) (fun ok => ?_)).mono (Nat.zero_le _) (Nat.le_refl _)
    show t.link.replay.Ok
    unfold Link.replay
    split
    next hl =>
      unfold Link.isDuplicate at hdup
      rw [hl] at hdup
      cases hdup
    · exact (hs ok).reply hslot _ rfl _
  · simp only
    have hd := dispatch_fits t f.kind f.payload
    have hu : t.schedule = s.schedule := hc .schedule (by decide)
    unfold State.Fits at hd
    rw [hu] at hd
    refine .relink hc hd (link_changes _ _) (fun ok => ?_)
    show Link.Ok ((t.dispatch f.kind f.payload).2.link.place f _ _)
    rw [dispatch_link]
    exact (hs ok).reply hslot _ rfl _

theorem takeNext_costs {s t : State} (hc : OnlyChanges [.link] s t) (hs : s.link.Ok → t.link.Steady) :
    s.Costs (1 + s.schedule.used) 0 t.takeNext := by
  unfold State.takeNext
  split
  next f rest hreq hslot =>
    refine takeRequest_costs (t := { t with link := { t.link with requests := rest } })
      (hc.trans (link_changes t _)) (fun ok => ?_) hslot f
    obtain ⟨hlen, hbad, hover, htrans⟩ := hs ok
    rw [hreq, List.length_cons] at hlen
    exact ⟨by show rest.length ≤ 2; omega, hbad, hover, htrans⟩
  next r hreq hslot =>
    exact (relink_keeps hc (fun ok => (hs ok).ok (fun h => by rw [hslot] at h; cases h))).mono (Nat.zero_le _)
      (Nat.le_refl _)
  next hreq =>
    exact (relink_keeps hc (fun ok => (hs ok).ok (fun _ => hreq))).mono (Nat.zero_le _) (Nat.le_refl _)

/-! ### Receiving (R177 to R179) -/

theorem satInc_le (limit n : Nat) : satInc limit n ≤ limit :=
  Nat.min_le_left _ _

theorem badFrame_keeps (s : State) : s.Keeps s.badFrame :=
  relink_keeps (link_changes s _) (fun ⟨hreq, hslot, _, hover, htrans⟩ =>
    ⟨hreq, hslot, satInc_le 65535 _, hover, htrans⟩)

theorem receiver_keeps (s : State) (r : Receiver) : s.Keeps { s with link := { s.link with receiver := r } } :=
  relink_keeps (link_changes s _) id

theorem acceptFrame_costs (s : State) (f : Frame) : s.Costs (1 + s.schedule.used) 0 (s.acceptFrame f) := by
  have hn : s.Keeps { s with notices := s.notices.endStall } := (notices_stays s (fun h => h.endStall)).keeps
  let u : State := { s with notices := s.notices.endStall, link := { s.link with receiver := .hunting } }
  have hu : s.Keeps u := hn.trans (receiver_keeps _ .hunting)
  unfold State.acceptFrame
  simp only
  split
  next hlt =>
    refine (hu.costs (takeNext_costs (s := u) (link_changes u _) (fun ok => ?_))).mono (Nat.le_refl _) (Nat.le_refl _)
    obtain ⟨_, hbad, hover, htrans⟩ := ok.steady
    refine ⟨?_, hbad, hover, htrans⟩
    show (s.link.requests ++ [f]).length ≤ 2
    rw [List.length_append]
    exact hlt
  · refine (hu.trans (relink_keeps (link_changes u _) (fun ok => ?_))).mono (Nat.zero_le _) (Nat.le_refl _)
    obtain ⟨hreq, hslot, hbad, _, htrans⟩ := ok
    exact ⟨hreq, hslot, hbad, satInc_le 65535 _, htrans⟩

theorem State.Keeps.request {s t : State} (h : s.Keeps t) : s.Costs (1 + s.schedule.used) 0 t :=
  h.mono (Nat.zero_le _) (Nat.le_refl _)

theorem receive_costs (s : State) (f : Frame) (crc : Half) : s.Costs (1 + s.schedule.used) 0 (s.receive f crc) := by
  unfold State.receive
  split
  · exact acceptFrame_costs s f
  · exact (badFrame_keeps s).request

theorem receiveByte_costs (s : State) (b : Byte) : s.Costs (1 + s.schedule.used) 0 (s.receiveByte b) := by
  unfold State.receiveByte
  split
  · split
    · exact (receiver_keeps s _).request
    · exact (State.Keeps.refl s).request
  · unfold State.assemble
    simp only
    split
    · exact (badFrame_keeps s).request
    · split
      · exact receive_costs s _ _
      · exact (receiver_keeps s _).request

theorem breakFrame_keeps (s : State) : s.Keeps s.breakFrame := by
  unfold State.breakFrame
  split
  · exact .refl s
  · exact badFrame_keeps s

theorem endNotice_keeps (s : State) : s.Keeps s.endNotice := by
  unfold State.endNotice
  split
  next f hf =>
    refine relink_keeps (link_changes s _) (fun ⟨hreq, hslot, hbad, hover, htrans⟩ =>
      ⟨hreq, hslot, hbad, hover, fun g => ⟨nofun, fun h => ?_⟩⟩)
    have := (htrans g).mpr h
    rw [hf] at this
    cases this
  · exact .refl s
  · exact .refl s

/-! ### The ends of a command -/

/-- A command that begins with nothing of a moment left ends with nothing of it left, and keeps the bounds. -/
structure State.Lands (s t : State) : Prop where
  passes : s.Passes t
  ends : s.Bounded 384 → s.agenda = [] → t.agenda = []

/-- What a command does before its moment ends is little. -/
structure State.Brief (s t : State) : Prop where
  passes : s.Passes t
  short : s.Bounded 384 → s.agenda = [] → ∃ w, t.Bounded w ∧ t.load ≤ 4096

theorem State.Costs.brief {n w : Nat} {s t : State} (h : s.Costs n w t) (hn : s.Bounded 384 → n ≤ 3900) :
    s.Brief t where
  passes := h.passes
  short hb ha := ⟨384 + w, h.bounded hb, by
    have := h.load
    have := load_of_empty hb ha
    have := hn hb
    omega⟩

theorem State.Keeps.brief {s t : State} (h : s.Keeps t) : s.Brief t :=
  State.Costs.brief h (fun _ => Nat.zero_le _)

theorem State.Brief.finish {s t : State} (h : s.Brief t) : s.Lands t.finish where
  passes := h.passes.trans (finish_passes t)
  ends hb ha := by
    obtain ⟨w, hw, hl⟩ := h.short hb ha
    exact (finish_ends hw hl).2

theorem State.Brief.done {s t u : State} (h : s.Brief t) (hd : t.done = .next u) : s.Lands u := by
  cases hd
  exact h.finish

theorem State.Brief.stepDone {s t u : State} (h : s.Brief t) (hd : t.stepDone = .next u) : s.Lands u := by
  cases hd
  exact ⟨h.finish.passes.trans (stepEnded_keeps _).passes,
    fun hb ha => keeps_agenda_of_changes (stepEnded_changes _) (h.finish.ends hb ha)⟩

/-- A request or an INHIBIT change. -/
theorem State.Costs.briefInhibit {w : Nat} {s t : State} (h : s.Costs (1 + s.schedule.used) w t) : s.Brief t :=
  h.brief (fun hb => by have := hb.entries; omega)

theorem request_lands {s u : State} {kind seq : Byte} {p : List Byte} (h : s.request kind seq p = .next u) : s.Lands u :=
  (acceptFrame_costs s _).briefInhibit.done h

/-! ### Resets (R187, R188) -/

/-- Both resets: every block at its reset values but these two. -/
def State.resetTo (s : State) (n : Notices) (l : Link) : State :=
  { s.resetBlocks with notices := n, link := l }

theorem softReset_eq (s : State) : s.softReset = s.resetTo s.notices.afterSoftReset s.link.afterSoftReset := rfl

theorem powerOnReset_eq (s : State) (b1 b0 : Level) :
    s.powerOnReset b1 b0 = s.resetTo .reset { Link.reset with baud := baudOf b1 b0 } := rfl

theorem recordsOk_reset (s : State) (n : Notices) (l : Link) :
    (s.resetTo n l).recordsOk := by
  have hq (m : LaneId) : (s.resetTo n l).items.queues[m] = [] := replicate_get _ m
  have hlane (m : LaneId) : (s.resetTo n l).lanes[m] = .reset := replicate_get _ m
  have hadv (m : LaneId) : (s.resetTo n l).verdicts.advance[m] = [] :=
    replicate_get _ m
  have hdis (i : Fin 16) : (s.resetTo n l).verdicts.dispositions[i] =
    { firings := [], confirm := none } := replicate_get _ i
  have hall : (s.resetTo n l).items.all = [] := rfl
  refine ⟨⟨Nat.zero_le _, fun m it h => ?_, ?_, fun it h => ?_⟩, fun m => ?_, ?_, fun m _ => ⟨hq m, hadv m, ?_⟩,
    fun m => ?_, fun i => ?_⟩
  · rw [hq] at h
    cases h
  · rw [hall]
    exact List.nodup_nil
  · rw [hall] at h
    cases h
  · rw [hq]
    exact ⟨fun k a b h => (by cases h), fun it h => (by cases h)⟩
  · exact ⟨Nat.zero_le _, nofun, nofun, List.nodup_nil, nofun⟩
  · rw [hlane]
    rfl
  · rw [hadv]
    exact ⟨.nil, nofun⟩
  · rw [hdis]
    exact Nat.zero_le _

theorem dataOk_reset (s : State) (n : Notices) (l : Link) :
    (s.resetTo n l).dataOk := by
  refine ⟨⟨?_, ?_, ?_, ?_, nofun⟩, ⟨nofun, fun m h => ?_⟩, fun t => ?_, fun r => ?_, fun i => ?_, fun o => ?_⟩
  · show 0 ≤ (BitVec.toInt (0 - 0 : Pos))
    decide
  · exact Nat.zero_le _
  · exact Nat.zero_le _
  · exact Nat.zero_le _
  · have hlane : (s.resetTo n l).lanes[m] = .reset := replicate_get _ m
    rw [hlane] at h
    rcases h with h | h <;> cases h
  · have ht : (s.resetTo n l).timers[t] = .reset := replicate_get _ t
    rw [ht]
    exact ⟨by decide, by decide, nofun, fun _ => rfl⟩
  · have hr : (s.resetTo n l).reactions[r] = .reset := replicate_get _ r
    rw [hr]
    exact nofun
  · have hi : (s.resetTo n l).inputs[i] = .reset := replicate_get _ i
    rw [hi]
    exact ⟨by decide, by decide, nofun⟩
  · have ho : (s.resetTo n l).outputs[o] = .reset := replicate_get _ o
    rw [ho]
    exact ⟨by decide, by decide, fun _ => ⟨rfl, rfl⟩⟩

theorem bounded_reset (s : State) (n : Notices) (l : Link) : (s.resetTo n l).Bounded 0 ∧ (s.resetTo n l).load ≤ 196 := by
  have hq (m : LaneId) : (s.resetTo n l).items.queues[m] = [] := replicate_get _ m
  have hw (i : InputId) : (s.resetTo n l).windows[i] = [] := replicate_get _ i
  have hload : (s.resetTo n l).windowLoad ≤ 0 := by
    unfold State.windowLoad
    rw [List.map_congr_left (g := fun _ => 0) (fun i _ => by rw [hw]; rfl),
      List.map_congr_left (l := allLanes) (g := fun _ => 0) (fun m _ => by rw [hq]; rfl)]
    exact Nat.le_refl _
  have hb : (s.resetTo n l).Bounded 0 := ⟨Nat.zero_le _, Nat.zero_le _, hload, nofun⟩
  exact ⟨hb, load_of_empty hb rfl⟩

theorem Link.Ok.afterSoftReset {l : Link} (h : l.Ok) : l.afterSoftReset.Ok := by
  obtain ⟨_, _, hbad, hover, _⟩ := h
  exact ⟨Nat.zero_le _, fun _ => rfl, hbad, hover, fun f => ⟨nofun, nofun⟩⟩

theorem softReset_brief {s t : State} (hn : s.notices.Ok → t.notices.Ok) (hl : s.link.Ok → t.link.afterSoftReset.Ok) :
    s.Brief t.softReset where
  passes := ⟨fun _ => dataOk_reset t _ _, fun ⟨n, l⟩ => ⟨(hn n).afterSoftReset, hl l⟩, fun _ => recordsOk_reset t _ _⟩
  short _ _ := ⟨0, (bounded_reset t _ _).1, Nat.le_trans (bounded_reset t _ _).2 (by decide)⟩

theorem powerOnReset_brief (s : State) (t : State) (b1 b0 : Level) : s.Brief (t.powerOnReset b1 b0) where
  passes := ⟨fun _ => dataOk_reset t _ _,
    fun _ => ⟨notices_reset_ok, by
      exact ⟨Nat.zero_le _, fun _ => rfl, Nat.zero_le _, Nat.zero_le _, fun f => ⟨nofun, nofun⟩⟩⟩,
    fun _ => recordsOk_reset t _ _⟩
  short _ _ := ⟨0, (bounded_reset t _ _).1, Nat.le_trans (bounded_reset t _ _).2 (by decide)⟩

theorem Link.Ok.ended {l : Link} (h : l.Ok) : Link.Steady { l with transmitter := .idle, slot := none } := by
  obtain ⟨hreq, _, hbad, hover, _⟩ := h
  exact ⟨hreq, hbad, hover, fun f => ⟨nofun, nofun⟩⟩

theorem endReply_brief (s : State) : s.Brief s.endReply := by
  have hnext : s.Brief (State.takeNext { s with link := { s.link with transmitter := .idle, slot := none } }) :=
    (takeNext_costs (link_changes s _) (fun ok => ok.ended)).briefInhibit
  unfold State.endReply
  split
  · simp only
    split
    · split
      · exact softReset_brief id (fun ok => (ok.afterSoftReset : _))
      · exact hnext
    · exact hnext
  · exact (State.Keeps.refl s).brief
  · exact (State.Keeps.refl s).brief

end Sys2Proof.Machine
end

section
/-! SUPPORT. Every command: how it ends, and what it keeps. Settles EveryMomentEnds, StepsKeepTheRegisters,
StepsKeepTheLine and StepsKeepTheRecords. -/

namespace Sys2Proof.Machine

/-! ### Several moments in one command -/

theorem stepCost_le {w : Nat} {s : State} (h : s.Bounded w) : s.stepCost ≤ 640 + w := by
  have := Nat.le_trans (tracked_le_inUse s.items) h.inUse
  have := h.entries
  have := h.windows
  unfold State.stepCost
  omega

theorem transitionCost_le {w : Nat} {s : State} (h : s.Bounded w) : s.transitionCost ≤ 644 + w := by
  have := stepCost_le h
  unfold State.transitionCost
  omega

/-- One moment of several, with nothing left over before it. -/
theorem State.Costs.moment {n v w : Nat} {s t : State} (h : s.Costs n v t) (hn : n ≤ 3900) (hb : s.Bounded w)
    (ha : s.agenda = []) : t.finish.Bounded (w + v) ∧ t.finish.agenda = [] := by
  refine finish_ends (h.bounded hb) ?_
  have := h.load
  have := load_of_empty hb ha
  omega

theorem ended_rests {w : Nat} {s t : State} (h : t.Bounded w ∧ t.agenda = []) :
    (s.ended t).Bounded w ∧ (s.ended t).agenda = [] :=
  ⟨(ended_keeps s t).bounded h.1, keeps_agenda_of_changes (ended_changes s t) h.2⟩

theorem runChannels_passes (n : Nat) : ∀ s : State, s.Passes (State.runChannels n s) := by
  induction n with
  | zero => intro s; exact .refl s
  | succ n ih =>
    intro s
    exact (((sampleChannels_costs s).passes.trans (finish_passes _)).trans (ended_keeps s _).passes).trans (ih _)

theorem runChannels_ends (n : Nat) {w : Nat} (hw : w ≤ 1000) : ∀ {s : State}, s.Bounded w → s.agenda = [] →
    (State.runChannels n s).Bounded w ∧ (State.runChannels n s).agenda = [] := by
  induction n with
  | zero => exact fun hb ha => ⟨hb, ha⟩
  | succ n ih =>
    intro s hb ha
    have hcost := transitionCost_le hb
    have hm := ended_rests (s := s) ((sampleChannels_costs s).moment (by omega) hb ha)
    exact ih hm.1 hm.2

theorem takeLeftover_costs (s : State) (e : Leftover) : s.Costs (s.transitionCost + 26) 1 (s.takeLeftover e) := by
  have hu : s.schedule.used ≤ s.transitionCost := by
    unfold State.transitionCost State.stepCost
    omega
  cases e with
  | channels => exact (sampleChannels_costs s).mono (by omega) (by omega)
  | tick => exact (tick_costs s).mono (by omega) (by omega)
  | input i => exact (takeSample_costs s i).mono (by omega) (Nat.le_refl _)

theorem takeLeftovers_passes (n : Nat) : ∀ s : State, s.Passes (State.takeLeftovers n s) := by
  induction n with
  | zero => intro s; exact .refl s
  | succ n ih =>
    intro s
    unfold State.takeLeftovers
    simp only
    split
    · exact .refl s
    · exact (((((choose_keeps s _).passes.trans (takeLeftover_costs _ _).passes).trans (finish_passes _)).trans
        (ended_keeps _ _).passes)).trans (ih _)

theorem takeLeftovers_ends (n : Nat) : ∀ {w : Nat} {s : State}, w + n ≤ 1000 → s.Bounded w → s.agenda = [] →
    (State.takeLeftovers n s).Bounded (w + n) ∧ (State.takeLeftovers n s).agenda = [] := by
  induction n with
  | zero => exact fun _ hb ha => ⟨hb, ha⟩
  | succ n ih =>
    intro w s hw hb ha
    unfold State.takeLeftovers
    simp only
    split
    · exact ⟨{ hb with windows := Nat.le_trans hb.windows (Nat.le_add_right _ _) }, ha⟩
    next e _ =>
      have hb' := (choose_keeps s s.leftovers.length).bounded hb
      have ha' : (s.choose s.leftovers.length).2.agenda = [] := (choose_changes s _ .agenda (by decide)).trans ha
      have hcost := transitionCost_le hb'
      have hm := ended_rests (s := (s.choose s.leftovers.length).2)
        ((takeLeftover_costs (s.choose s.leftovers.length).2 e).moment (by omega) hb' ha')
      have h := ih (w := w + 1) (by omega) hm.1 hm.2
      rwa [Nat.add_assoc, Nat.add_comm 1 n] at h

theorem settleInputs_keeps (s : State) : s.Keeps (allInputs.foldl State.settleInput s) :=
  State.Keeps.foldl _ settleInput_keeps _ s

theorem endMicro_passes (s : State) : s.Passes s.endMicro :=
  (settleInputs_keeps s).passes.trans (takeLeftovers_passes _ _)

theorem endMicro_ends {s : State} (hb : s.Bounded 384) (ha : s.agenda = []) :
    s.endMicro.Bounded 404 ∧ s.endMicro.agenda = [] :=
  takeLeftovers_ends 20 (w := 384) (by decide) ((settleInputs_keeps s).bounded hb)
    ((OnlyChanges.foldl (bs := [.inputs]) State.settleInput settleInput_changes allInputs s .agenda (by decide)).trans ha)

/-! ### The commands of belt, inputs and time -/

theorem stepForward_brief (s : State) (levels : Level × Level) : s.Brief (s.setChannels levels).stepForward :=
  ((setChannels_keeps s levels).costs (stepForward_costs _)).brief (fun hb =>
    Nat.le_trans (stepCost_le ((setChannels_keeps s levels).bounded hb)) (by decide))

theorem stepReverse_brief (s : State) (levels : Level × Level) : s.Brief (s.setChannels levels).stepReverse :=
  ((setChannels_keeps s levels).costs (stepReverse_costs _)).brief (fun _ => by decide)

theorem decode_brief (s : State) (levels : Level × Level) : s.Brief ((s.setPins levels).decode levels) :=
  ((setPins_keeps s levels).costs (decode_costs _ _)).brief (fun hb =>
    Nat.le_trans (transitionCost_le ((setPins_keeps s levels).bounded hb)) (by decide))

theorem runChannels_brief (s : State) (n : Nat) (c : Channel) : s.Brief (State.runChannels n (s.flipChannel c)) where
  passes := (flipChannel_keeps s c).passes.trans (runChannels_passes _ _)
  short hb ha := by
    have h := runChannels_ends n (w := 384) (by decide) ((flipChannel_keeps s c).bounded hb)
      ((flipChannel_changes s c .agenda (by decide)).trans ha)
    exact ⟨384, h.1, Nat.le_trans (load_of_empty h.1 h.2) (by decide)⟩

theorem openSamples_keeps (s : State) : s.Keeps s.openSamples :=
  .of_registers (openSamples_changes s).mono (fun _ h => h) (fun _ h => h) (fun i h => by
    have hi : s.openSamples.inputs[i] = { s.inputs[i] with mark := .due } := tmap_get _ _ _
    rw [hi]
    exact h)

theorem tsAdvance_keeps (s : State) :
    s.Keeps (State.openSamples { s with position := s.position.advance }).nextMoment :=
  ((advance_keeps_position s).trans (openSamples_keeps _)).trans (nextMoment_keeps _)

theorem State.Keeps.load_le {s t : State} (h : s.Keeps t) : t.load ≤ s.load := by
  have := h.load
  omega

theorem tsAdvance_brief (s : State) : s.Brief
    (State.openSamples { s.endMicro with position := s.endMicro.position.advance }).nextMoment where
  passes := (endMicro_passes s).trans (tsAdvance_keeps s.endMicro).passes
  short hb ha := by
    obtain ⟨hb', ha'⟩ := endMicro_ends hb ha
    have hk := tsAdvance_keeps s.endMicro
    exact ⟨404, hk.bounded hb', Nat.le_trans hk.load_le (Nat.le_trans (load_of_empty hb' ha') (by decide))⟩

theorem offTime_lands {s u : State} {owner : FiringOwner} (h : execOffTime owner s = .next u) : s.Lands u := by
  unfold execOffTime at h
  split at h
  · exact (State.Keeps.refl s).brief.done h
  · split at h
    · exact (offTime_keeps s _).brief.done h
    · exact (State.Keeps.refl s).brief.done h

theorem pulseEnd_lands {s u : State} {o : OutputId} (h : execPulseEnd o s = .next u) : s.Lands u := by
  unfold execPulseEnd at h
  split at h
  · exact (endPulse_keeps s o).brief.done h
  · exact (State.Keeps.refl s).brief.done h

theorem timerExpiry_lands {s u : State} {t : TimerId} (h : execTimerExpiry t s = .next u) : s.Lands u := by
  unfold execTimerExpiry at h
  split at h
  next hdue =>
    have htick : s.position.tickDue = true := by
      unfold State.expiryDue at hdue
      simp only [Bool.and_eq_true] at hdue
      exact hdue.1.1
    have hp : s.Keeps { s with position := { s.position with timersTaken := true } } :=
      .of_position (position_changes s _) (fun h => ⟨h.1, h.2.1, h.2.2.1, h.2.2.2.1, fun _ => htick⟩) (fun _ h => h)
    exact (State.Costs.brief (hp.costs (tickTimers_costs _)) (fun _ => by decide)).done h
  · exact (State.Keeps.refl s).brief.done h

theorem ackTimeout_lands {s u : State} (h : execAckTimeout s = .next u) : s.Lands u := by
  unfold execAckTimeout at h
  split at h
  next hdue =>
    have hk : ∃ k, s.notices.ackTimer = some k := by
      unfold State.timeoutDue at hdue
      cases ht : s.notices.ackTimer with
      | none => rw [ht] at hdue; simp at hdue
      | some k => exact ⟨k, rfl⟩
    obtain ⟨k, hk⟩ := hk
    exact (notices_stays s (n := { s.notices.timeout with ackEarly := s.position.tickDue })
      (fun ok => ok.timeout hk)).keeps.brief.done h
  · exact (State.Keeps.refl s).brief.done h

theorem resetTaken_keeps (s : State) (c : ResetCause) : s.Keeps (s.resetTaken c).2 := by
  unfold State.resetTaken
  split
  · exact .refl s
  · split
    · exact .refl s
    · split
      · exact .refl s
      · exact choose_keeps s 2

theorem powerOnReset_lands {s u : State} {c : ResetCause} {b1 b0 : Level} (h : execPowerOnReset c b1 b0 s = .next u) :
    s.Lands u := by
  unfold execPowerOnReset at h
  simp only at h
  split at h
  · exact (powerOnReset_brief s _ b1 b0).done h
  · cases h
    have ha : (s.resetTaken c).2.agenda = s.agenda := by
      unfold State.resetTaken
      split
      · rfl
      · split
        · rfl
        · split
          · rfl
          · exact choose_changes s 2 .agenda (by decide)
    exact ⟨(resetTaken_keeps s c).passes, fun _ he => ha.trans he⟩

/-! ### Every command -/

theorem exec_lands {c : Instr} {s u : State} (h : exec c s = .next u) : s.Lands u := by
  cases c with
  | powerOnReset cause b1 b0 => exact powerOnReset_lands h
  | softReset => exact (softReset_brief id (fun ok => ok.afterSoftReset)).done h
  | getStatus seq => exact request_lands h
  | reset seq => exact request_lands h
  | getConfig seq kind index => exact request_lands h
  | ackNotice seq number => exact request_lands h
  | setNotice seq settings => exact request_lands h
  | setLane seq lane config => exact request_lands h
  | getLane seq lane => exact request_lands h
  | arm seq lane => exact request_lands h
  | disarm seq lane => exact request_lands h
  | clear seq lane => exact request_lands h
  | setDisposition seq index firings confirm => exact request_lands h
  | verdict seq lane tag index => exact request_lands h
  | getItem seq lane tag => exact request_lands h
  | listItems seq lane start => exact request_lands h
  | setOutput seq output role polarity lane => exact request_lands h
  | forceOutput seq output level pulse => exact request_lands h
  | setInput seq input role active filter period stable edge => exact request_lands h
  | setEncoder seq mode rl ft => exact request_lands h
  | setPosition seq value => exact request_lands h
  | getPosition seq => exact request_lands h
  | setTimer seq timer period mode => exact request_lands h
  | startTimer seq timer => exact request_lands h
  | stopTimer seq timer => exact request_lands h
  | setReaction seq reaction fields => exact request_lands h
  | enableReaction seq enable disable => exact request_lands h
  | fireReaction seq reaction => exact request_lands h
  | unknownKind kind seq payload =>
    have h' : (if isRequestKind kind then s.request kind seq payload else s.badFrame.done) = .next u := h
    split at h'
    · exact request_lands h'
    · exact (badFrame_keeps s).brief.done h'
  | frameReceived kind seq payload crc => exact (receive_costs s _ _).briefInhibit.done h
  | interByteGap => exact (breakFrame_keeps s).brief.done h
  | framingError => exact (breakFrame_keeps s).brief.done h
  | replyEnd => exact (endReply_brief s).done h
  | noticeFrameEnd => exact (endNotice_keeps s).brief.done h
  | noticeSend =>
    have h' : (if s.link.transmitter = .idle ∧ s.link.replyWaits = false then s.sendNotice.done else s.done) =
      .next u := h
    split at h'
    next hidle => exact (sendNotice_keeps hidle.1).brief.done h'
    · exact (State.Keeps.refl s).brief.done h'
  | noticeAdmission => exact (admitAll_stays s).keeps.brief.done h
  | forwardStep => exact (stepForward_brief s _).stepDone h
  | reverseStep =>
    have h' : execReverseStep s = .next u := h
    unfold execReverseStep at h'
    split at h'
    · exact (State.Keeps.refl s).brief.done h'
    · exact (stepReverse_brief s _).stepDone h'
  | illegalTransition => exact (decode_brief s _).stepDone h
  | msTick => exact ((tick_costs s).brief (fun hb => by have := hb.entries; omega)).done h
  | offTime owner => exact offTime_lands h
  | pulseEnd output => exact pulseEnd_lands h
  | timerExpiry timer => exact timerExpiry_lands h
  | ackTimeout => exact ackTimeout_lands h
  | acceptedTransition input => exact (transition_costs s input).briefInhibit.done h
  | runAbandoned input => exact (sampleAccepted_costs s input).briefInhibit.done h
  | byteReceived byte => exact (receiveByte_costs s byte).briefInhibit.done h
  | firstSample input raw => exact (compare_costs s input raw).briefInhibit.done h
  | runSample input => exact (sampleCandidate_costs s input).briefInhibit.done h
  | channelLevelChange channel => exact (runChannels_brief s _ channel.channel).done h
  | tsAdvance => exact (tsAdvance_brief s).done h

/-- The command at the front of the queue leaves it; what the commands keep does not read the queue. -/
theorem step_passes {s t : State} (h : step s = .next t) : s.Passes t := by
  unfold step at h
  split at h
  · cases h
    exact .refl s
  next c rest _ =>
    have hc : State.Passes s { s with pending := rest } := ⟨id, id, id⟩
    exact hc.trans (exec_lands h).passes

/-! ### The obligations -/

/-- A list of records has at most so many OPEN ones. -/
theorem openSum_le_tracked (s : State) :
    (allLanes.map (fun l => openCount s.items.queues[l])).sum ≤ s.items.tracked :=
  Nat.le_add_right_of_le (List.sum_le_sum (fun _ _ => List.countP_le_length))

/-- Settles O56: each event taken lowers the load of the moment (`takeOne_load`), which no command raises above the
bound (`State.Brief`). -/
theorem everyMomentEnds : Obligations.EveryMomentEnds := by
  intro c s t hagenda hitems hentries hwindows h
  refine (exec_lands h).ends ⟨hitems, hentries, ?_, by rw [hagenda]; exact nofun⟩ hagenda
  have := openSum_le_tracked s
  have := tracked_le_inUse s.items
  unfold State.windowLoad
  omega

/-- Settles O58. -/
theorem stepsKeepTheRegisters : Obligations.StepsKeepTheRegisters :=
  fun _ _ h => (step_passes h).data

/-- Settles O59. -/
theorem stepsKeepTheLine : Obligations.StepsKeepTheLine :=
  fun _ _ h => (step_passes h).line

/-- Settles O60. -/
theorem stepsKeepTheRecords : Obligations.StepsKeepTheRecords :=
  fun _ _ h => (step_passes h).records

end Sys2Proof.Machine
end

section
/-! SUPPORT. One step, the state after power-on reset, and the two resets (R25, R29, R41, R70, R187, R188, R193). -/

namespace Sys2Proof.Machine

/-! ### The step -/

/-- Settles O1: both equations are the definition of `step`, by the queue's two shapes. -/
theorem frontCommandRuns : Obligations.FrontCommandRuns := by
  refine ⟨fun c s => rfl, fun s h => ?_⟩
  rw [step, h]

/-! ### The invariants after power-on reset -/

/-- The part after power-on reset is the part reset from there. -/
theorem reset_eq_resetTo : State.reset = State.reset.resetTo .reset .reset := rfl

theorem linkOk_reset : Link.reset.Ok :=
  ⟨by decide, fun _ => rfl, by decide, by decide, fun f => ⟨nofun, fun ⟨_, hr, _⟩ => nomatch hr⟩⟩

/-- An output after reset is UNUSED, so its pin shows the inactive level of an ACTIVE_HIGH output. -/
theorem pinLevel_reset (o : OutputId) : State.reset.pinLevel o = .low := by
  have hout : State.reset.outputs[o] = Output.reset := replicate_get _ o
  rw [State.pinLevel, State.pinActive, hout]
  rfl

/-- Settles O57: the invariants of a reset state, and the reset values read off their definitions. -/
theorem invariantsHoldAtReset : Obligations.InvariantsHoldAtReset := by
  have hdata : State.reset.dataOk := dataOk_reset State.reset .reset .reset
  have hrecords : State.reset.recordsOk := recordsOk_reset State.reset .reset .reset
  have hquiet : State.reset.quiet := ⟨rfl, Or.inr ⟨rfl, rfl⟩⟩
  exact ⟨⟨hdata, ⟨notices_reset_ok, linkOk_reset⟩, hrecords, hquiet, pinLevel_reset⟩,
    ⟨rfl, rfl, rfl, rfl, rfl, rfl, rfl, rfl, rfl, rfl, rfl, rfl, rfl, rfl, rfl, rfl⟩,
    rfl, rfl, rfl, rfl, rfl, rfl, rfl, rfl, rfl, rfl⟩

/-! ### The two resets -/

/-- A reset leaves no event of the moment and nothing to send. -/
theorem quiet_reset (s : State) (n : Notices) (l : Link) (hn : n.hasFrame = false) (hl : l.replyWaits = false) :
    (s.resetTo n l).quiet :=
  ⟨rfl, Or.inr ⟨hl, hn⟩⟩

theorem exec_softReset (s : State) : exec .softReset s = .next s.softReset := by
  have hframe : s.notices.afterSoftReset.hasFrame = false := by
    simp [Notices.hasFrame, Notices.afterSoftReset, Notices.reset]
  have hquiet : s.softReset.quiet := quiet_reset s _ _ hframe rfl
  exact done_quiet _ hquiet

/-- R193: a cause that takes the reset. -/
theorem exec_powerOnReset_taken {s : State} {cause : ResetCause} (b1 b0 : Level) (h : (s.resetTaken cause).1 = true) :
    exec (.powerOnReset cause b1 b0) s = .next ((s.resetTaken cause).2.powerOnReset b1 b0) := by
  have harm : exec (.powerOnReset cause b1 b0) s = execPowerOnReset cause b1 b0 s := rfl
  have hquiet : ((s.resetTaken cause).2.powerOnReset b1 b0).quiet := quiet_reset _ _ _ rfl rfl
  rw [harm, execPowerOnReset, if_pos h, done_quiet _ hquiet]

/-- R193: a cause that does not. -/
theorem exec_powerOnReset_left {s : State} {cause : ResetCause} (b1 b0 : Level) (h : (s.resetTaken cause).1 = false) :
    exec (.powerOnReset cause b1 b0) s = .next (s.resetTaken cause).2 := by
  have harm : exec (.powerOnReset cause b1 b0) s = execPowerOnReset cause b1 b0 s := rfl
  rw [harm, execPowerOnReset, h]
  rfl

theorem resetTaken_long (s : State) {ns : Nat} (h : 1000 ≤ ns) : s.resetTaken (.lowPulse ns) = (true, s) := by
  have hshort : ¬ ns < 200 := by omega
  rw [State.resetTaken, if_neg hshort, if_pos h]

theorem resetTaken_short (s : State) {ns : Nat} (h : ns < 200) : s.resetTaken (.lowPulse ns) = (false, s) := by
  rw [State.resetTaken, if_pos h]

/-- R193: between 200 ns and 1 µs a free value is drawn, and nothing else happens before the reset, if it comes. -/
theorem resetTaken_between (s : State) {ns : Nat} (h : 200 ≤ ns) (h' : ns < 1000) :
    s.resetTaken (.lowPulse ns) = (decide ((s.choose 2).1 = 1), (s.choose 2).2) := by
  have hshort : ¬ ns < 200 := by omega
  have hlong : ¬ 1000 ≤ ns := by omega
  rw [State.resetTaken, if_neg hshort, if_neg hlong]

/-- Settles O2: a reset that is taken ends in `State.powerOnReset`, at once quiet, of the state or of the state with one
free value drawn; the three spans of an nRESET pulse are those of `State.resetTaken`. -/
theorem powerOnResetRestoresEveryBlock : Obligations.PowerOnResetRestoresEveryBlock := by
  intro s cause b1 b0 restored
  have hrestored (u : State) (hpins : u.pins = s.pins) (hpending : u.pending = s.pending)
      (hposition : u.position = s.position) : restored (u.powerOnReset b1 b0) := by
    refine ⟨rfl, rfl, rfl, rfl, rfl, rfl, rfl, rfl, rfl, ?_, rfl, rfl, rfl, rfl, ?_, hpins, hpending⟩
    · rw [← hposition]; rfl
    · cases b1 <;> cases b0 <;> rfl
  refine ⟨fun h => ?_, ?_, ?_⟩
  · have htaken : s.resetTaken cause = (true, s) := by
      obtain rfl | ⟨ns, rfl, hns⟩ := h
      · rfl
      · exact resetTaken_long s hns
    refine ⟨s.powerOnReset b1 b0, ?_, hrestored s rfl rfl rfl⟩
    rw [exec_powerOnReset_taken b1 b0 (by rw [htaken]), htaken]
  · rintro ns rfl hns
    have htaken := resetTaken_short s hns
    rw [exec_powerOnReset_left b1 b0 (by rw [htaken]), htaken]
  · rintro ns rfl hns hns'
    have htaken := resetTaken_between s hns hns'
    by_cases hk : (s.choose 2).1 = 1
    · refine ⟨(s.choose 2).2.powerOnReset b1 b0, ?_, Or.inl (hrestored _ rfl rfl rfl)⟩
      rw [exec_powerOnReset_taken b1 b0 (by rw [htaken, decide_eq_true hk]), htaken]
    · refine ⟨(s.choose 2).2, ?_, Or.inr (choose_changes s 2)⟩
      rw [exec_powerOnReset_left b1 b0 (by rw [htaken, decide_eq_false hk]), htaken]

/-- Settles O3: the soft reset is quiet at once, and each block's value is its definition's. -/
theorem softResetRestoresEveryBlock : Obligations.SoftResetRestoresEveryBlock :=
  fun s => ⟨s.softReset, exec_softReset s, rfl, rfl, rfl, rfl, rfl, rfl, rfl, rfl, rfl, rfl, rfl, rfl, rfl, rfl, rfl, rfl,
    rfl, rfl⟩

end Sys2Proof.Machine
end

section
/-! SUPPORT. The receiver: bytes assembled to frames, frames checked, and requests as the frames that carry them
(R176 to R178, R190 to R192). -/

namespace Sys2Proof.Machine

/-! ### Moments at which nothing is left to do -/

/-- A change of the link that leaves the slot and the transmitter leaves nothing to do. -/
theorem State.quiet.relink {s : State} (h : s.quiet) {l : Link} (ht : l.transmitter = s.link.transmitter)
    (hs : l.slot = s.link.slot) : State.quiet { s with link := l } := by
  have hwaits : l.replyWaits = s.link.replyWaits := by rw [Link.replyWaits, hs]; rfl
  obtain ⟨hagenda, hline⟩ := h
  refine ⟨hagenda, ?_⟩
  show l.transmitter ≠ .idle ∨ (l.replyWaits = false ∧ s.notices.hasFrame = false)
  rw [ht, hwaits]
  exact hline

theorem State.quiet.badFrame {s : State} (h : s.quiet) : s.badFrame.quiet :=
  h.relink rfl rfl

/-! ### Bytes (R177) -/

theorem receiveByte_hunting {s : State} (h : s.link.receiver = .hunting) (b : Byte) :
    s.receiveByte b = if b = 0xD5 then { s with link := { s.link with receiver := .assembling [] } } else s := by
  rw [State.receiveByte, h]

theorem receiveByte_assembling {s : State} {bytes : List Byte} (h : s.link.receiver = .assembling bytes) (b : Byte) :
    s.receiveByte b = s.assemble (bytes ++ [b]) := by
  rw [State.receiveByte, h]

theorem assemble_badLength (s : State) {len : Byte} (rest : List Byte) (h : len.toNat < 2 ∨ 130 < len.toNat) :
    s.assemble (len :: rest) = s.badFrame :=
  if_pos h

/-- A LEN in range: the frame is complete with its last CRC byte, and until then the bytes are kept. -/
theorem assemble_inRange (s : State) {len : Byte} (rest : List Byte) (h : 2 ≤ len.toNat) (h' : len.toNat ≤ 130) :
    s.assemble (len :: rest) =
      if rest.length = len.toNat + 2 then s.receive (frameOf (len :: rest)).1 (frameOf (len :: rest)).2
      else { s with link := { s.link with receiver := .assembling (len :: rest) } } := by
  have hrange : ¬ (len.toNat < 2 ∨ 130 < len.toNat) := by omega
  simp only [State.assemble, byteAt_cons_zero, if_neg hrange, List.length_cons, Nat.succ.injEq]

theorem assemble_keeps (s : State) {len : Byte} {rest : List Byte} (h : 2 ≤ len.toNat) (h' : len.toNat ≤ 130)
    (hmore : rest.length < len.toNat + 2) :
    s.assemble (len :: rest) = { s with link := { s.link with receiver := .assembling (len :: rest) } } := by
  rw [assemble_inRange s rest h h', if_neg (Nat.ne_of_lt hmore)]

theorem byteAt_append_tail (p q : List Byte) : byteAt (p ++ q) p.length = byteAt q 0 := by
  simpa using byteAt_append_right p q 0

/-- The bytes of a frame spell that frame and its CRC. -/
theorem frameOf_bytes {len : Byte} (kind seq hi lo : Byte) {payload : List Byte}
    (h : len.toNat = payload.length + 2) :
    frameOf (len :: kind :: seq :: (payload ++ [hi, lo])) =
      ({ kind := kind, seq := seq, payload := payload }, hi ++ lo) := by
  have hlen : (byteAt (len :: kind :: seq :: (payload ++ [hi, lo])) 0).toNat = payload.length + 2 := h
  have hhi : byteAt (len :: kind :: seq :: (payload ++ [hi, lo])) (payload.length + 3) = hi :=
    byteAt_append_tail payload [hi, lo]
  have hlo : byteAt (len :: kind :: seq :: (payload ++ [hi, lo])) (payload.length + 4) = lo :=
    byteAt_append_right payload [hi, lo] 1
  simp only [frameOf, hlen, hhi, hlo]
  simp

/-- R177: the byte that completes a frame delivers it, with the CRC that came. -/
theorem assemble_completes (s : State) {len : Byte} (kind seq hi lo : Byte) {payload : List Byte}
    (h : len.toNat = payload.length + 2) (h' : len.toNat ≤ 130) :
    s.assemble (len :: kind :: seq :: (payload ++ [hi, lo])) =
      s.receive { kind := kind, seq := seq, payload := payload } (hi ++ lo) := by
  have hfull : (kind :: seq :: (payload ++ [hi, lo])).length = len.toNat + 2 := by
    simp only [List.length_cons, List.length_append, List.length_nil]
    omega
  rw [assemble_inRange s _ (by omega) h', if_pos hfull, frameOf_bytes kind seq hi lo h]

/-! ### Gaps and framing errors (R177) -/

theorem breakFrame_hunting {s : State} (h : s.link.receiver = .hunting) : s.breakFrame = s := by
  rw [State.breakFrame, h]

theorem breakFrame_assembling {s : State} {bytes : List Byte} (h : s.link.receiver = .assembling bytes) :
    s.breakFrame = s.badFrame := by
  rw [State.breakFrame, h]

/-! ### Complete frames (R178) -/

theorem isRequestKind_iff (kind : Byte) : isRequestKind kind = true ↔ 1 ≤ kind.toNat ∧ kind.toNat ≤ 0x3F := by
  simp [isRequestKind]

theorem receive_good (s : State) {f : Frame} {crc : Half} (hc : crc16 f.covered = crc)
    (hk : isRequestKind f.kind = true) : s.receive f crc = s.acceptFrame f :=
  if_pos ⟨hc, hk⟩

theorem receive_bad (s : State) {f : Frame} {crc : Half} (h : ¬ (crc16 f.covered = crc ∧ isRequestKind f.kind = true)) :
    s.receive f crc = s.badFrame :=
  if_neg h

/-- The command that brings a frame with its right CRC. -/
def State.frame (s : State) (kind seq : Byte) (payload : List Byte) : Result :=
  exec (.frameReceived kind seq payload (crc16 (Frame.covered { kind := kind, seq := seq, payload := payload }))) s

/-- R178: a good frame is the request that it carries. -/
theorem frame_eq_request (s : State) {kind : Byte} (seq : Byte) (payload : List Byte)
    (hk : isRequestKind kind = true) : s.frame kind seq payload = s.request kind seq payload :=
  congrArg State.done (receive_good s (f := { kind := kind, seq := seq, payload := payload }) rfl hk)

theorem exec_unknownKind (s : State) (kind seq : Byte) (payload : List Byte) :
    exec (.unknownKind kind seq payload) s = s.frame kind seq payload := by
  by_cases hk : isRequestKind kind = true
  · rw [frame_eq_request s seq payload hk]
    exact if_pos hk
  · have hbad : s.receive { kind := kind, seq := seq, payload := payload }
        (crc16 (Frame.covered { kind := kind, seq := seq, payload := payload })) = s.badFrame :=
      receive_bad s fun ⟨_, h⟩ => hk h
    calc exec (.unknownKind kind seq payload) s = s.badFrame.done := if_neg hk
      _ = s.frame kind seq payload := congrArg State.done hbad.symm

/-! ### The statement -/

/-- R177: in HUNTING and in ASSEMBLING, what one byte does. -/
theorem exec_byteReceived (s : State) (b : Byte) : exec (.byteReceived b) s = (s.receiveByte b).done := rfl

/-- Settles O4: the receiver by its two states, a frame by its check, and each request row as the good frame whose
payload its tables give. -/
theorem bytesAreAssembledAndFramesChecked : Obligations.BytesAreAssembledAndFramesChecked := by
  refine ⟨fun s b hq => ⟨fun hr hb => ?_, fun hr hb => ?_, fun hr hb => ?_, fun hr hb hb' => ?_,
    fun len bytes hr hl hl' hmore => ?_⟩, fun s hq => ⟨fun hr => ?_, fun bytes hr => ?_⟩,
    fun s kind seq payload crc => ⟨fun hq hbad => ?_, fun ⟨hc, hk⟩ => ?_⟩,
    fun s len kind seq hi lo payload hr hl hl' => ?_, fun s seq a b c d e f g h k w => ?_⟩
  · rw [exec_byteReceived, receiveByte_hunting hr, if_neg hb]
    exact done_quiet s hq
  · rw [exec_byteReceived, receiveByte_hunting hr, if_pos hb]
    exact done_quiet _ (hq.relink rfl rfl)
  · rw [exec_byteReceived, receiveByte_assembling hr]
    exact (congrArg State.done (assemble_badLength s [] hb)).trans (done_quiet _ hq.badFrame)
  · have hkeep := assemble_keeps s (rest := []) hb hb' (Nat.zero_lt_succ _)
    rw [exec_byteReceived, receiveByte_assembling hr]
    exact (congrArg State.done hkeep).trans (done_quiet _ (hq.relink rfl rfl))
  · have hkeep := assemble_keeps s (rest := bytes ++ [b]) hl hl' (by simpa using hmore)
    rw [exec_byteReceived, receiveByte_assembling hr]
    exact (congrArg State.done hkeep).trans (done_quiet _ (hq.relink rfl rfl))
  · have hdone : s.breakFrame.done = .next s := by rw [breakFrame_hunting hr, done_quiet s hq]
    exact ⟨hdone, hdone⟩
  · have hdone : s.breakFrame.done = .next s.badFrame := by
      rw [breakFrame_assembling hr, done_quiet _ hq.badFrame]
    exact ⟨hdone, hdone⟩
  · have hnot : ¬ (crc16 (Frame.covered { kind := kind, seq := seq, payload := payload }) = crc ∧
        isRequestKind kind = true) := fun ⟨hc, hk⟩ => hbad ⟨hc, (isRequestKind_iff kind).mp hk⟩
    exact (congrArg State.done (receive_bad s hnot)).trans (done_quiet _ hq.badFrame)
  · exact congrArg State.done (receive_good s hc ((isRequestKind_iff kind).mpr hk))
  · have hbytes : len :: kind :: seq :: (payload ++ [hi]) ++ [lo] = len :: kind :: seq :: (payload ++ [hi, lo]) := by
      simp
    rw [exec_byteReceived, receiveByte_assembling hr, hbytes, assemble_completes s kind seq hi lo hl hl']
    rfl
  · have row {kind : Byte} (hk : isRequestKind kind = true) (payload : List Byte) :
        s.request kind seq payload = s.frame kind seq payload := (frame_eq_request s seq payload hk).symm
    exact ⟨row rfl _, row rfl _, row rfl _, row rfl _, fun n => row rfl _, fun n => row rfl _, row rfl _, row rfl _,
      row rfl _, row rfl _, fun _ _ => row rfl _, row rfl _, row rfl _, row rfl _, row rfl _, row rfl _, row rfl _,
      row rfl _, row rfl _, row rfl _, row rfl _, row rfl _, row rfl _, fun n => row rfl _, row rfl _, row rfl _,
      fun p => exec_unknownKind s a seq p⟩

end Sys2Proof.Machine
end

section
/-! SUPPORT. The bytes of a frame, received one by one (R176, R177). -/

namespace Sys2Proof.Machine

/-- The state whose receiver has taken these bytes after START. -/
def State.assembling (s : State) (bytes : List Byte) : State :=
  { s with link := { s.link with receiver := .assembling bytes } }

theorem State.quiet.assembling {s : State} (h : s.quiet) (bytes : List Byte) : (s.assembling bytes).quiet :=
  h.relink rfl rfl

theorem toNat_natByte {n : Nat} (h : n < 256) : (natByte n).toNat = n := by
  rw [natByte, BitVec.toNat_ofNat]
  exact Nat.mod_eq_of_lt h

theorem feed_cons {s t : State} {b : Byte} (h : exec (.byteReceived b) s = .next t) (bs : List Byte) :
    s.feed (b :: bs) = t.feed bs := by
  rw [State.feed, h]

/-- A byte that does not complete the frame joins those kept. -/
theorem exec_byteReceived_keeps {s : State} (hq : s.quiet) {len : Byte} {rest : List Byte} (h : 2 ≤ len.toNat)
    (h' : len.toNat ≤ 130) (b : Byte) (hmore : rest.length + 1 < len.toNat + 2) :
    exec (.byteReceived b) (s.assembling (len :: rest)) = .next (s.assembling (len :: (rest ++ [b]))) := by
  have hkeep := assemble_keeps (s.assembling (len :: rest)) (rest := rest ++ [b]) h h' (by simpa using hmore)
  exact (congrArg State.done hkeep).trans (done_quiet _ (hq.assembling _))

/-- Bytes that do not complete the frame are kept in the order in which they come. -/
theorem feed_keeps {s : State} (hq : s.quiet) {len : Byte} (h : 2 ≤ len.toNat) (h' : len.toNat ≤ 130)
    (bs last : List Byte) : ∀ rest : List Byte, rest.length + bs.length < len.toNat + 2 →
      (s.assembling (len :: rest)).feed (bs ++ last) = (s.assembling (len :: (rest ++ bs))).feed last := by
  induction bs with
  | nil =>
    intro rest _
    rw [List.nil_append, List.append_nil]
  | cons b bs ih =>
    intro rest hmore
    rw [List.length_cons] at hmore
    have hbyte := exec_byteReceived_keeps hq h h' b (rest := rest) (by omega)
    rw [List.cons_append, feed_cons hbyte, ih (rest ++ [b]) (by simp; omega), List.append_assoc]
    rfl

/-- The receiver's state is forgotten as a frame is delivered. -/
theorem receive_assembling (s : State) (bytes : List Byte) (f : Frame) (crc : Half) :
    (s.assembling bytes).receive f crc = s.receive f crc := rfl

/-- Settles O5: START begins a frame, every byte up to the last is kept, and the last delivers the frame. -/
theorem frameBytesDeliverTheFrame : Obligations.FrameBytesDeliverTheFrame := by
  intro s f hq hr hpayload
  obtain ⟨kind, seq, payload⟩ := f
  let crc := crc16 (Frame.covered { kind := kind, seq := seq, payload := payload })
  let len := natByte (payload.length + 2)
  let hi : Byte := crc.extractLsb' 8 8
  let lo : Byte := crc.extractLsb' 0 8
  have hpayload : payload.length ≤ 128 := hpayload
  have hlen : len.toNat = payload.length + 2 := toNat_natByte (by omega)
  have hbytes : Frame.bytes { kind := kind, seq := seq, payload := payload } =
      0xD5 :: len :: ((kind :: seq :: (payload ++ [hi])) ++ [lo]) := by
    simp [Frame.bytes, Frame.covered, hi, lo, crc, len]
  have hstart : exec (.byteReceived 0xD5) s = .next (s.assembling []) :=
    (congrArg State.done (receiveByte_hunting hr 0xD5)).trans (done_quiet _ (hq.assembling []))
  have hfirst : exec (.byteReceived len) (s.assembling []) = .next (s.assembling [len]) :=
    (congrArg State.done (assemble_keeps (s.assembling []) (rest := []) (by omega) (by omega)
      (Nat.zero_lt_succ _))).trans (done_quiet _ (hq.assembling _))
  have hlast : (s.assembling (len :: kind :: seq :: (payload ++ [hi]))).feed [lo] =
      exec (.frameReceived kind seq payload (hi ++ lo)) s := by
    have happend : len :: kind :: seq :: (payload ++ [hi]) ++ [lo] = len :: kind :: seq :: (payload ++ [hi, lo]) := by
      simp
    calc (s.assembling (len :: kind :: seq :: (payload ++ [hi]))).feed [lo]
        = ((s.assembling _).assemble (len :: kind :: seq :: (payload ++ [hi]) ++ [lo])).done := rfl
      _ = _ := by rw [happend, assemble_completes _ kind seq hi lo hlen (by omega), receive_assembling]; rfl
  have hmiddle := feed_keeps hq (len := len) (by omega) (by omega) (kind :: seq :: (payload ++ [hi])) [lo] []
    (by simp; omega)
  rw [hbytes, feed_cons hstart, feed_cons hfirst, hmiddle, List.nil_append, hlast, half_join]

end Sys2Proof.Machine
end

section
/-! SUPPORT. Frames that wait, overruns and duplicates (R178 to R181), and the end of STALLED (R168, R171). -/

namespace Sys2Proof.Machine

/-- While the slot is full no request is taken. -/
theorem takeNext_waits {s : State} {r : ReplySlot} (h : s.link.slot = some r) : s.takeNext = s := by
  rw [State.takeNext, h]
  cases s.link.requests <;> rfl

/-- R179: a frame that finds the slot full and room in the queue waits. -/
theorem acceptFrame_waits {s : State} {r : ReplySlot} (h : s.link.slot = some r) (hroom : s.link.requests.length < 2)
    (f : Frame) : s.acceptFrame f = { s with
      notices := s.notices.endStall
      link := { s.link with receiver := .hunting, requests := s.link.requests ++ [f] } } := by
  rw [State.acceptFrame]
  exact (if_pos hroom).trans (takeNext_waits h)

/-- R179: a frame that finds the queue full is an overrun. -/
theorem acceptFrame_overrun {s : State} (hfull : 2 ≤ s.link.requests.length) (f : Frame) :
    s.acceptFrame f = { s with
      notices := s.notices.endStall
      link := { s.link with receiver := .hunting, overruns := min 65535 (s.link.overruns + 1) } } := by
  rw [State.acceptFrame]
  exact if_neg (Nat.not_lt.mpr hfull)

/-- R180: a frame that finds queue and slot empty is taken. -/
theorem acceptFrame_taken {s : State} (hq : s.link.requests = []) (hs : s.link.slot = none) (f : Frame) :
    s.acceptFrame f = s.received.takeRequest f := by
  have hroom : s.link.requests.length < Config.requestSize := by rw [hq]; decide
  rw [State.acceptFrame]
  exact (if_pos hroom).trans (takeNext_head s.received f hs hq)

/-- R181: what makes a request a duplicate. -/
theorem isDuplicate_iff (l : Link) (f : Frame) : l.isDuplicate f = true ↔
    f.kind ≠ 0x04 ∧ ∃ r, l.last = some r ∧ r.kind = f.kind ∧ r.seq = f.seq := by
  rw [Link.isDuplicate]
  cases l.last with
  | none => simp
  | some r => simp [and_assoc]

/-- R181: a duplicate is answered from the store. -/
theorem takeRequest_duplicate {s : State} {f : Frame} {r : LastRequest} (hd : s.link.isDuplicate f = true)
    (hr : s.link.last = some r) : s.takeRequest f = { s with
      link := { s.link with slot := some { frame := r.reply, begun := false, resets := false } } } := by
  rw [State.takeRequest, if_pos hd]
  simp only [Link.replay, hr]

/-- R180 to R183, R187: any other request is executed and answered. -/
theorem takeRequest_executed {s : State} {f : Frame} (hd : s.link.isDuplicate f = false) :
    s.takeRequest f = { (s.dispatch f.kind f.payload).2 with
      link := (s.dispatch f.kind f.payload).2.link.place f (f.answer (s.dispatch f.kind f.payload).1)
        (f.kind = 0x02 && f.payload.isEmpty) } := by
  have hnot : ¬ s.link.isDuplicate f = true := by rw [hd]; decide
  rw [State.takeRequest, if_neg hnot]

/-- R184: a reply placed in the slot with no event of the moment left begins at once when the transmitter is IDLE. -/
theorem done_reply {s : State} (ha : s.agenda = []) {r : ReplySlot} (hs : s.link.slot = some r)
    (hb : r.begun = false) : s.done = .next { s with
      link := { s.link with
        slot := some { r with begun := decide (s.link.transmitter = .idle) }
        transmitter := if s.link.transmitter = .idle then .reply r.frame else s.link.transmitter } } := by
  by_cases ht : s.link.transmitter = .idle
  · rw [State.done, finish_reply s ha r hs hb ht, Link.beginReply, hs, if_pos ht, decide_eq_true ht]
  · have hsame : { r with begun := false } = r := by rw [← hb]
    rw [State.done, finish_busy s ha ht, if_neg ht, decide_eq_false ht, hsame, ← hs]

/-- Settles O6: a frame by what it finds in queue and slot, and `Notices.endStall` by its two cases. -/
theorem waitingOverrunAndDuplicateFrames : Obligations.WaitingOverrunAndDuplicateFrames := by
  refine ⟨fun s kind seq payload r ha ht hs hk hk' => ⟨fun hroom => ?_, fun hfull => ?_⟩,
    fun s last payload ha hq hs hl h4 hk hk' => ?_, fun n => ⟨endStall_idle n, fun h => ?_⟩⟩
  · have hframe := frame_eq_request s seq payload ((isRequestKind_iff kind).mpr ⟨hk, hk'⟩)
    refine hframe.trans ?_
    rw [State.request, acceptFrame_waits hs hroom]
    exact done_quiet _ ⟨ha, Or.inl ht⟩
  · have hframe := frame_eq_request s seq payload ((isRequestKind_iff kind).mpr ⟨hk, hk'⟩)
    refine hframe.trans ?_
    rw [State.request, acceptFrame_overrun hfull]
    exact done_quiet _ ⟨ha, Or.inl ht⟩
  · have hframe := frame_eq_request s last.seq payload ((isRequestKind_iff last.kind).mpr ⟨hk, hk'⟩)
    have hdup : s.received.link.isDuplicate { kind := last.kind, seq := last.seq, payload := payload } = true :=
      (isDuplicate_iff _ _).mpr ⟨h4, last, hl, rfl, rfl⟩
    refine hframe.trans ?_
    rw [State.request, acceptFrame_taken hq hs, takeRequest_duplicate hdup hl]
    exact done_reply (r := { frame := last.reply, begun := false, resets := false }) (by exact ha) rfl rfl
  · rw [Notices.endStall, if_pos h, Notices.restartTimer, markAll]
    simp

end Sys2Proof.Machine
end

section
/-! SUPPORT. Unknown kinds, RESET, and payloads of a wrong length (R182, R187, R191, R192). -/

namespace Sys2Proof.Machine

/-! ### Kinds and lengths -/

theorem dispatch_unknown (s : State) {kind : Byte} (p : List Byte) (h : kind ∉ assignedKinds) :
    s.dispatch kind p = s.refuse .unknownKind := by
  simp only [assignedKinds, List.mem_cons, not_or] at h
  simp only [State.dispatch, h, if_false]

/-- The kinds whose payload has one length, with that length (R192). -/
def kindLengths : List (Byte × Nat) :=
  [(0x01, 0), (0x02, 0), (0x03, 2), (0x04, 1), (0x05, 15), (0x08, 38), (0x09, 1), (0x0A, 1), (0x0B, 1), (0x0C, 1),
    (0x11, 4), (0x12, 3), (0x13, 2), (0x18, 4), (0x19, 4), (0x1C, 7), (0x20, 4), (0x21, 4), (0x22, 0), (0x28, 4),
    (0x29, 1), (0x2A, 1), (0x2C, 11), (0x2D, 4), (0x2E, 1)]

/-- A request of such a kind is handed on when its payload has that length. -/
theorem dispatch_sized (s : State) (p : List Byte) :
    ∀ x ∈ kindLengths, ∃ a, s.dispatch x.1 p = s.sized p x.2 a := by
  intro x hx
  fin_cases hx <;> exact ⟨_, rfl⟩

theorem kindLengths_requestKinds : ∀ x ∈ kindLengths, isRequestKind x.1 = true := by
  decide

theorem sized_refused (s : State) {p : List Byte} {n : Nat} (a : Answer) (h : p.length ≠ n) :
    s.sized p n a = s.refuse .badLength :=
  if_neg h

theorem sized_taken (s : State) {p : List Byte} {n : Nat} (a : Answer) (h : p.length = n) : s.sized p n a = a :=
  if_pos h

/-! ### SET_DISPOSITION as a payload (R192) -/

theorem dispatch_takeDisposition (s : State) (p : List Byte) : s.dispatch 0x10 p = s.takeDisposition p := rfl

theorem takeDisposition_short (s : State) {p : List Byte} (h : p.length < 3) :
    s.takeDisposition p = s.refuse .badLength :=
  if_pos h

/-- R192: a payload long enough for its count and its confirm-present byte is measured by them. -/
theorem takeDisposition_sized (s : State) (index n c : Byte) (rest : List Byte) :
    ∃ fs confirm, s.takeDisposition (index :: n :: c :: rest) =
      s.sized (index :: n :: c :: rest) (dispositionLength n c) (s.reqSetDisposition index fs c confirm) := by
  have hlong : ¬ (index :: n :: c :: rest).length < 3 := by
    simp only [List.length_cons]
    omega
  exact ⟨_, _, if_neg hlong⟩

theorem length_dispositionLength_iff (index n c : Byte) (rest : List Byte) :
    (index :: n :: c :: rest).length = dispositionLength n c ↔
      rest.length = 6 * n.toNat + (if c = 0 then 0 else 10) := by
  simp only [dispositionLength, List.length_cons]
  omega

/-- R192: a confirm-present byte above 1 is out of range. -/
theorem reqSetDisposition_present (s : State) (index : Byte) (fs : List FiringField) {present : Byte}
    (c : Option ConfirmField) (h : 1 < present.toNat) : s.reqSetDisposition index fs present c = s.refuse .badValue := by
  rw [State.reqSetDisposition, State.named]
  cases finOf 16 index with
  | none => rfl
  | some i => exact if_pos h

/-! ### The statement -/

/-- R182: a frame of a request kind, taken at once, that is refused. -/
theorem frame_refused {s : State} {kind seq : Byte} {payload : List Byte} {st : Status} (h : s.takesNow kind seq)
    (hk : isRequestKind kind = true) (hreset : (kind = 0x02 && payload.isEmpty) = false)
    (hd : s.received.dispatch kind payload = s.received.refuse st) :
    s.frame kind seq payload = .next (s.answers kind seq [st.code]) :=
  (frame_eq_request s seq payload hk).trans (request_refused s kind seq payload st h hd hreset)

/-- R187: the reply of a RESET is answered OK, and marked. -/
theorem exec_reset {s : State} {seq : Byte} (h : s.takesNow 0x02 seq) :
    let a := s.answers 0x02 seq [0]
    exec (.reset seq) s = .next { a with
      link := { a.link with slot := a.link.slot.map (fun r => { r with resets := true }) } } := by
  have ⟨_, _, _, hagenda⟩ := h
  have htaken : exec (.reset seq) s = State.done { s.received with link := s.link.replied 0x02 seq [0] true } :=
    request_taken s 0x02 seq [] h
  exact htaken.trans (done_reply (r := { frame := _, begun := false, resets := true }) (by exact hagenda) rfl rfl)

/-- Settles O7: the kinds are those of `State.dispatch`, and each length is checked before the request is handed on. -/
theorem unknownKindAndResetAreAnswered : Obligations.UnknownKindAndResetAreAnswered := by
  refine ⟨fun s kind seq payload hs hwf => ?_, fun s seq hs => exec_reset hs, fun s kind seq payload hs => ⟨?_, ?_, ?_⟩⟩
  · simp only [Instr.wellFormed, Bool.and_eq_true, Bool.not_eq_true', List.contains_eq_mem, decide_eq_false_iff_not]
      at hwf
    obtain ⟨⟨hk, hkind⟩, _⟩ := hwf
    have hreset : (kind = 0x02 && payload.isEmpty) = false := by
      have hne : kind ≠ 0x02 := by rintro rfl; exact hkind (by decide)
      rw [decide_eq_false hne, Bool.false_and]
    exact (exec_unknownKind s kind seq payload).trans
      (frame_refused hs hk hreset (dispatch_unknown s.received payload hkind))
  · intro n hn hlen
    obtain ⟨a, ha⟩ := dispatch_sized s.received payload _ hn
    have hreset : (kind = 0x02 && payload.isEmpty) = false := by
      by_cases hk : kind = 0x02
      · subst hk
        have hzero : n = 0 := by simpa using hn
        cases payload with
        | nil => exact absurd hzero.symm hlen
        | cons b bs => rfl
      · rw [decide_eq_false hk, Bool.false_and]
    exact frame_refused (st := .badLength) hs (kindLengths_requestKinds _ hn) hreset
      (ha.trans (sized_refused _ a hlen))
  · rintro rfl hlen
    exact frame_refused (st := .badLength) hs rfl rfl (takeDisposition_short s.received hlen)
  · rintro index n c rest rfl rfl fits
    obtain ⟨fs, confirm, htake⟩ := takeDisposition_sized s.received index n c rest
    have hlength := length_dispositionLength_iff index n c rest
    refine ⟨fun hfits => ?_, fun hfits hc => ?_⟩
    · exact frame_refused (st := .badLength) hs rfl rfl (htake.trans (sized_refused _ _ (mt hlength.mp hfits)))
    · exact frame_refused (st := .badValue) hs rfl rfl
        (htake.trans ((sized_taken _ _ (hlength.mpr hfits)).trans (reqSetDisposition_present _ index fs confirm hc)))

end Sys2Proof.Machine
end

section
/-! SUPPORT. The first of the highest in a list, the Notice Queue's choice of a frame, grants, and the ends of frames
(R161, R167, R180, R184, R187). -/

namespace Sys2Proof.Machine

/-! ### The first of the highest (R161, R163) -/

section
variable {α β : Type} [LinearOrder β] (f : α → β)

/-- The first of those of a list that none exceeds. -/
def firstHighest (xs : List α) : Option α :=
  xs.find? (fun x => xs.all (fun y => decide (f y ≤ f x)))

/-- Some member of a list that is not empty has none above it. -/
theorem exists_highest : ∀ {xs : List α}, xs ≠ [] → ∃ x ∈ xs, ∀ y ∈ xs, f y ≤ f x
  | [], h => absurd rfl h
  | [x], _ => ⟨x, List.mem_singleton_self x, fun y hy => by rw [List.mem_singleton.mp hy]⟩
  | x :: x' :: xs, _ => by
    obtain ⟨z, hz, hmax⟩ := exists_highest (xs := x' :: xs) (List.cons_ne_nil x' xs)
    by_cases hx : f x ≤ f z
    · refine ⟨z, List.mem_cons_of_mem x hz, fun y hy => ?_⟩
      obtain rfl | hy := List.mem_cons.mp hy
      · exact hx
      · exact hmax y hy
    · refine ⟨x, List.mem_cons_self, fun y hy => ?_⟩
      obtain rfl | hy := List.mem_cons.mp hy
      · exact le_refl _
      · exact le_of_lt (lt_of_le_of_lt (hmax y hy) (lt_of_not_ge hx))

theorem firstHighest_none_iff (xs : List α) : firstHighest f xs = none ↔ xs = [] := by
  constructor
  · intro h
    by_contra hne
    obtain ⟨x, hx, hmax⟩ := exists_highest f hne
    exact List.find?_eq_none.mp h x hx (by simpa using hmax)
  · rintro rfl
    rfl

/-- Those before the first of the highest stand below it, and none after it stands above it. -/
theorem firstHighest_some_iff (xs : List α) (x : α) : firstHighest f xs = some x ↔
    ∃ before after, xs = before ++ x :: after ∧ (∀ y ∈ before, f y < f x) ∧ ∀ y ∈ after, f y ≤ f x := by
  rw [firstHighest, List.find?_eq_some_iff_append]
  simp only [List.all_eq_true, decide_eq_true_eq, Bool.not_eq_true', List.all_eq_false, not_le]
  constructor
  · rintro ⟨hmax, before, after, rfl, hlow⟩
    refine ⟨before, after, rfl, fun y hy => ?_, fun y hy => hmax y (by simp [hy])⟩
    obtain ⟨z, hz, hlt⟩ := hlow y hy
    exact lt_of_lt_of_le hlt (hmax z hz)
  · rintro ⟨before, after, rfl, hbefore, hafter⟩
    refine ⟨fun y hy => ?_, before, after, rfl, fun y hy => ⟨x, by simp, hbefore y hy⟩⟩
    obtain hy | hy := List.mem_append.mp hy
    · exact le_of_lt (hbefore y hy)
    · obtain rfl | hy := List.mem_cons.mp hy
      · exact le_refl _
      · exact hafter y hy

end

/-- R161: the first unsent entry. -/
theorem firstUnsent_none_iff (n : Notices) : n.firstUnsent = none ↔ n.unsent = [] :=
  firstHighest_none_iff (fun e : NoticeEntry => n.settings.level e.kind.class) n.unsent

theorem firstUnsent_some_iff (n : Notices) (e : NoticeEntry) : n.firstUnsent = some e ↔
    ∃ before after, n.unsent = before ++ e :: after ∧
      (∀ x ∈ before, n.settings.level x.kind.class < n.settings.level e.kind.class) ∧
      ∀ x ∈ after, n.settings.level x.kind.class ≤ n.settings.level e.kind.class :=
  firstHighest_some_iff (fun e : NoticeEntry => n.settings.level e.kind.class) n.unsent e

/-- R163: the reference taken next. -/
theorem nextRef_none_iff (n : Notices) : n.nextRef = none ↔ n.refs = [] :=
  firstHighest_none_iff (fun r : NoticeRef => n.settings.level r.class) n.refs

theorem nextRef_some_iff (n : Notices) (r : NoticeRef) : n.nextRef = some r ↔
    ∃ before after, n.refs = before ++ r :: after ∧
      (∀ x ∈ before, n.settings.level x.class < n.settings.level r.class) ∧
      ∀ x ∈ after, n.settings.level x.class ≤ n.settings.level r.class :=
  firstHighest_some_iff (fun r : NoticeRef => n.settings.level r.class) n.refs r

/-! ### The Notice Queue's frame (R167) -/

/-- The oldest marked entry loses its mark, and stays where it is. -/
theorem unmarkFirst_append {before : List NoticeEntry} (h : ∀ x ∈ before, x.resend = false) {e : NoticeEntry}
    (he : e.resend = true) (after : List NoticeEntry) :
    unmarkFirst (before ++ e :: after) = before ++ { e with resend := false } :: after := by
  induction before with
  | nil => exact if_pos he
  | cons x xs ih =>
    have hx : ¬ x.resend = true := by rw [h x List.mem_cons_self]; decide
    rw [List.cons_append, unmarkFirst, if_neg hx, ih (fun y hy => h y (List.mem_cons_of_mem x hy)), List.cons_append]

theorem sendNotice_stalled {s : State} (h : s.notices.stalled = true) : s.sendNotice = s :=
  if_pos h

/-- R167, R170: a marked entry is sent again, the oldest first. -/
theorem sendNotice_resends {s : State} (hs : s.notices.stalled = false) {before after : List NoticeEntry}
    {e : NoticeEntry} (hsent : s.notices.sent = before ++ e :: after) (he : e.resend = true)
    (hb : ∀ x ∈ before, x.resend = false) :
    s.sendNotice = { s with
      notices := { s.notices with sent := before ++ { e with resend := false } :: after }
      link := { s.link with transmitter := .notice e.frame } } := by
  have hstalled : ¬ s.notices.stalled = true := by rw [hs]; decide
  have hfind : s.notices.sent.find? (·.resend) = some e := by
    rw [List.find?_eq_some_iff_append]
    exact ⟨he, before, after, hsent, fun x hx => by rw [hb x hx]; rfl⟩
  rw [State.sendNotice, if_neg hstalled, hfind, hsent]
  simp only [unmarkFirst_append hb he after]

/-- R167: with no entry marked and room in the window, the first unsent entry is sent for the first time. -/
theorem sendNotice_first {s : State} (hs : s.notices.stalled = false) (hr : ∀ x ∈ s.notices.sent, x.resend = false)
    (hw : s.notices.sent.length < s.notices.settings.window) {e : NoticeEntry} (he : s.notices.firstUnsent = some e) :
    s.sendNotice = s.sendFirst e := by
  have hstalled : ¬ s.notices.stalled = true := by rw [hs]; decide
  have hfind : s.notices.sent.find? (·.resend) = none :=
    List.find?_eq_none.mpr fun x hx => by rw [hr x hx]; decide
  rw [State.sendNotice, if_neg hstalled, hfind]
  exact (if_pos hw).trans (by rw [he])

/-- R167: what it is to have a frame to send. -/
theorem hasFrame_iff (n : Notices) : n.hasFrame = true ↔ n.stalled = false ∧
    ((∃ e ∈ n.sent, e.resend = true) ∨ ((∀ e ∈ n.sent, e.resend = false) ∧
      n.sent.length < n.settings.window ∧ n.unsent ≠ [])) := by
  simp only [Notices.hasFrame, Bool.and_eq_true, Bool.not_eq_true', Bool.or_eq_true, List.any_eq_true,
    decide_eq_true_eq, List.isEmpty_eq_false_iff]
  refine and_congr_right fun _ => ?_
  by_cases hmark : ∃ e ∈ n.sent, e.resend = true
  · simp only [hmark, true_or]
  · have hnone : ∀ e ∈ n.sent, e.resend = false := fun e he => by
      by_contra h
      exact hmark ⟨e, he, by simpa using h⟩
    simp only [hmark, false_or]
    exact ⟨fun h => ⟨hnone, h⟩, fun ⟨_, h⟩ => h⟩

/-- The first member that satisfies a test, with those before it. -/
theorem exists_first {α : Type} {p : α → Bool} {xs : List α} (h : ∃ x ∈ xs, p x = true) :
    ∃ before x after, xs = before ++ x :: after ∧ p x = true ∧ ∀ y ∈ before, p y = false := by
  obtain ⟨x, hx⟩ := Option.isSome_iff_exists.mp (List.find?_isSome.mpr h)
  obtain ⟨hp, before, after, hxs, hb⟩ := List.find?_eq_some_iff_append.mp hx
  exact ⟨before, x, after, hxs, hp, fun y hy => by simpa using hb y hy⟩

/-- R167: a queue that has a frame sends a marked entry again or the next number for the first time. -/
theorem sendNotice_sends {s : State} (h : s.notices.hasFrame = true) : ∃ e : NoticeEntry,
    ((e ∈ s.notices.sent ∧ e.resend = true ∧ { e with resend := false } ∈ s.sendNotice.notices.sent) ∨
      (e.number = some s.notices.nextNumber ∧ s.sendNotice.notices.sent = s.notices.sent ++ [e])) ∧
    s.sendNotice.link = { s.link with transmitter := .notice e.frame } := by
  obtain ⟨hs, hmark | ⟨hnone, hw, hunsent⟩⟩ := (hasFrame_iff _).mp h
  · obtain ⟨before, e, after, hsent, he, hb⟩ := exists_first hmark
    rw [sendNotice_resends hs hsent he hb]
    exact ⟨e, Or.inl ⟨by simp [hsent], he, by simp⟩, rfl⟩
  · obtain ⟨e, he⟩ := Option.ne_none_iff_exists'.mp (mt (firstUnsent_none_iff _).mp hunsent)
    rw [sendNotice_first hs hnone hw he]
    let e' : NoticeEntry := { e with number := some s.notices.nextNumber, contents := some (s.sentContents e) }
    refine ⟨e', Or.inr ⟨rfl, ?_⟩, flagLinked_link _ _ _⟩
    rw [sendFirst_notices]

/-! ### Grants (R184) -/

theorem grant_busy {s : State} (h : s.link.transmitter ≠ .idle) : s.grant = s :=
  if_pos h

theorem replyWaits_of_slot {l : Link} {r : ReplySlot} (h : l.slot = some r) : l.replyWaits = !r.begun := by
  rw [Link.replyWaits, h]

theorem beginReply_of_slot {l : Link} {r : ReplySlot} (h : l.slot = some r) :
    l.beginReply = { l with slot := some { r with begun := true }, transmitter := .reply r.frame } := by
  rw [Link.beginReply, h]

theorem grant_reply {s : State} (ht : s.link.transmitter = .idle) {r : ReplySlot} (hr : s.link.slot = some r)
    (hb : r.begun = false) : s.grant = { s with
      link := { s.link with slot := some { r with begun := true }, transmitter := .reply r.frame } } := by
  have hidle : ¬ s.link.transmitter ≠ .idle := not_not.mpr ht
  have hwaits : s.link.replyWaits = true := by rw [replyWaits_of_slot hr, hb]; rfl
  rw [State.grant, if_neg hidle, if_pos hwaits, beginReply_of_slot hr]

theorem grant_notice {s : State} (ht : s.link.transmitter = .idle) (hr : s.link.replyWaits = false) :
    s.grant = s.sendNotice := by
  have hidle : ¬ s.link.transmitter ≠ .idle := not_not.mpr ht
  have hwaits : ¬ s.link.replyWaits = true := by rw [hr]; decide
  rw [State.grant, if_neg hidle, if_neg hwaits]

theorem done_rest {s : State} (h : s.agenda = []) : s.done = .next s.grant := by
  rw [State.done, State.finish, settle_empty _ s h]

/-- R167: NOTICE_SEND on a free line, with no event of the moment left. -/
theorem exec_noticeSend {s : State} (ha : s.agenda = []) (ht : s.link.transmitter = .idle)
    (hr : s.link.replyWaits = false) : exec .noticeSend s = .next s.sendNotice := by
  have harm : exec .noticeSend s = s.sendNotice.done := if_pos ⟨ht, hr⟩
  have hquiet : s.sendNotice.quiet := by
    cases hf : s.notices.hasFrame with
    | false =>
      rw [sendNotice_none s hf]
      exact ⟨ha, Or.inr ⟨hr, hf⟩⟩
    | true =>
      obtain ⟨e, _, hlink⟩ := sendNotice_sends hf
      exact ⟨(sendNotice_changes s .agenda (by simp)).trans ha, Or.inl (by rw [hlink]; exact nofun)⟩
  rw [harm, done_quiet _ hquiet]

/-! ### The end of a reply (R180, R187) -/

/-- The state whose reply has left the slot and the line. -/
def State.replyEnded (s : State) : State :=
  { s with link := { s.link with transmitter := .idle, slot := none } }

/-- R187: the soft reset after the reply of a RESET; it does not read the slot or the transmitter. -/
theorem endReply_resets {s : State} {f : Frame} {r : ReplySlot} (ht : s.link.transmitter = .reply f)
    (hs : s.link.slot = some r) (hr : r.resets = true) : s.endReply = s.softReset := by
  rw [State.endReply, ht, hs]
  exact if_pos hr

/-- R180: after any other reply, the next request. -/
theorem endReply_next {s : State} {f : Frame} {r : ReplySlot} (ht : s.link.transmitter = .reply f)
    (hs : s.link.slot = some r) (hr : r.resets = false) : s.endReply = s.replyEnded.takeNext := by
  have hnot : ¬ r.resets = true := by rw [hr]; decide
  rw [State.endReply, ht, hs]
  exact if_neg hnot

theorem takeNext_none {s : State} (h : s.link.requests = []) : s.takeNext = s := by
  rw [State.takeNext, h]

/-- R180: the head of the queue leaves it as the slot is empty. -/
theorem takeNext_cons {s : State} {q : Frame} {rest : List Frame} (hs : s.link.slot = none)
    (hq : s.link.requests = q :: rest) :
    s.takeNext = State.takeRequest { s with link := { s.link with requests := rest } } q := by
  rw [State.takeNext, hq, hs]

/-- R180 to R183: a request that is taken leaves a reply in the slot, and the rest of the link but the record. -/
theorem takeRequest_slot (s : State) (q : Frame) : ∃ reply last,
    (s.takeRequest q).link = { s.link with slot := some reply, last := last } ∧ reply.begun = false ∧
      (s.link.isDuplicate q = false → reply.frame.kind = q.kind + 0x40 ∧ reply.frame.seq = q.seq) := by
  by_cases hd : s.link.isDuplicate q = true
  · obtain ⟨_, r, hr, _⟩ := (isDuplicate_iff _ _).mp hd
    rw [takeRequest_duplicate hd hr]
    exact ⟨_, s.link.last, rfl, rfl, fun h => absurd (hd.symm.trans h) (by decide)⟩
  · rw [Bool.not_eq_true] at hd
    rw [takeRequest_executed hd, dispatch_link]
    exact ⟨_, _, rfl, rfl, fun _ => ⟨rfl, rfl⟩⟩

/-- R184: a request taken on a free line: its reply begins to be sent at the end of the moment. -/
theorem finish_takeRequest {s : State} (ht : s.link.transmitter = .idle) (q : Frame) : ∃ reply : ReplySlot,
    (s.takeRequest q).finish.link.requests = s.link.requests ∧ (s.takeRequest q).finish.link.slot = some reply ∧
      reply.begun = true ∧ (s.takeRequest q).finish.link.transmitter = .reply reply.frame ∧
      (s.link.isDuplicate q = false → reply.frame.kind = q.kind + 0x40 ∧ reply.frame.seq = q.seq) := by
  obtain ⟨r, last, hlink, hb, hframe⟩ := takeRequest_slot s q
  have hsettled : (State.settle Config.momentBound (s.takeRequest q)).link =
      { s.link with slot := some r, last := last } := (settle_changes _ _ .link (by simp)).trans hlink
  have hgrant := grant_reply (s := State.settle Config.momentBound (s.takeRequest q)) (r := r)
    (by rw [hsettled]; exact ht) (by rw [hsettled]) hb
  refine ⟨{ r with begun := true }, ?_, ?_, rfl, ?_, hframe⟩ <;> rw [State.finish, hgrant]
  rw [hsettled]

/-- R184: the end of a notice frame is a grant. -/
theorem exec_noticeFrameEnd {s : State} {f : Frame} (ht : s.link.transmitter = .notice f) (ha : s.agenda = []) :
    exec .noticeFrameEnd s = .next (State.grant { s with link := { s.link with transmitter := .idle } }) := by
  have hend : s.endNotice = { s with link := { s.link with transmitter := .idle } } := by
    rw [State.endNotice, ht]
  exact (congrArg State.done hend).trans (done_rest ha)

/-! ### The statement -/

/-- Settles O8: a grant by its three cases, the end of a reply by what the slot and the queue hold, and the end of a
notice frame as a grant. -/
theorem endsOfFramesGrantTheLine : Obligations.EndsOfFramesGrantTheLine := by
  refine ⟨fun s => ⟨rfl, grant_busy, fun r ht => grant_reply ht, fun ht hr => ⟨fun hf => ?_, fun hf => ?_, fun ha => ?_⟩⟩,
    fun s f r ht hs => ⟨fun hr => ?_, fun hr ha hq hf => ?_, fun hr hq => ?_, fun q rest hr hq => ⟨?_, ?_⟩⟩,
    fun s q => ⟨fun hq hs => ?_, isDuplicate_iff _ _, fun r => takeRequest_duplicate, fun hd => ?_⟩,
    fun s f ht ha => ⟨fun r hs hb => ?_, fun hr hf => ?_, ?_⟩⟩
  · rw [grant_notice ht hr, sendNotice_none s hf]
  · rw [grant_notice ht hr]
    exact sendNotice_sends hf
  · rw [grant_notice ht hr]
    exact exec_noticeSend ha ht hr
  · exact congrArg State.done (endReply_resets ht hs hr)
  · have hend := (endReply_next ht hs hr).trans (takeNext_none (s := s.replyEnded) hq)
    exact (congrArg State.done hend).trans (done_quiet _ ⟨ha, Or.inr ⟨rfl, hf⟩⟩)
  · have hend := (endReply_next ht hs hr).trans (takeNext_none (s := s.replyEnded) hq)
    have hexec : exec .replyEnd s = s.replyEnded.done := congrArg State.done hend
    exact ⟨hexec, fun ha => hexec.trans (done_rest ha)⟩
  · exact congrArg State.done ((endReply_next ht hs hr).trans (takeNext_cons rfl hq))
  · have hend := (endReply_next ht hs hr).trans (takeNext_cons rfl hq)
    obtain ⟨reply, hrequests, hslot, hbegun, htransmitter, hframe⟩ :=
      finish_takeRequest (s := { s.replyEnded with link := { s.replyEnded.link with requests := rest } }) rfl q
    exact ⟨_, reply, congrArg State.done hend, hrequests, hslot, hbegun, htransmitter, hframe⟩
  · exact congrArg State.done (acceptFrame_taken hq hs q)
  · have hreset : (decide (q.kind = 0x02) && q.payload.isEmpty) = decide (q.kind = 0x02 ∧ q.payload = []) := by
      cases q.payload <;> simp
    rw [takeRequest_executed hd, hreset]
    rfl
  · rw [exec_noticeFrameEnd ht ha]
    exact congrArg _ (grant_reply rfl hs hb)
  · rw [exec_noticeFrameEnd ht ha]
    let u : State := { s with link := { s.link with transmitter := .idle } }
    exact congrArg _ ((grant_notice (s := u) rfl hr).trans (sendNotice_none u hf))
  · exact exec_noticeFrameEnd ht ha

end Sys2Proof.Machine
end

section
/-! SUPPORT. The requests that read (R26, R27, R100, R114, R129, R185, R186, R190). -/

namespace Sys2Proof.Machine

/-! ### GET_STATUS, GET_POSITION and GET_LANE -/

/-- R171, R185: the status that a request taken at once reads: STALLED has ended. -/
theorem reqGetStatus_received (s : State) : s.received.reqGetStatus =
    ([(0 : Byte)] ++ [s.lanes[0].state.code, s.lanes[1].state.code, s.lanes[2].state.code, s.lanes[3].state.code] ++
      [s.lanes[0].causes.code, s.lanes[1].causes.code, s.lanes[2].causes.code, s.lanes[3].causes.code] ++
      [natByte (192 - s.items.inUse), natByte (64 - (s.schedule.positionList.length + s.schedule.timeList.length)),
        natByte (s.notices.sent.length + s.notices.unsent.length), natByte s.notices.sent.length,
        flagByte [false, s.inhibit, s.position.encoderFault]] ++
      natHalf s.link.badFrames ++ natHalf s.link.overruns ++
      wordBytes s.position.bp ++ wordBytes s.position.hw ++ wordBytes s.position.ts ++
      [natByte s.notices.missed.input, natByte s.notices.missed.timer, natByte s.notices.missed.reaction,
        natByte s.notices.missed.confirm, 1], s.received) := by
  obtain ⟨hunsent, _, _, hmissed, _, _, hstalled, hsent⟩ := endStall_keeps s.notices
  have hnotices : s.received.notices = s.notices.endStall := rfl
  simp only [State.reqGetStatus, Notices.depth, hnotices, hunsent, hmissed, hstalled, hsent, received_inhibit]
  rfl

/-- R114: the hold condition, by the states of the lane. -/
theorem holdCondition_eq (s : State) (l : LaneId) : s.holdCondition l =
    decide (s.lanes[l].state = .fault ∨ (s.lanes[l].state = .run ∧ s.lanes[l].config.holdMark ≠ 0 ∧
      s.lanes[l].config.holdMark ≤ s.queueCount l)) := by
  rw [State.holdCondition]
  cases s.lanes[l].state <;> simp

theorem reqGetLane_named (s : State) (l : LaneId) :
    s.reqGetLane (natByte l) = ([Status.ok.code, natByte l] ++ s.lanes[l].config.bytes ++ s.laneStateBytes l, s) :=
  named_natByte s l (by decide) _

/-- Settles O9: each of the three requests reads the state as it stands when it is taken. -/
theorem readRequestsReturnTheState : Obligations.ReadRequestsReturnTheState := by
  refine ⟨fun s seq hs => ?_, fun s seq hs => ?_, fun s seq lane hs => ⟨fun h => ?_, ?_⟩⟩
  · exact request_reads s 0x01 seq [] _ hs ((dispatch_getStatus _).trans (reqGetStatus_received s)) rfl
  · have hread := request_reads s 0x22 seq [] _ hs (dispatch_getPosition _) rfl
    refine hread.trans ?_
    have hcode : s.position.direction.code = match s.position.direction with
        | .none => (0 : Byte)
        | .forward => 1
        | .reverse => 2 := by cases s.position.direction <;> rfl
    simp only [received_position, hcode]
    rfl
  · exact request_refused s 0x09 seq _ .badValue hs ((dispatch_getLane _ lane).trans (named_bad _ lane h _)) rfl
  · rintro l rfl x count hold
    have hread := request_reads s 0x09 seq _ _ hs ((dispatch_getLane _ _).trans (reqGetLane_named _ l)) rfl
    refine hread.trans ?_
    have hhold : s.holdCondition l = hold := holdCondition_eq s l
    rw [State.laneStateBytes, received_holdCondition, hhold]
    simp only [List.append_assoc]
    rfl

/-! ### GET_CONFIG (R186) -/

/-- A record that stands under an index. -/
theorem finOf_map_natByte {α : Type} {n : Nat} (i : Fin n) (h : n ≤ 256) (f : Fin n → α) :
    (finOf n (natByte i)).map f = some (f i) := by
  rw [finOf_natByte i h, Option.map_some]

theorem reqGetConfig_read {s : State} {kind index : Byte} {bs : List Byte} (h : s.configRecord kind index = some bs) :
    s.reqGetConfig kind index = ([Status.ok.code, kind, index] ++ bs, s) := by
  rw [State.reqGetConfig, h]

theorem reqGetConfig_none {s : State} {kind index : Byte} (h : s.configRecord kind index = none) :
    s.reqGetConfig kind index = s.refuse .badValue := by
  rw [State.reqGetConfig, h]

theorem configRecord_unknown (s : State) {kind : Byte} (index : Byte) (h : 7 < kind.toNat) :
    s.configRecord kind index = none := by
  have hne (k : Byte) (hk : k.toNat ≤ 7) : kind ≠ k := by rintro rfl; omega
  simp only [State.configRecord, hne 0 (by decide), hne 1 (by decide), hne 2 (by decide), hne 3 (by decide),
    hne 4 (by decide), hne 5 (by decide), hne 6 (by decide), hne 7 (by decide), if_false]

theorem map_finOf_none {α : Type} {n : Nat} {b : Byte} (h : n ≤ b.toNat) (f : Fin n → α) :
    (finOf n b).map f = none := by
  rw [finOf_none h, Option.map_none]

/-- R186: an index beyond the records of its kind. -/
theorem configRecord_beyond (s : State) {kind index : Byte} (h : ((kind = 0 ∨ kind = 2 ∨ kind = 3) ∧ 15 < index.toNat) ∨
    ((kind = 1 ∨ kind = 5) ∧ 3 < index.toNat) ∨ (kind = 6 ∧ 11 < index.toNat)) :
    s.configRecord kind index = none := by
  obtain ⟨rfl | rfl | rfl, hi⟩ | ⟨rfl | rfl, hi⟩ | ⟨rfl, hi⟩ := h
  all_goals exact map_finOf_none hi _

/-- Settles O11: each kind's record, and none for a kind or an index beyond them. -/
theorem getConfigReadsTheRecord : Obligations.GetConfigReadsTheRecord := by
  intro s seq kind index hs reads
  have hreads {bs : List Byte} (h : s.received.configRecord kind index = some bs) : reads bs :=
    request_reads s 0x03 seq _ _ hs ((dispatch_getConfig _ kind index).trans (reqGetConfig_read h)) rfl
  have hrefused (h : s.received.configRecord kind index = none) :
      exec (.getConfig seq kind index) s = .next (s.answers 0x03 seq [3]) :=
    request_refused s 0x03 seq _ .badValue hs ((dispatch_getConfig _ kind index).trans (reqGetConfig_none h)) rfl
  have hsettings : s.received.notices.settings = s.notices.settings := by
    obtain ⟨_, _, hkept, _⟩ := endStall_keeps s.notices
    exact hkept
  refine ⟨?_, ?_, ?_, ?_, ?_, fun h => ?_⟩
  · rintro i rfl
    refine ⟨?_, ?_, ?_⟩ <;> rintro rfl <;> exact hreads (finOf_map_natByte i (by decide) _)
  · rintro i rfl
    refine ⟨?_, ?_⟩ <;> rintro rfl <;> exact hreads (finOf_map_natByte i (by decide) _)
  · rintro i rfl rfl
    exact hreads (finOf_map_natByte i (by decide) _)
  · rintro rfl
    exact hreads rfl
  · rintro rfl
    rw [← hsettings]
    exact hreads rfl
  · obtain hk | hi := h
    · exact hrefused (configRecord_unknown _ index hk)
    · exact hrefused (configRecord_beyond _ hi)

end Sys2Proof.Machine
end

section
/-! SUPPORT. What is read of an item: its record, its summary, and the record of a lane and tag (R26, R27, R190). -/

namespace Sys2Proof.Machine

/-! ### The bytes of a record and of a summary (section 12.3) -/

theorem flagByte_getLsbD (bs : List Bool) : ∀ k : Nat, k < 8 → (flagByte bs).getLsbD k = bs.getD k false := by
  induction bs with
  | nil => intro k _; simp [flagByte]
  | cons b bs ih =>
    intro k hk
    rw [flagByte, BitVec.getLsbD_or, BitVec.getLsbD_shiftLeft]
    cases k with
    | zero => cases b <;> rfl
    | succ k => cases b <;> simp [hk, ih k (by omega)]

theorem lengthBytes_eq (length : Option Pos) : lengthBytes length = wordBytes (length.getD 0xFFFFFFFF) := by
  cases length <;> rfl

theorem storedBytes_eq (stored : Option StoredVerdict) : storedBytes stored = match stored with
    | none => [0xFF, 0xFF]
    | some v => [natByte v.index, v.source.code] := by
  cases stored <;> rfl

theorem resultByte_eq (result : Option Summary) : resultByte result = match result with
    | none => 0xFF
    | some q => q.code := by
  cases result <;> rfl

theorem substituted_eq (it : Item) : it.substituted = match it.committed with
    | none => false
    | some c => c.substituted := rfl

/-- The end of a GET_ITEM reply, by whether the item is committed. -/
theorem replyBytes_tail (it : Item) :
    committedBytes it.committed ++ ([resultByte it.result, it.entryFlag.code, it.commitFlag.code, it.outcomeFlag.code,
      natByte it.firings.length, boolCode it.confirm.isSome, confirmResultCode it.confirmResult] ++
      (it.firings.flatMap (fun f => f.bytes ++ [f.result.code]) ++ confirmSpecBytes it.confirm)) =
    match it.committed with
    | none => [0xFF, 0xFF, resultByte it.result, it.entryFlag.code, it.commitFlag.code, it.outcomeFlag.code, 0, 0, 0]
    | some c =>
      [c.source.code, natByte c.index, resultByte it.result, it.entryFlag.code, it.commitFlag.code,
        it.outcomeFlag.code, natByte c.firings.length, if c.confirm = none then 0 else 1,
        confirmResultCode (c.confirm.map (·.result))] ++
      c.firings.flatMap (fun f => [natByte f.station, f.widthKind.code] ++ wordBytes f.fireOffset ++
        halfBytes f.width ++ [f.result.code]) ++
      (match c.confirm with
        | none => []
        | some k => [natByte k.input, k.expect.code] ++ wordBytes k.openOffset ++ wordBytes k.closeOffset) := by
  cases hc : it.committed with
  | none => simp only [Item.firings, Item.confirm, Item.confirmResult, hc]; rfl
  | some c =>
    cases hk : c.confirm with
    | none => simp only [Item.firings, Item.confirm, Item.confirmResult, hc, hk]; rfl
    | some k => simp only [Item.firings, Item.confirm, Item.confirmResult, hc, hk]; rfl

theorem listIndex_eq (it : Item) : it.listIndex = match it.committed, it.stored with
    | some c, _ => natByte c.index
    | none, some v => if it.state = .opened then natByte v.index else 0xFF
    | none, none => 0xFF := by
  rw [Item.listIndex]
  cases it.committed with
  | some c => rfl
  | none => cases it.stored <;> cases it.state <;> rfl

/-! ### The record of a lane and tag (R26) -/

theorem newest_none_iff (items : List Item) : newest items = none ↔ items = [] := by
  cases items with
  | nil => exact iff_of_true rfl rfl
  | cons it its =>
    rw [newest]
    cases newest its with
    | none => simp
    | some other => by_cases h : other.rid < it.rid <;> simp [h]

/-- The newest of a list is a member of it, and none has a larger serial number. -/
theorem newest_some {items : List Item} : ∀ {it : Item}, newest items = some it →
    it ∈ items ∧ ∀ other ∈ items, other.rid ≤ it.rid := by
  induction items with
  | nil => intro it h; cases h
  | cons x xs ih =>
    intro it h
    rw [newest] at h
    cases hn : newest xs with
    | none =>
      simp only [hn, Option.some.injEq] at h
      subst h
      simp [(newest_none_iff xs).mp hn]
    | some y =>
      obtain ⟨hy, hmax⟩ := ih hn
      by_cases hlt : y.rid < x.rid
      · simp only [hn, hlt, if_true, Option.some.injEq] at h
        subst h
        exact ⟨List.mem_cons_self, List.forall_mem_cons.mpr
          ⟨Nat.le_refl _, fun other ho => Nat.le_trans (hmax other ho) (Nat.le_of_lt hlt)⟩⟩
      · simp only [hn, hlt, if_false, Option.some.injEq] at h
        subst h
        exact ⟨List.mem_cons_of_mem x hy, List.forall_mem_cons.mpr ⟨Nat.le_of_not_lt hlt, hmax⟩⟩

theorem itemOf_queued {s : State} {l : LaneId} {tag : Half} {it : Item}
    (h : s.items.queues[l].find? (fun x => x.tag = tag) = some it) : s.itemOf l tag = some it := by
  rw [State.itemOf, h]

theorem itemOf_retired {s : State} {l : LaneId} {tag : Half}
    (h : s.items.queues[l].find? (fun x => x.tag = tag) = none) :
    s.itemOf l tag = newest (s.items.retired.filter (fun it => it.lane = l ∧ it.tag = tag)) := by
  rw [State.itemOf, h]

/-- R26: a retired record of the lane and tag, when there is one, is found by the largest serial number. -/
theorem itemOf_newest {s : State} {l : LaneId} {tag : Half}
    (h : s.items.queues[l].find? (fun x => x.tag = tag) = none)
    (hsome : ∃ it ∈ s.items.retired, it.lane = l ∧ it.tag = tag) :
    ∃ it ∈ s.items.retired, it.lane = l ∧ it.tag = tag ∧
      (∀ other ∈ s.items.retired, other.lane = l → other.tag = tag → other.rid ≤ it.rid) ∧
      s.itemOf l tag = some it := by
  let found := s.items.retired.filter (fun it => it.lane = l ∧ it.tag = tag)
  have hmem (x : Item) : x ∈ found ↔ x ∈ s.items.retired ∧ x.lane = l ∧ x.tag = tag := by simp [found]
  obtain ⟨x, hx, hlane, htag⟩ := hsome
  have hne : newest found ≠ none := fun hnone =>
    List.ne_nil_of_mem ((hmem x).mpr ⟨hx, hlane, htag⟩) ((newest_none_iff found).mp hnone)
  obtain ⟨it, hit⟩ := Option.ne_none_iff_exists'.mp hne
  obtain ⟨hin, hmax⟩ := newest_some hit
  obtain ⟨hretired, hl, ht⟩ := (hmem it).mp hin
  exact ⟨it, hretired, hl, ht, fun other ho hol hot => hmax other ((hmem other).mpr ⟨ho, hol, hot⟩),
    (itemOf_retired h).trans hit⟩

theorem reqGetItem_read {s : State} {l : LaneId} {tag : Half} {it : Item} (h : s.itemOf l tag = some it) :
    s.reqGetItem (natByte l) tag = (Status.ok.code :: it.replyBytes, s) := by
  rw [State.reqGetItem, named_natByte s l (by decide), h]

theorem reqGetItem_none {s : State} {l : LaneId} {tag : Half} (h : s.itemOf l tag = none) :
    s.reqGetItem (natByte l) tag = s.refuse .unknownItem := by
  rw [State.reqGetItem, named_natByte s l (by decide), h]

/-! ### LIST_ITEMS (R27) -/

theorem reqListItems_full {s : State} {l : LaneId} {start : Byte} (h : (s.items.ofLane l).length < start.toNat) :
    s.reqListItems (natByte l) start = s.refuse .full := by
  rw [State.reqListItems, named_natByte s l (by decide)]
  exact if_pos h

theorem reqListItems_page {s : State} {l : LaneId} {start : Byte} (h : start.toNat ≤ (s.items.ofLane l).length) :
    s.reqListItems (natByte l) start =
      ([Status.ok.code, natByte (s.items.ofLane l).length, start,
          natByte (min 8 ((s.items.ofLane l).length - start.toNat))] ++
        (((s.items.ofLane l).drop start.toNat).take 8).flatMap (·.summaryBytes), s) := by
  have hpage : (((s.items.ofLane l).drop start.toNat).take 8).length =
      min 8 ((s.items.ofLane l).length - start.toNat) := by
    rw [List.length_take, List.length_drop]
  rw [State.reqListItems, named_natByte s l (by decide), ← hpage]
  exact if_neg (Nat.not_lt.mpr h)

/-- Settles O10: the bytes of section 12.3 read off their definitions, and the two requests as reads of the lane's
records. -/
theorem itemReadsReturnRecords : Obligations.ItemReadsReturnRecords := by
  refine ⟨?bytes, fun h w => ⟨rfl, rfl⟩, flagByte_getLsbD,
    ⟨rfl, rfl, rfl, rfl, rfl, rfl, rfl, rfl⟩,
    fun s seq lane tag hs => ⟨fun h => ?_, ?_⟩, fun s seq lane start hs => ⟨fun h => ?_, ?_⟩⟩
  case bytes =>
    intro it covering length result
    refine ⟨?_, ?_⟩
    · have htail := replyBytes_tail it
      rw [resultByte_eq] at htail
      simp only [Item.replyBytes, lengthBytes_eq, storedBytes_eq, resultByte_eq, substituted_eq, List.append_assoc,
        htail]
      rfl
    · simp only [Item.summaryBytes, lengthBytes_eq, resultByte_eq, substituted_eq, listIndex_eq]
      rfl
  · exact request_refused s 0x12 seq _ .badValue hs ((dispatch_getItem _ lane tag).trans (named_bad _ lane h _)) rfl
  · rintro l rfl
    have hread {it : Item} (h : s.itemOf l tag = some it) :
        exec (.getItem seq (natByte l) tag) s = .next (s.answers 0x12 seq (0 :: it.replyBytes)) :=
      request_reads s 0x12 seq _ _ hs ((dispatch_getItem _ _ tag).trans (reqGetItem_read (s := s.received) h)) rfl
    refine ⟨fun it h => hread (itemOf_queued h), fun h hnone => ?_, fun h hsome => ?_⟩
    · have hfound : s.items.retired.filter (fun it => it.lane = l ∧ it.tag = tag) = [] := by simpa using hnone
      have hitem : s.received.itemOf l tag = none := by
        refine (itemOf_retired (s := s.received) h).trans ?_
        exact (newest_none_iff _).mpr hfound
      exact request_refused s 0x12 seq _ .unknownItem hs
        ((dispatch_getItem _ _ tag).trans (reqGetItem_none hitem)) rfl
    · obtain ⟨it, hretired, hl, ht, hmax, hitem⟩ := itemOf_newest h hsome
      exact ⟨it, hretired, hl, ht, hmax, hread hitem⟩
  · exact request_refused s 0x13 seq _ .badValue hs
      ((dispatch_listItems _ lane start).trans (named_bad _ lane h _)) rfl
  · rintro l rfl records
    refine ⟨fun h => ?_, fun h => ?_⟩
    · exact request_refused s 0x13 seq _ .full hs
        ((dispatch_listItems _ _ start).trans (reqListItems_full (s := s.received) h)) rfl
    · exact request_reads s 0x13 seq _ _ hs
        ((dispatch_listItems _ _ start).trans (reqListItems_page (s := s.received) h)) rfl

end Sys2Proof.Machine
end

section
/-! SUPPORT. Trigger events: what they match, and the closures they run (R152, R153). -/

namespace Sys2Proof.Machine

/-! ### Matching (R152) -/

/-- R152: the trigger that an event matches, kind by kind. -/
theorem matchedBy_iff (t : Trigger) (e : TriggerEvent) : t.matchedBy e = true ↔
    ((∃ i edge, e = .input i edge ∧ t = .input i) ∨ (∃ k, e = .timer k ∧ t = .timer k) ∨
      (∃ l q, e = .outcome l q ∧ (t = .outcome Option.none q ∨ t = .outcome (some l) q)) ∨
      ∃ l, e = .laneFault l ∧ t = .laneFault l) := by
  cases e with
  | input j edge => cases t <;> simp [Trigger.matchedBy]
  | timer k => cases t <;> simp [Trigger.matchedBy]
  | laneFault m => cases t <;> simp [Trigger.matchedBy]
  | outcome l q =>
    cases t with
    | outcome lane r => cases lane <;> simp [Trigger.matchedBy, and_comm, @eq_comm _ q r]
    | _ => simp [Trigger.matchedBy]

theorem mem_matching (s : State) (e : TriggerEvent) (r : ReactionId) :
    r ∈ s.matching e ↔ s.reactions[r].enabled = true ∧ s.reactions[r].trigger.matchedBy e = true := by
  simp [State.matching, mem_allReactions]

/-- An event that no enabled reaction waits for. -/
theorem matching_nil_iff (s : State) (e : TriggerEvent) : s.matching e = [] ↔
    ∀ r : ReactionId, s.reactions[r].enabled = true → s.reactions[r].trigger.matchedBy e = false := by
  simp only [List.eq_nil_iff_forall_not_mem, mem_matching, not_and, Bool.not_eq_true]

/-! ### Closures (R153) -/

theorem mem_chained (s : State) (set : List ReactionId) (r : ReactionId) : r ∈ s.chained set ↔
    s.reactions[r].enabled = true ∧ (r ∈ set ∨ ∃ m ∈ set, s.reactions[m].chain.getLsbD r = true) := by
  simp [State.chained, mem_allReactions]

theorem chained_nil (s : State) : s.chained [] = [] := by
  simp [List.eq_nil_iff_forall_not_mem, mem_chained]

theorem closeOver_nil (n : Nat) (s : State) : State.closeOver n s [] = [] := by
  induction n with
  | zero => rfl
  | succ n ih => rw [State.closeOver, chained_nil, ih]

theorem closure_nil (s : State) : s.closure [] = [] :=
  closeOver_nil 12 s

/-- The last round, taken apart. -/
theorem closeOver_succ (n : Nat) (s : State) (set : List ReactionId) :
    State.closeOver (n + 1) s set = s.chained (State.closeOver n s set) := by
  induction n generalizing set with
  | zero => rfl
  | succ n ih => rw [State.closeOver, ih, ← State.closeOver]

/-- A set of enabled reactions stays in the round that is added to it. -/
theorem chained_keeps {s : State} {set : List ReactionId} (h : ∀ r ∈ set, s.reactions[r].enabled = true) :
    set ⊆ s.chained set :=
  fun r hr => (mem_chained s set r).mpr ⟨h r hr, Or.inl hr⟩

theorem chained_enabled {s : State} {set : List ReactionId} {r : ReactionId} (h : r ∈ s.chained set) :
    s.reactions[r].enabled = true :=
  ((mem_chained s set r).mp h).1

theorem closeOver_enabled {s : State} {start : List ReactionId} (h : ∀ r ∈ start, s.reactions[r].enabled = true)
    (n : Nat) : ∀ r ∈ State.closeOver n s start, s.reactions[r].enabled = true := by
  cases n with
  | zero => exact h
  | succ n => exact fun r hr => chained_enabled (by rwa [closeOver_succ] at hr)

theorem closeOver_keeps {s : State} {start : List ReactionId} (h : ∀ r ∈ start, s.reactions[r].enabled = true)
    (n : Nat) : start ⊆ State.closeOver n s start := by
  induction n with
  | zero => exact List.Subset.refl start
  | succ n ih =>
    rw [closeOver_succ]
    exact List.Subset.trans ih (chained_keeps (closeOver_enabled h n))

/-- A further round of a round adds members or adds none. -/
theorem chained_chained (s : State) (set : List ReactionId) :
    (s.chained set).Sublist (s.chained (s.chained set)) := by
  have hkeep := chained_keeps (s := s) (set := s.chained set) fun r hr => chained_enabled hr
  refine List.monotone_filter_right _ fun r hr => ?_
  have hmem : r ∈ s.chained set := List.mem_filter.mpr ⟨mem_allReactions r, hr⟩
  exact (List.mem_filter.mp (hkeep hmem)).2

theorem chained_length_le (s : State) (set : List ReactionId) : (s.chained set).length ≤ 12 :=
  List.length_filter_le _ _

/-- As long as rounds add members, there are as many members as rounds. -/
theorem closeOver_grows (s : State) (start : List ReactionId) (n : Nat)
    (h : s.chained (State.closeOver (n + 1) s start) ≠ State.closeOver (n + 1) s start) :
    n + 1 ≤ (State.closeOver (n + 1) s start).length := by
  induction n with
  | zero =>
    refine List.length_pos_iff.mpr fun hnil => h ?_
    rw [hnil, chained_nil]
  | succ n ih =>
    have hprev : s.chained (State.closeOver (n + 1) s start) ≠ State.closeOver (n + 1) s start := fun heq =>
      h (by rw [closeOver_succ (n + 1), heq, heq])
    have hsub := chained_chained s (State.closeOver n s start)
    rw [← closeOver_succ, ← closeOver_succ] at hsub
    have hlt : (State.closeOver (n + 1) s start).length < (State.closeOver (n + 1 + 1) s start).length :=
      Nat.lt_of_not_le fun hle => hprev (by
        rw [← closeOver_succ]
        exact (hsub.eq_of_length_le hle).symm)
    exact Nat.succ_le_of_lt (Nat.lt_of_le_of_lt (ih hprev) hlt)

/-- R153: after 12 rounds a further one adds nothing, there being 12 reactions. -/
theorem chained_closure (s : State) (start : List ReactionId) : s.chained (s.closure start) = s.closure start := by
  by_contra h
  have hmany : 12 ≤ (State.closeOver 12 s start).length := closeOver_grows s start 11 h
  have hsub := chained_chained s (State.closeOver 11 s start)
  rw [← closeOver_succ] at hsub
  exact h (hsub.eq_of_length_le (Nat.le_trans (chained_length_le s _) hmany)).symm

/-- R153: a set that is closed under chains and holds the start holds the closure. -/
theorem closeOver_least {s : State} {start set : List ReactionId} (hstart : start ⊆ set)
    (hset : ∀ r ∈ set, ∀ q : ReactionId, s.reactions[r].chain.getLsbD q = true → s.reactions[q].enabled = true →
      q ∈ set) (n : Nat) : State.closeOver n s start ⊆ set := by
  induction n with
  | zero => exact hstart
  | succ n ih =>
    rw [closeOver_succ]
    intro q hq
    obtain ⟨henabled, hq | ⟨m, hm, hchain⟩⟩ := (mem_chained s _ q).mp hq
    · exact ih hq
    · exact hset m (ih hm) q hchain henabled

/-- R153: a closure is in ascending index. -/
theorem closure_ascending (s : State) (start : List ReactionId) :
    (s.closure start).Pairwise (fun a b => a.val < b.val) := by
  have hall : allReactions.Pairwise (fun a b => a.val < b.val) := by decide
  rw [← chained_closure]
  exact hall.filter _

/-! ### Trigger events (R152, R153) -/

theorem takeTrigger_unmatched {s : State} {e : TriggerEvent} (h : s.matching e = []) : s.takeTrigger e = s := by
  rw [State.takeTrigger, h, closure_nil]
  rfl

end Sys2Proof.Machine
end

section
/-! SUPPORT. Moments with one event, accepted transitions by the role of the input, and the actions of reactions (R79,
R134, R136 to R141, R153, R154, R165). -/

namespace Sys2Proof.Machine

/-! ### Moments with one event -/

theorem takeOne_single {s : State} {e : Event} (h : s.agenda = [[e]]) : s.takeOne = (s.withAgenda []).handle e := by
  rw [State.takeOne, h]
  show (match takeEvent 0 s.agenda with
    | none => { s with agenda := [] }
    | some (e, rest) => State.handle { s with agenda := rest } e) = _
  rw [h]
  rfl

theorem settle_succ {s : State} (h : s.agenda ≠ []) (n : Nat) : State.settle (n + 1) s = State.settle n s.takeOne := by
  rw [State.settle]
  cases hs : s.agenda with
  | nil => exact absurd hs h
  | cons c cs => rfl

theorem settle_single {s : State} {e : Event} (h : s.agenda = [[e]]) (n : Nat) :
    State.settle (n + 1) s = State.settle n ((s.withAgenda []).handle e) := by
  rw [settle_succ (by rw [h]; exact nofun) n, takeOne_single h]

/-- A moment of one event, which brings no other and leaves nothing to send. -/
theorem done_single {s t : State} {e : Event} (h : s.agenda = [[e]]) (ht : (s.withAgenda []).handle e = t)
    (hq : t.quiet) : s.done = .next t := by
  have ⟨hagenda, _⟩ := hq
  have hgrant : t.grant = t := by
    have hfinish := finish_quiet t hq
    rwa [State.finish, settle_empty _ t hagenda] at hfinish
  have hsettle : State.settle Config.momentBound s = t :=
    (settle_single h 4095).trans (by rw [ht, settle_empty _ t hagenda])
  rw [State.done, State.finish, hsettle, hgrant]

/-! ### Accepted transitions (R134, R136, R137) -/

theorem flip_ne (v : Level) : v.flip ≠ v := by
  cases v <;> decide

theorem runDue_of_awaits {s : State} {i : InputId} {r : Run} (h : s.awaitsSample i r) : s.runDue i = some r :=
  runDue_eq_some.mpr h

/-- R136, R137: ACCEPTED_TRANSITION accepts the level that `State.acceptsAs` names. -/
theorem transition_accepts {s : State} {i : InputId} {level : Level} {c : Capture} (h : s.acceptsAs i level c) :
    s.transition i = (s.showPin i level).accept i level c := by
  obtain ⟨hrun, hfilter, hawaiting, hmark, rfl, rfl⟩ | ⟨r, hawaits, rfl, rfl, hstable⟩ := h
  · have hnoRun : ¬ s.inputs[i].run.isSome = true := by rw [hrun]; decide
    have hdue : ¬ (s.inputs[i].filterOn = true ∨ s.inputs[i].mark ≠ .due) := by
      rw [hfilter, hmark]; decide
    have hwaits : ¬ s.inputs[i].awaiting = true := by rw [hawaiting]; decide
    have hunfiltered : ¬ s.inputs[i].filterOn = true := by rw [hfilter]; decide
    rw [State.transition, if_neg hnoRun, if_neg hdue, State.compare, if_neg hwaits, if_neg hnoRun, hmark]
    exact (if_neg (flip_ne _)).trans (if_neg hunfiltered)
  · have hsome : s.inputs[i].run.isSome = true := by rw [hawaits.1]; rfl
    rw [State.transition, if_pos hsome, State.sampleCandidate, runDue_of_awaits hawaits]
    exact (if_pos rfl).trans (if_pos hstable)

section
variable {s : State} {i : InputId} (level : Level) (c : Capture)

/-! What an accepted transition does, by the role of its input (R138 to R141). -/

theorem accept_unused (h : s.inputs[i].role = .unused) : (s.showPin i level).accept i level c = s.accepted i level := by
  have hrole : (s.showPin i level).inputs[i].role = .unused := h
  rw [State.accept, hrole]
  rfl

theorem accept_entry (h : s.inputs[i].role = .entry) : (s.showPin i level).accept i level c =
    (s.accepted i level).deliverEntry i (s.inputs[i].edgeTo level) c := by
  have hrole : (s.showPin i level).inputs[i].role = .entry := h
  rw [State.accept, hrole]
  rfl

theorem accept_confirm (h : s.inputs[i].role = .confirm) : (s.showPin i level).accept i level c =
    (s.accepted i level).deliverConfirm i (s.inputs[i].edgeTo level) c := by
  have hrole : (s.showPin i level).inputs[i].role = .confirm := h
  rw [State.accept, hrole]
  rfl

theorem accept_inhibit (h : s.inputs[i].role = .inhibit) : (s.showPin i level).accept i level c =
    (s.accepted i level).reportInhibit s.inhibit := by
  have hrole : (s.showPin i level).inputs[i].role = .inhibit := h
  rw [State.accept, hrole]
  rfl

theorem accept_general (h : s.inputs[i].role = .general) : (s.showPin i level).accept i level c =
    (s.accepted i level).deliverGeneral i (s.inputs[i].edgeTo level) c := by
  have hrole : (s.showPin i level).inputs[i].role = .general := h
  rw [State.accept, hrole]
  rfl

end

theorem exec_acceptedTransition {s : State} {i : InputId} {level : Level} {c : Capture} (h : s.acceptsAs i level c) :
    exec (.acceptedTransition i) s = ((s.showPin i level).accept i level c).done :=
  congrArg State.done (transition_accepts h)

theorem accepted_input (s : State) (i : InputId) (level : Level) :
    (s.accepted i level).inputs[i] = { s.inputs[i] with accepted := level, run := none, mark := .taken } := by
  rw [State.accepted]
  exact tset_get_self _ _ _

/-! ### Notices of the other classes (R165) -/

theorem produce_room {s : State} (kind : NoticeKind) (contents : List Byte) (h : s.notices.depth < 24) :
    s.produce kind contents = { s with
      notices := { s.notices with
        unsent := s.notices.unsent ++
          [{ kind := kind, contents := some (contents ++ [natByte (s.notices.missed.get kind.class)]), link := .none
             number := none, resend := false }]
        missed := s.notices.missed.set kind.class 0 } } :=
  if_pos h

theorem produce_full {s : State} (kind : NoticeKind) (contents : List Byte) (h : 24 ≤ s.notices.depth) :
    s.produce kind contents = { s with
      notices := { s.notices with
        missed := s.notices.missed.set kind.class (min 255 (s.notices.missed.get kind.class + 1)) } } :=
  if_neg (Nat.not_lt.mpr h)

/-! ### Edges of GENERAL inputs (R141) -/

theorem deliverGeneral_ignored {s : State} {i : InputId} {e : Edge} (c : Capture)
    (h : s.inputs[i].edge.takes e = false) : s.deliverGeneral i e c = s := by
  have hnot : ¬ s.inputs[i].edge.takes e = true := by rw [h]; decide
  rw [State.deliverGeneral, if_neg hnot]

theorem deliverGeneral_silent {s : State} {i : InputId} {e : Edge} (c : Capture)
    (h : s.inputs[i].edge.takes e = true) (hn : s.notices.settings.inputsOn.getLsbD i = false) :
    s.deliverGeneral i e c = s.push [.trigger (.input i e)] := by
  have hnot : ¬ s.notices.settings.inputsOn.getLsbD i = true := by rw [hn]; decide
  rw [State.deliverGeneral, if_pos h, if_neg hnot]

theorem deliverGeneral_notice {s : State} {i : InputId} {e : Edge} (c : Capture)
    (h : s.inputs[i].edge.takes e = true) (hn : s.notices.settings.inputsOn.getLsbD i = true) :
    s.deliverGeneral i e c = (s.produce .input (natByte i :: e.code :: (wordBytes c.bp ++ wordBytes c.ts))).push
      [.trigger (.input i e)] := by
  rw [State.deliverGeneral, if_pos h, if_pos hn]

/-! ### The actions (R79, R154) -/

theorem performAll_link (s : State) (c : List ReactionId) : (s.performAll c).link = s.link :=
  performAll_changes s c .link (by simp)

/-- Settles O19: matching by kinds, a trigger as the closure of what it matches, closures as the fixpoint that twelve
rounds reach, and the edge of a GENERAL input as a moment of one trigger. -/
theorem triggersAreTakenByTheirClosures : Obligations.TriggersAreTakenByTheirClosures := by
  refine ⟨fun s e r => ?_, fun s e => ⟨rfl, takeTrigger_unmatched⟩, fun s c => rfl, fun s start h => ⟨?_, ?_, ?_, ?_⟩,
    ?edge⟩
  · rw [mem_matching, matchedBy_iff]
  · exact fun r hr => closeOver_keeps h 12 hr
  · intro r hr q hchain hq
    rw [← chained_closure]
    exact (mem_chained s _ q).mpr ⟨hq, Or.inr ⟨r, hr, hchain⟩⟩
  · exact fun set hstart hset r hr => closeOver_least hstart hset 12 hr
  · exact closure_ascending s start
  case edge =>
    intro s i level c ha ht hrole hedge hsilent haccepts e t hquiet
    have htakes : (s.accepted i level).inputs[i].edge.takes (s.inputs[i].edgeTo level) = true := by
      rw [accepted_input]
      show s.inputs[i].edge.takes _ = true
      rw [hedge]
      rfl
    have hdeliver := (accept_general level c hrole).trans (deliverGeneral_silent c htakes hsilent)
    have hpushed : ((s.accepted i level).push [.trigger e]).agenda = [[.trigger e]] := by
      show s.agenda ++ [[Event.trigger e]] = _
      rw [ha, List.nil_append]
    have hback : ((s.accepted i level).push [.trigger e]).withAgenda [] = s.accepted i level := by
      rw [← ha]
      rfl
    have hbusy : t.link.transmitter ≠ .idle := by
      rw [performAll_link]
      exact ht
    rw [exec_acceptedTransition haccepts, hdeliver]
    exact done_single hpushed (congrArg (fun u => u.handle (.trigger e)) hback) ⟨hquiet, Or.inl hbusy⟩

/-- An action on a GENERAL output. -/
theorem mapGeneral_eq (s : State) (o : OutputId) (f : Output → Output) : s.mapGeneral o f =
    if s.outputs[o].role = .general then { s with outputs := tset s.outputs o (f s.outputs[o]) } else s := rfl

theorem laneHold_rests {s : State} {l : LaneId} (h : s.lanes[l].running = false) : s.laneHold l = s := by
  have hnot : ¬ s.lanes[l].running = true := by rw [h]; decide
  exact if_neg hnot

/-- R109, R154: LANE_HOLD of a running lane. -/
theorem laneHold_faults {s : State} {l : LaneId} (h : s.lanes[l].running = true) :
    s.laneHold l = (s.struck l .reaction).push [.trigger (.laneFault l)] := by
  have htake : s.takeCause l .reaction = s.enterFault l .reaction := by
    rw [State.takeCause]
    obtain hs | hs := (running_iff _).mp h <;> rw [hs]
  exact (if_pos h).trans (htake.trans ((enterFault_eq s l .reaction).trans (if_neg (by decide))))

/-- R111: the lane that has taken a cause, but for its notice flag. -/
theorem struck_lane (s : State) (l : LaneId) (c : Cause) :
    (s.struck l c).lanes[l].sansNotice = Lane.sansNotice { s.lanes[l] with
      state := .fault, causes := CauseSet.empty.add c, first := some c
      struck := some { full := s.lanes[l].state = .run && s.noRoom l, stepped := false } } := by
  rw [State.struck, toLaneState_lane, mapLane_lanes, tset_get_self]

theorem struck_sameRecords (s : State) (l : LaneId) (c : Cause) : s.sameRecords (s.struck l c) :=
  toLaneState_sameRecords _ l .fault

/-- Settles O20: `State.perform` by its actions. -/
theorem actionsDoTheirEffect : Obligations.ActionsDoTheirEffect := by
  intro s r
  refine ⟨fun h => ?_, fun o h => ?_, fun o h => ?_, fun o ms h => ?_, fun l h hl => ?_, fun l h hl => ?_,
    fun contents h => ?_⟩
  · rw [State.perform, h]
  · rw [State.perform, h]
    rfl
  · rw [State.perform, h]
    rfl
  · rw [State.perform, h]
    show s.outPulse o ms = _
    rw [State.outPulse]
    cases hin : s.inhibit with
    | true => simp
    | false => simp [mapGeneral_eq, State.endTime]
  · have hidle : s.lanes[l].running = false := by
      obtain hl | hl := hl <;> rw [Lane.running, hl] <;> rfl
    rw [State.perform, h]
    exact laneHold_rests hidle
  · have hrunning : s.lanes[l].running = true := (running_iff _).mpr hl
    have hperform : s.perform r = (s.struck l .reaction).push [.trigger (.laneFault l)] := by
      rw [State.perform, h]
      exact laneHold_faults hrunning
    have hlane : (s.perform r).lanes[l].sansNotice = (s.struck l .reaction).lanes[l].sansNotice := by
      rw [hperform, push_lane]
    rw [struck_lane] at hlane
    refine ⟨congrArg Lane.state hlane, congrArg Lane.first hlane, ?_, ?_⟩
    · rw [hperform]
      exact (struck_sameRecords s l .reaction).trans (sameRecords_of_items rfl)
    · have hagenda : (s.struck l .reaction).agenda = s.agenda := (struck_stays s l .reaction).sheds.agenda
      rw [hperform, ← hagenda]
      rfl
  · have hperform : s.perform r = s.produce .reaction contents := by
      obtain ⟨h, rfl⟩ | ⟨h, rfl⟩ := h <;> rw [State.perform, h] <;> rfl
    rw [hperform]
    by_cases hroom : s.notices.depth < 24
    · rw [produce_room _ _ hroom, if_pos hroom]
      rfl
    · rw [produce_full _ _ (Nat.le_of_not_lt hroom), if_neg hroom]
      rfl

end Sys2Proof.Machine
end

section
/-! SUPPORT. What the events of a moment keep, replies that stay in the slot, and FIRE_REACTION (R153, R158, R180,
R183). -/

namespace Sys2Proof.Machine

/-! ### What the events of a moment keep -/

/-- A relation that the choice of an event and every event keep holds from the beginning of a moment to its end. -/
theorem settle_relates {R : State → State → Prop} (refl : ∀ s, R s s)
    (trans : ∀ {s t u}, R s t → R t u → R s u) (own : ∀ {s t}, OnlyChanges [.choices, .agenda] s t → R s t)
    (handle : ∀ s e, R s (s.handle e)) (n : Nat) : ∀ s : State, R s (State.settle n s) := by
  have takeOne (s : State) : R s s.takeOne := by
    have hchoose := choose_changes s s.agenda.length
    rw [State.takeOne]
    show R s (match takeEvent (s.choose s.agenda.length).1 (s.choose s.agenda.length).2.agenda with
      | none => { (s.choose s.agenda.length).2 with agenda := [] }
      | some (e, rest) => State.handle { (s.choose s.agenda.length).2 with agenda := rest } e)
    have hown (a : List (List Event)) : R s { (s.choose s.agenda.length).2 with agenda := a } :=
      own ((hchoose.mono (by decide)).trans ((agenda_changes _ a).mono (by decide)))
    cases takeEvent (s.choose s.agenda.length).1 (s.choose s.agenda.length).2.agenda with
    | none => exact hown []
    | some p => exact trans (hown p.2) (handle _ p.1)
  induction n with
  | zero => exact refl
  | succ n ih =>
    intro s
    by_cases hs : s.agenda = []
    · rw [settle_empty _ s hs]
      exact refl s
    · rw [settle_succ hs]
      exact trans (takeOne s) (ih _)

/-! ### Replies (R180, R183) -/

/-- The end of a command leaves the reply in the slot. -/
theorem finish_repliesWith {s : State} {r : ReplySlot} {kind seq : Byte} {payload : List Byte}
    (hs : s.link.slot = some r) (hf : r.frame = { kind := kind + 0x40, seq := seq, payload := payload }) :
    s.finish.repliesWith kind seq payload := by
  have hlink : (State.settle Config.momentBound s).link = s.link := settle_changes _ s .link (by simp)
  have hslot : (State.settle Config.momentBound s).link.slot = some r := by rw [hlink, hs]
  rw [State.finish]
  by_cases ht : (State.settle Config.momentBound s).link.transmitter = .idle
  · cases hb : r.begun with
    | false =>
      rw [grant_reply ht hslot hb]
      exact ⟨_, rfl, hf⟩
    | true =>
      have hwaits : (State.settle Config.momentBound s).link.replyWaits = false := by
        rw [replyWaits_of_slot hslot, hb]
        rfl
      rw [grant_notice ht hwaits]
      refine ⟨r, ?_, hf⟩
      obtain hsame | ⟨f, hsent⟩ := sendNotice_link (State.settle Config.momentBound s)
      · rw [hsame, hslot]
      · rw [hsent]
        exact hslot
  · rw [grant_busy ht]
    exact ⟨r, hslot, hf⟩

theorem received_changes (s : State) : OnlyChanges [.notices, .link] s s.received :=
  ((notices_changes s s.notices.endStall).mono (by decide)).trans ((link_changes _ _).mono (by decide))

/-- A request taken at once: what executing it on `received` gives, with the reply in the slot as the events of the
moment are taken. -/
theorem request_executed {s u : State} {kind seq : Byte} {p payload : List Byte} (h : s.takesNow kind seq)
    (hd : s.received.dispatch kind p = (payload, u)) (hk : (kind = 0x02 && p.isEmpty) = false) :
    s.request kind seq p = .next (State.finish { u with link := s.link.replied kind seq payload false }) ∧
      (State.finish { u with link := s.link.replied kind seq payload false }).repliesWith kind seq payload := by
  refine ⟨?_, finish_repliesWith (r := { frame := _, begun := false, resets := false }) rfl rfl⟩
  rw [request_taken s kind seq p h, hd, hk]

/-! ### ONCE reactions -/

/-- No reaction becomes enabled. -/
def State.EnablesNone (s t : State) : Prop :=
  ∀ r : ReactionId, t.reactions[r].enabled = true → s.reactions[r].enabled = true

theorem enablesNone_of_changes {bs : List Block} {s t : State} (h : OnlyChanges bs s t) (hb : .reactions ∉ bs) :
    s.EnablesNone t := by
  intro r hr
  have hsame : t.reactions = s.reactions := h .reactions hb
  rwa [hsame] at hr

theorem State.EnablesNone.trans {s t u : State} (h : s.EnablesNone t) (k : t.EnablesNone u) : s.EnablesNone u :=
  fun r hr => h r (k r hr)

/-- A reaction that is disabled stays so. -/
theorem State.EnablesNone.off {s t : State} (h : s.EnablesNone t) {r : ReactionId}
    (hoff : s.reactions[r].enabled = false) : t.reactions[r].enabled = false :=
  Bool.eq_false_iff.mpr fun hon => absurd (hoff.symm.trans (h r hon)) (by decide)

theorem disableOnce_reaction (s : State) (q r : ReactionId) : (s.disableOnce q).reactions[r] =
    if q = r ∧ s.reactions[r].mode = .once then { s.reactions[r] with enabled := false } else s.reactions[r] := by
  rw [State.disableOnce, mapReaction_reactions, tset_get]
  by_cases h : q = r
  · subst h
    simp only [true_and, if_true]
  · simp only [h, false_and, if_false]

theorem disableOnce_enablesNone (s : State) (q : ReactionId) : s.EnablesNone (s.disableOnce q) := by
  intro r hr
  rw [disableOnce_reaction] at hr
  by_cases h : q = r ∧ s.reactions[r].mode = .once
  · rw [if_pos h] at hr
    cases hr
  · rwa [if_neg h] at hr

theorem foldl_disableOnce_mode (c : List ReactionId) (r : ReactionId) : ∀ s : State,
    (c.foldl State.disableOnce s).reactions[r].mode = s.reactions[r].mode := by
  induction c with
  | nil => exact fun s => rfl
  | cons q qs ih =>
    intro s
    rw [List.foldl_cons, ih, disableOnce_reaction]
    split <;> rfl

theorem foldl_disableOnce_enablesNone (c : List ReactionId) : ∀ s : State,
    s.EnablesNone (c.foldl State.disableOnce s) := by
  induction c with
  | nil => exact fun s r hr => hr
  | cons q qs ih => exact fun s => (disableOnce_enablesNone s q).trans (ih _)

/-- R153: the ONCE members of a closure are disabled. -/
theorem foldl_disableOnce_once {r : ReactionId} (c : List ReactionId) : ∀ s : State, r ∈ c →
    s.reactions[r].mode = .once → (c.foldl State.disableOnce s).reactions[r].enabled = false := by
  induction c with
  | nil => exact fun s hr => nomatch hr
  | cons q qs ih =>
    intro s hr hmode
    rw [List.foldl_cons]
    obtain hq | hr := List.mem_cons.mp hr
    · have hoff : (s.disableOnce q).reactions[r].enabled = false := by
        rw [disableOnce_reaction, if_pos ⟨hq.symm, hmode⟩]
      exact (foldl_disableOnce_enablesNone qs _).off hoff
    · exact ih _ hr ((foldl_disableOnce_mode [q] r s).trans hmode)

theorem foldl_perform_changes (s : State) (c : List ReactionId) :
    OnlyChanges [.items, .notices, .lanes, .outputs, .schedule, .windows, .agenda, .timers] s
      (c.foldl State.perform s) :=
  OnlyChanges.foldl _ (fun s r => perform_changes s r) c s

theorem performAll_enablesNone (s : State) (c : List ReactionId) : s.EnablesNone (s.performAll c) :=
  (enablesNone_of_changes (foldl_perform_changes s c) (by decide)).trans (foldl_disableOnce_enablesNone c _)

theorem performAll_once {s : State} {c : List ReactionId} {r : ReactionId} (hr : r ∈ c)
    (hmode : s.reactions[r].mode = .once) : (s.performAll c).reactions[r].enabled = false := by
  have hsame : (c.foldl State.perform s).reactions = s.reactions := foldl_perform_changes s c .reactions (by decide)
  exact foldl_disableOnce_once c _ hr (by rw [hsame]; exact hmode)

/-- Only a trigger event changes the Reaction Table, and it enables no reaction. -/
theorem handle_enablesNone (s : State) (e : Event) : s.EnablesNone (s.handle e) := by
  cases e with
  | trigger t => exact performAll_enablesNone s _
  | decision l rid => exact enablesNone_of_changes (commit_changes s l rid) (by decide)
  | jam l rid => exact enablesNone_of_changes (jamPoint_changes s l rid) (by decide)
  | exitPoint l rid => exact enablesNone_of_changes (exitPoint_changes s l rid) (by decide)
  | schedulePoint serial => exact enablesNone_of_changes (schedulePoint_changes s serial) (by decide)
  | windowOpen i rid => exact enablesNone_of_changes (openWindow_changes s i rid) (by decide)
  | windowClose i rid => exact enablesNone_of_changes (closeWindow_changes s i rid) (by decide)
  | offTime serial => exact enablesNone_of_changes (offTime_changes s serial) (by decide)
  | pulseEnd o => exact enablesNone_of_changes (endPulse_changes s o) (by decide)
  | timersTick => exact enablesNone_of_changes (tickTimers_changes s) (by decide)
  | expired t => exact enablesNone_of_changes (reportExpiry_changes s t) (by decide)
  | ackTick => exact enablesNone_of_changes (ackTick_changes s) (by decide)
  | cut serial => exact enablesNone_of_changes (cutEntry_changes s serial) (by decide)
  | inhibitOutputs => exact enablesNone_of_changes (inhibitOutputs_changes s) (by decide)
  | offer l c => exact enablesNone_of_changes (takeCause_changes s l c) (by decide)

theorem finish_enablesNone (s : State) : s.EnablesNone s.finish :=
  (settle_relates (R := State.EnablesNone) (fun _ _ hr => hr) .trans
    (fun h => enablesNone_of_changes h (by decide)) handle_enablesNone _ s).trans
    (enablesNone_of_changes (grant_changes _) (by decide))

/-! ### FIRE_REACTION (R158) -/

/-- The set of a list names its members. -/
theorem reactionSet_getLsbD (rs : List ReactionId) (q : ReactionId) :
    (reactionSet rs).getLsbD q = decide (q ∈ rs) := by
  have hcollect := foldl_collect_getLsbD (fun _ => true) q rs 0
  simpa [reactionSet] using hcollect

theorem reqFireReaction_disabled {s : State} {r : ReactionId} (h : s.reactions[r].enabled = false) :
    s.reqFireReaction (natByte r) = ([0, 0, 0, 0], s) := by
  have hnot : ¬ s.reactions[r].enabled = true := by rw [h]; decide
  rw [State.reqFireReaction, named_natByte s r (by decide)]
  exact if_neg hnot

theorem reqFireReaction_enabled {s : State} {r : ReactionId} (h : s.reactions[r].enabled = true) :
    s.reqFireReaction (natByte r) =
      ([0, 1] ++ halfBytes ((reactionSet (s.closure [r])).setWidth 16), s.performAll (s.closure [r])) := by
  rw [State.reqFireReaction, named_natByte s r (by decide)]
  exact if_pos h

/-- R153: a reaction without a chain is its own closure. -/
theorem closure_single {s : State} {r : ReactionId} (h : s.reactions[r].enabled = true)
    (hc : s.reactions[r].chain = 0) : s.closure [r] = [r] := by
  have hkeep : [r] ⊆ s.closure [r] := closeOver_keeps (by simpa using h) 12
  have hleast : s.closure [r] ⊆ [r] := closeOver_least (List.Subset.refl _) (fun m hm q hq => by
    rw [List.mem_singleton.mp hm, hc] at hq
    exact absurd hq (by simp)) 12
  have hnodup : (s.closure [r]).Nodup := (closure_ascending s [r]).imp fun hlt => fun heq => by simp [heq] at hlt
  exact List.perm_singleton.mp
    ((List.perm_ext_iff_of_nodup hnodup (List.nodup_singleton r)).mpr fun q => ⟨fun hq => hleast hq, fun hq => hkeep hq⟩)

/-- An OUT_SET that repeats, fired alone. -/
theorem performAll_outSet {s : State} {r : ReactionId} {o : OutputId} (hm : s.reactions[r].mode = .repeating)
    (ha : s.reactions[r].action = .outSet o) (ho : s.outputs[o].role = .general) :
    s.performAll [r] = { s with outputs := tset s.outputs o { s.outputs[o] with latch := true } } := by
  have hperform : s.perform r = { s with outputs := tset s.outputs o { s.outputs[o] with latch := true } } := by
    rw [State.perform, ha]
    exact if_pos ho
  have honce : (if s.reactions[r].mode = .once then { s.reactions[r] with enabled := false } else s.reactions[r]) =
      s.reactions[r] := if_neg (by rw [hm]; decide)
  show State.disableOnce (s.perform r) r = _
  rw [hperform, State.disableOnce, State.mapReaction]
  simp only [honce, tset_same]

theorem reactionSet_single (r : ReactionId) : (reactionSet [r]).setWidth 16 = (1 <<< r.val : Half) := by
  revert r
  decide

/-- Settles O21: the request performs the closure, the events that follow enable nothing, and the reply stays. -/
theorem fireReactionPerformsTheClosure : Obligations.FireReactionPerformsTheClosure := by
  intro s seq reaction hs
  refine ⟨fun h => ?_, ?_⟩
  · exact request_refused s 0x2E seq _ .badValue hs
      ((dispatch_fireReaction _ reaction).trans (named_bad _ reaction h _)) rfl
  rintro r rfl
  refine ⟨fun hoff => ?_, fun hon => ?_, fun o hon hm hchain haction hgeneral => ?_⟩
  · exact request_reads s 0x2E seq _ _ hs
      ((dispatch_fireReaction _ _).trans (reqFireReaction_disabled (s := s.received) hoff)) rfl
  · have hfire := (dispatch_fireReaction _ _).trans (reqFireReaction_enabled (s := s.received) hon)
    obtain ⟨hexec, hreply⟩ := request_executed hs hfire rfl
    refine ⟨_, (reactionSet (s.closure [r])).setWidth 16, hexec, toNat_setWidth_reactionSet _, fun q => ?_, hreply,
      hexec, fun q hq hmode => ?_, ?_⟩
    · rw [getLsbD_setWidth_reaction _ (by decide), reactionSet_getLsbD]
    · have hoff : (s.received.performAll (s.received.closure [r])).reactions[q].enabled = false :=
        performAll_once hq hmode
      exact (finish_enablesNone _).off hoff
    · refine ((received_changes s).mono (by decide)).trans
        (((performAll_changes s.received _).mono (by decide)).trans
          (((link_changes _ _).mono (by decide)).trans ((finish_changes _).mono (by decide))))
  · have ⟨_, _, _, hagenda⟩ := hs
    have hfire := (dispatch_fireReaction _ _).trans (reqFireReaction_enabled (s := s.received) hon)
    rw [closure_single (s := s.received) hon hchain, performAll_outSet (s := s.received) hm haction hgeneral,
      reactionSet_single] at hfire
    exact request_writes s _ 0x2E seq _ _ hs hfire hagenda rfl rfl

end Sys2Proof.Machine
end

section
/-! SUPPORT. The tick: its shares, the timers at it, the acknowledgement timer, and expiries (R131, R147, R168, R170). -/

namespace Sys2Proof.Machine

/-! ### The ends of moments -/

theorem grant_quiet {s : State} (h : s.quiet) : s.grant = s := by
  have ⟨hagenda, _⟩ := h
  have hfinish := finish_quiet s h
  rwa [State.finish, settle_empty _ s hagenda] at hfinish

/-- A moment of one event, which brings no other: the grant follows. -/
theorem done_one {s t : State} {e : Event} (h : s.agenda = [[e]]) (ht : (s.withAgenda []).handle e = t)
    (ha : t.agenda = []) : s.done = .next t.grant := by
  have hsettle : State.settle Config.momentBound s = t :=
    (settle_single h 4095).trans (by rw [ht, settle_empty _ t ha])
  rw [State.done, State.finish, hsettle]

/-- When every event of a moment keeps a condition and brings fewer than it takes, the condition holds at the end and no
event is left. -/
theorem settle_rests {P : State → Prop} {weight : State → Nat}
    (step : ∀ s, P s → s.agenda ≠ [] → P s.takeOne ∧ weight s.takeOne < weight s) (n : Nat) : ∀ s : State,
    P s → weight s ≤ n → P (State.settle n s) ∧ (State.settle n s).agenda = [] := by
  induction n with
  | zero =>
    intro s hP hw
    refine ⟨hP, ?_⟩
    by_contra hs
    obtain ⟨_, hlt⟩ := step s hP hs
    omega
  | succ n ih =>
    intro s hP hw
    by_cases hs : s.agenda = []
    · rw [settle_empty _ s hs]
      exact ⟨hP, hs⟩
    · obtain ⟨hP', hlt⟩ := step s hP hs
      rw [settle_succ hs]
      exact ih _ hP' (by omega)

/-! ### Positions and times (R124, R130) -/

theorem reached_iff (now target : Pos) : reached now target = true ↔ 0 ≤ (now - target).toInt := by
  rw [reached, decide_eq_true_eq]

theorem reached_false_iff (now target : Pos) : reached now target = false ↔ (now - target).toInt < 0 := by
  rw [reached, decide_eq_false_iff_not, not_le]

theorem pushEach_nil (s : State) : s.pushEach [] = s := by
  rw [State.pushEach, List.map_nil, List.append_nil]

/-! ### The shares of a tick (R131) -/

theorem mem_allOutputs (o : OutputId) : o ∈ allOutputs := by
  revert o; decide

theorem mem_offTimesDue (s : State) (k : Nat) : Event.offTime k ∈ s.offTimesDue ↔
    ∃ e ∈ s.schedule.timeList, e.serial = k ∧ 0 ≤ (s.position.ts - e.filing).toInt := by
  simp only [State.offTimesDue, List.mem_map, List.mem_filter, reached_iff, Event.offTime.injEq]
  exact ⟨fun ⟨e, ⟨he, hr⟩, hk⟩ => ⟨e, he, hk, hr⟩, fun ⟨e, he, hk, hr⟩ => ⟨e, ⟨he, hr⟩, hk⟩⟩

theorem pulseDue_iff (s : State) (o : OutputId) : s.pulseDue o = true ↔
    ∃ p, s.outputs[o].pulse = some p ∧ 0 ≤ (s.position.ts - p).toInt := by
  rw [State.pulseDue]
  cases s.outputs[o].pulse with
  | none => simp
  | some p => simp [reached_iff]

theorem mem_pulsesDue (s : State) (o : OutputId) : Event.pulseEnd o ∈ s.pulsesDue ↔
    ∃ p, s.outputs[o].pulse = some p ∧ 0 ≤ (s.position.ts - p).toInt := by
  rw [← pulseDue_iff]
  simp [State.pulsesDue, mem_allOutputs]

/-- The state in which a tick is taken. -/
def State.untick (s : State) : State :=
  { s with position := { s.position with tickDue := false, timersTaken := false } }

theorem tick_eq (s : State) :
    s.tick = s.untick.pushEach (s.offTimesDue ++ s.pulsesDue ++ s.timersDue ++ s.ackDue) := rfl

section
variable {s : State} (hoff : ∀ e ∈ s.schedule.timeList, (s.position.ts - e.filing).toInt < 0)
  (hpulse : ∀ (o : OutputId) (p : Pos), s.outputs[o].pulse = some p → (s.position.ts - p).toInt < 0)

include hoff in
theorem offTimesDue_nil : s.offTimesDue = [] := by
  rw [State.offTimesDue, List.map_eq_nil_iff, List.filter_eq_nil_iff]
  intro e he
  rw [reached_iff]
  exact Int.not_le.mpr (hoff e he)

include hpulse in
theorem pulsesDue_nil : s.pulsesDue = [] := by
  rw [State.pulsesDue, List.map_eq_nil_iff, List.filter_eq_nil_iff]
  intro o _ hdue
  obtain ⟨p, hp, hreached⟩ := (pulseDue_iff s o).mp hdue
  exact absurd hreached (Int.not_le.mpr (hpulse o p hp))

include hoff hpulse in
/-- A tick at which no timed end is due. -/
theorem tick_timers : s.tick = s.untick.pushEach (s.timersDue ++ s.ackDue) := by
  rw [tick_eq, offTimesDue_nil hoff, pulsesDue_nil hpulse, List.nil_append, List.nil_append]

end

/-! ### The timers at a tick (R147) -/

/-- Tables with the same rows are the same. -/
theorem vector_ext {α : Type} {n : Nat} {v w : Vector α n} (h : ∀ i : Fin n, v[i] = w[i]) : v = w :=
  Vector.ext fun i hi => h ⟨i, hi⟩

theorem tmap_eq {α β : Type} {n : Nat} {f : α → β} {v : Vector α n} {w : Vector β n}
    (h : ∀ i : Fin n, w[i] = f v[i]) : tmap f v = w :=
  vector_ext fun i => (tmap_get f v i).trans (h i).symm

/-- R147: what a tick does to a timer, case by case. -/
theorem ticked_eq (x : Timer) : x.ticked = if x.running = false then x
    else if 1 < x.remaining then { x with remaining := x.remaining - 1 }
    else match x.mode with
      | .periodic => { x with remaining := x.period }
      | .oneShot => { x with running := false, remaining := 0 } := by
  by_cases hr : x.running = false
  · rw [if_pos hr, ticked_stopped hr]
  · have hrunning : x.running = true := by simpa using hr
    rw [if_neg hr]
    by_cases h : 1 < x.remaining
    · rw [if_pos h, ticked_counts hrunning h]
    · rw [if_neg h, ticked_expires hrunning (Nat.le_of_not_lt h)]
      rfl

theorem mem_allTimers (t : TimerId) : t ∈ allTimers := by
  revert t; decide

/-- With no timer running a tick changes none. -/
theorem tmap_ticked_stopped {v : Vector Timer 4} (h : ∀ k : TimerId, v[k].running = false) :
    tmap Timer.ticked v = v :=
  tmap_eq fun k => (ticked_stopped (h k)).symm

/-! ### Expiries (R147) -/

/-- The TIMER notice of an expiry, where its class is enabled for the timer. -/
def State.timerNotice (s : State) (t : TimerId) : State :=
  if s.notices.settings.timersOn.getLsbD t then s.produce .timer (natByte t :: wordBytes s.position.ts) else s

theorem reportExpiry_eq (s : State) (t : TimerId) : s.reportExpiry t = (s.timerNotice t).push [.trigger (.timer t)] :=
  rfl

theorem timerNotice_changes (s : State) (t : TimerId) : OnlyChanges [.notices] s (s.timerNotice t) := by
  rw [State.timerNotice]
  split
  · exact produce_changes s _ _
  · exact .refl _ s

theorem reportExpiry_agenda (s : State) (t : TimerId) :
    (s.reportExpiry t).agenda = s.agenda ++ [[.trigger (.timer t)]] := by
  have hagenda : (s.timerNotice t).agenda = s.agenda := timerNotice_changes s t .agenda (by decide)
  rw [reportExpiry_eq, ← hagenda]
  rfl

/-! ### A tick at which no timed end is due -/

/-- The events that a tick brings when no timed end is due. -/
def Event.ofTick : Event → Bool
  | .timersTick | .expired _ | .ackTick | .trigger (.timer _) => true
  | _ => false

/-- What such an event, taken in `u`, leaves: the timers have taken the tick if it is theirs, and it brings lighter
events of the kind, none of them the tick of the timers. -/
structure Event.Ticks (e : Event) (u w : State) : Prop where
  changes : OnlyChanges [.timers, .notices, .agenda] u w
  timers : w.timers = if e = .timersTick then tmap Timer.ticked u.timers else u.timers
  brings : ∃ more : List Event, w.agenda = u.agenda ++ more.map (fun x => [x]) ∧
    (∀ x ∈ more, x.ofTick = true ∧ x ≠ .timersTick) ∧ eventsWeight more < e.weight

theorem handle_ticks {u : State} (hno : ∀ k : TimerId, u.matching (.timer k) = []) {e : Event} (he : e.ofTick = true) :
    e.Ticks u (u.handle e) := by
  cases e with
  | timersTick =>
    let expiring := allTimers.filter (fun k => u.timers[k].expires)
    have hfew : expiring.length ≤ 4 := List.length_filter_le _ _
    refine ⟨(tickTimers_changes u).mono (by decide), rfl, expiring.map Event.expired, ?_, ?_, ?_⟩
    · rw [List.map_map]
      exact tickTimers_agenda u
    · simp [Event.ofTick]
    · rw [eventsWeight_map Event.expired (fun _ => rfl)]
      show 2 * expiring.length < 9
      omega
  | expired k =>
    have hchanges := reportExpiry_changes u k
    refine ⟨hchanges.mono (by decide), hchanges .timers (by decide), [.trigger (.timer k)], ?_, by simp [Event.ofTick],
      Nat.lt_succ_self 1⟩
    exact reportExpiry_agenda u k
  | ackTick =>
    exact ⟨(ackTick_changes u).mono (by decide), rfl, [], (List.append_nil _).symm, by simp, Nat.zero_lt_one⟩
  | trigger te =>
    cases te with
    | timer k =>
      have hsame : u.handle (.trigger (.timer k)) = u := takeTrigger_unmatched (hno k)
      rw [hsame]
      exact ⟨.refl _ _, rfl, [], (List.append_nil _).symm, by simp, Nat.zero_lt_one⟩
    | _ => cases he
  | _ => cases he

/-- A state of the moment of such a tick, which began in `s`; `v` is the Timer Unit once it has taken the tick. -/
structure State.Ticking (s : State) (v : Vector Timer 4) (t : State) : Prop where
  changes : OnlyChanges [.timers, .notices, .choices, .agenda] s t
  chains : ∀ c ∈ t.agenda, c ≠ []
  events : ∀ e ∈ t.agenda.flatten, e.ofTick = true
  timers : (t.timers = s.timers ∧ t.agenda.flatten.count .timersTick = 1 ∧ v = tmap Timer.ticked s.timers) ∨
    (t.timers = v ∧ .timersTick ∉ t.agenda.flatten)

theorem flatten_singletons {α : Type} (xs : List α) : (xs.map (fun x => [x])).flatten = xs := by
  induction xs with
  | nil => rfl
  | cons x xs ih => rw [List.map_cons, List.flatten_cons, ih, List.singleton_append]

/-- One event of such a moment. -/
theorem State.Ticking.takeOne {s t : State} {v : Vector Timer 4} (h : s.Ticking v t) (hne : t.agenda ≠ [])
    (hno : ∀ k : TimerId, s.matching (.timer k) = []) :
    s.Ticking v t.takeOne ∧ agendaWeight t.takeOne.agenda < agendaWeight t.agenda := by
  obtain ⟨e, rest, heq, hrest, hperm⟩ := takeOne_eq h.chains hne
  let u := (t.choose t.agenda.length).2.withAgenda rest
  have hown : OnlyChanges [.choices, .agenda] t u :=
    ((choose_changes t _).mono (by decide)).trans ((agenda_changes _ rest).mono (by decide))
  have hchanges : OnlyChanges [.timers, .notices, .choices, .agenda] s u := h.changes.trans (hown.mono (by decide))
  have hmatching (k : TimerId) : u.matching (.timer k) = [] := by
    have hsame : u.reactions = s.reactions := hchanges .reactions (by decide)
    rw [State.matching, hsame]
    exact hno k
  have hmem (x : Event) : x ∈ t.agenda.flatten ↔ x = e ∨ x ∈ rest.flatten := by
    rw [hperm.mem_iff, List.mem_cons]
  obtain ⟨hticks, htimers, more, hagenda, hmore, hlight⟩ := handle_ticks hmatching (h.events e ((hmem e).mpr (Or.inl rfl)))
  have hflat : (u.handle e).agenda.flatten = rest.flatten ++ more := by
    rw [hagenda, List.flatten_append, flatten_singletons]
    rfl
  have hfree : Event.timersTick ∉ more := fun hx => (hmore _ hx).2 rfl
  have hsame : u.timers = t.timers := hown .timers (by decide)
  rw [heq]
  refine ⟨⟨hchanges.trans (hticks.mono (by decide)), ?_, ?_, ?_⟩, ?_⟩
  · rw [hagenda]
    intro c hc
    obtain hc | hc := List.mem_append.mp hc
    · exact hrest c hc
    · obtain ⟨x, _, rfl⟩ := List.mem_map.mp hc
      exact List.cons_ne_nil _ _
  · rw [hflat]
    intro x hx
    obtain hx | hx := List.mem_append.mp hx
    · exact h.events x ((hmem x).mpr (Or.inr hx))
    · exact (hmore x hx).1
  · rw [hflat, List.count_append, List.count_eq_zero.mpr hfree, List.mem_append]
    have hcount := hperm.count_eq .timersTick
    obtain ⟨ht, hone, hv⟩ | ⟨ht, hnone⟩ := h.timers
    · by_cases he : e = .timersTick
      · rw [hone, he, List.count_cons_self] at hcount
        refine Or.inr ⟨?_, not_or.mpr ⟨List.count_eq_zero.mp (by omega), hfree⟩⟩
        rw [htimers, if_pos he, hsame, ht, hv]
      · rw [hone, List.count_cons_of_ne he] at hcount
        refine Or.inl ⟨?_, hcount.symm, hv⟩
        rw [htimers, if_neg he, hsame, ht]
    · have he : e ≠ .timersTick := by
        rintro rfl
        exact hnone ((hmem _).mpr (Or.inl rfl))
      refine Or.inr ⟨?_, not_or.mpr ⟨fun hx => hnone ((hmem _).mpr (Or.inr hx)), hfree⟩⟩
      rw [htimers, if_neg he, hsame, ht]
  · have hweight : agendaWeight t.agenda = e.weight + eventsWeight rest.flatten := (hperm.map Event.weight).sum_nat
    have hafter : agendaWeight (u.handle e).agenda = eventsWeight rest.flatten + eventsWeight more := by
      rw [agendaWeight, hflat, eventsWeight_append]
    exact hafter ▸ hweight ▸ (by omega)

/-- A block that is the same need not be listed. -/
theorem OnlyChanges.same {b : Block} {bs : List Block} {s t : State} (h : OnlyChanges (b :: bs) s t)
    (hb : b.Same s t) : OnlyChanges bs s t := fun c hc =>
  if hcb : c = b then hcb ▸ hb else h c (by simp [hcb, hc])

theorem timersDue_eq {s : State} (hoff : s.offTimesDue = []) : s.timersDue =
    if s.position.timersTaken = true ∨ ∀ k : TimerId, s.timers[k].running = false then [] else [.timersTick] := by
  have hany : (allTimers.any fun k => s.timers[k].running) = true ↔ ¬ ∀ k : TimerId, s.timers[k].running = false := by
    simp [mem_allTimers]
  rw [State.timersDue, hoff]
  by_cases ht : s.position.timersTaken = true
  · rw [if_pos ht, if_pos (Or.inl ht)]
  · rw [if_neg ht]
    by_cases hrun : ∀ k : TimerId, s.timers[k].running = false
    · rw [if_pos (Or.inr hrun)]
      exact if_neg fun h => hany.mp (by simpa using h) hrun
    · rw [if_neg (not_or.mpr ⟨ht, hrun⟩)]
      exact if_pos (by rw [hany.mpr hrun]; rfl)

/-- The moment of such a tick as it begins. -/
theorem ticking_begins (s : State) (ha : s.agenda = []) {due : List Event}
    (hdue : due = [] ∨ due = [.timersTick]) : s.untick.Ticking
      (if due = [] then s.timers else tmap Timer.ticked s.timers) (s.untick.pushEach (due ++ s.ackDue)) := by
  have hack : Event.timersTick ∉ s.ackDue ∧ ∀ e ∈ s.ackDue, e.ofTick = true := by
    rw [State.ackDue]
    split <;> simp [Event.ofTick]
  have hagenda : (s.untick.pushEach (due ++ s.ackDue)).agenda = (due ++ s.ackDue).map (fun e => [e]) := by
    show s.agenda ++ _ = _
    rw [ha, List.nil_append]
  have hflat : (s.untick.pushEach (due ++ s.ackDue)).agenda.flatten = due ++ s.ackDue := by
    rw [hagenda, flatten_singletons]
  refine ⟨(agenda_changes _ _).mono (by decide), ?_, ?_, ?_⟩
  · rw [hagenda]
    intro c hc
    obtain ⟨e, _, rfl⟩ := List.mem_map.mp hc
    exact List.cons_ne_nil _ _
  · rw [hflat]
    intro e he
    obtain he | he := List.mem_append.mp he
    · obtain rfl | rfl := hdue
      · cases he
      · rw [List.mem_singleton.mp he]
        rfl
    · exact hack.2 e he
  · rw [hflat]
    obtain rfl | rfl := hdue
    · exact Or.inr ⟨rfl, hack.1⟩
    · refine Or.inl ⟨rfl, ?_, rfl⟩
      rw [List.count_append, List.count_eq_zero.mpr hack.1]
      rfl

theorem ackDue_weight (s : State) : eventsWeight s.ackDue ≤ 1 := by
  rw [State.ackDue]
  split <;> decide

/-- Settles O13: the tick is shared out, every event of its moment keeps `State.Ticking`, and none is left at its end. -/
theorem tickCountsEveryTimer : Obligations.TickCountsEveryTimer := by
  intro s ha hno hoff hpulse
  have hmatching (k : TimerId) : s.untick.matching (.timer k) = [] :=
    (matching_nil_iff _ _).mpr fun r hr => Bool.eq_false_iff.mpr fun hm => by
      obtain ⟨_, _, he, _⟩ | ⟨j, he, ht⟩ | ⟨_, _, he, _⟩ | ⟨_, he, _⟩ := (matchedBy_iff _ _).mp hm
      · cases he
      · cases he
        exact hno r k hr ht
      · cases he
      · cases he
  have htick := tick_timers hoff hpulse
  have hdue := timersDue_eq (offTimesDue_nil hoff)
  have hcases : s.timersDue = [] ∨ s.timersDue = [.timersTick] := by
    rw [hdue]
    split <;> simp
  have hbegins := ticking_begins s ha hcases
  have hweight : agendaWeight (s.untick.pushEach (s.timersDue ++ s.ackDue)).agenda ≤ Config.momentBound := by
    have hack := ackDue_weight s
    have htimers : eventsWeight s.timersDue ≤ 9 := by
      obtain h | h := hcases <;> rw [h] <;> decide
    have hagenda : (s.untick.pushEach (s.timersDue ++ s.ackDue)).agenda = (s.timersDue ++ s.ackDue).map (fun e => [e]) :=
      by
        show s.agenda ++ _ = _
        rw [ha, List.nil_append]
    rw [agendaWeight, hagenda, flatten_singletons, eventsWeight_append]
    show _ ≤ 4096
    omega
  obtain ⟨hticking, hend⟩ := settle_rests (P := s.untick.Ticking _) (weight := fun t => agendaWeight t.agenda)
    (fun t ht hne => ht.takeOne hne hmatching) Config.momentBound _ hbegins hweight
  let t := State.settle Config.momentBound (s.untick.pushEach (s.timersDue ++ s.ackDue))
  have hgrant := grant_changes t
  have htimers : t.grant.timers = if s.timersDue = [] then s.timers else tmap Timer.ticked s.timers := by
    refine (hgrant .timers (by decide)).trans ?_
    obtain ⟨_, hone, _⟩ | ⟨h, _⟩ := hticking.timers
    · rw [hend] at hone
      cases hone
    · exact h
  have hagenda : t.grant.agenda = [] := (hgrant .agenda (by decide)).trans hend
  refine ⟨t.grant, ?_, fun k => ?_, ?_, hagenda, ?_⟩
  · show State.done s.tick = _
    rw [htick]
    rfl
  · show t.grant.timers[k] = _
    by_cases hidle : s.position.timersTaken = true ∨ ∀ k : TimerId, s.timers[k].running = false
    · rw [htimers, if_pos (hdue.trans (if_pos hidle)), if_pos (hidle.imp id (· k))]
    · have hne : s.timersDue ≠ [] := by
        rw [hdue.trans (if_neg hidle)]
        exact List.cons_ne_nil _ _
      rw [htimers, if_neg hne, tmap_get, ticked_eq]
      have htaken := (not_or.mp hidle).1
      by_cases hrun : s.timers[k].running = false
      · exact (if_pos hrun).trans (if_pos (Or.inr hrun)).symm
      · exact (if_neg hrun).trans (if_neg (not_or.mpr ⟨htaken, hrun⟩)).symm
  · exact (hgrant .position (by decide)).trans (hticking.changes .position (by decide))
  · refine OnlyChanges.same (b := .agenda) ?_ (hagenda.trans ha.symm)
    exact (((position_changes s _).mono (by decide)).trans (hticking.changes.mono (by decide))).trans
      (hgrant.mono (by decide))

end Sys2Proof.Machine
end

section
/-! SUPPORT. The acknowledgement timer at a tick, and the expiry of a timer (R131, R147, R168, R170). -/

namespace Sys2Proof.Machine

/-! ### The acknowledgement timer's share of a tick (R168, R170) -/

/-- The state in which a tick has been taken and the Notice Queue is `n`. -/
def State.ticked (s : State) (n : Notices) : State :=
  { s with position := { s.position with tickDue := false, timersTaken := false }, notices := n }

theorem notices_tick_early {n : Notices} (h : n.ackEarly = true) : n.tick = { n with ackEarly := false } := by
  rw [Notices.tick, if_pos h]

theorem notices_tick_counts {n : Notices} {k : Nat} (he : n.ackEarly = false) (hk : n.ackTimer = some k)
    (h1 : 1 < k) : n.tick = { n with ackTimer := some (k - 1) } := by
  simp only [Notices.tick, he, hk, Bool.false_eq_true, if_false, if_neg (Nat.not_le.mpr h1)]

theorem notices_tick_ends {n : Notices} (he : n.ackEarly = false) (hk : n.ackTimer = some 1) : n.tick = n.timeout := by
  simp only [Notices.tick, he, hk, Bool.false_eq_true, if_false, le_refl, if_true]

/-- R170: a timeout within the retry limit begins a resend round. -/
theorem timeout_retries {n : Notices} (h16 : n.retry < 16) (h : n.retry < n.settings.retryLimit) :
    n.timeout = { n with
      retry := n.retry + 1, ackTimer := some n.settings.timeout
      sent := n.sent.map (fun e => { e with resend := true }) } := by
  have hmin : min 16 (n.retry + 1) = n.retry + 1 := by omega
  simp only [Notices.timeout, hmin]
  exact if_pos h

/-- R170: a timeout beyond the retry limit leaves the link STALLED. -/
theorem timeout_stalls {n : Notices} (h16 : n.retry < 16) (h : n.settings.retryLimit ≤ n.retry) :
    n.timeout = { n with retry := n.retry + 1, stalled := true, ackTimer := none } := by
  have hmin : min 16 (n.retry + 1) = n.retry + 1 := by omega
  simp only [Notices.timeout, hmin]
  exact if_neg (Nat.not_le.mpr (Nat.lt_succ_of_le h))

section
variable {s : State} (ha : s.agenda = []) (hrun : ∀ t : TimerId, s.timers[t].running = false)
  (hoff : ∀ e ∈ s.schedule.timeList, (s.position.ts - e.filing).toInt < 0)
  (hpulse : ∀ (o : OutputId) (p : Pos), s.outputs[o].pulse = some p → (s.position.ts - p).toInt < 0)

include hrun hoff hpulse in
/-- A tick at which no timed end is due and no timer runs. -/
theorem tick_ack : s.tick = s.untick.pushEach s.ackDue := by
  rw [tick_timers hoff hpulse, (timersDue_eq (offTimesDue_nil hoff)).trans (if_pos (Or.inr hrun)), List.nil_append]

include ha hrun hoff hpulse in
/-- R168: such a tick is the acknowledgement timer's alone; the grant of the line follows. -/
theorem exec_msTick_ack : exec .msTick s = .next (s.ticked s.notices.tick).grant := by
  show s.tick.done = _
  rw [tick_ack hrun hoff hpulse, State.ackDue]
  by_cases hdue : (s.notices.ackTimer.isSome || s.notices.ackEarly) = true
  · rw [if_pos hdue]
    refine done_one (e := .ackTick) ?_ ?_ ha
    · show s.agenda ++ _ = _
      rw [ha]
      rfl
    · show ({ s.ticked s.notices.tick with agenda := [] } : State) = _
      rw [← ha]
      rfl
  · have hstill : s.notices.tick = s.notices := by
      obtain ⟨htimer, hearly⟩ := Bool.or_eq_false_iff.mp (Bool.not_eq_true _ ▸ hdue)
      have hnone : s.notices.ackTimer = none := Option.isSome_eq_false_iff.mp htimer |> Option.isNone_iff_eq_none.mp
      simp only [Notices.tick, hearly, hnone, Bool.false_eq_true, if_false]
    rw [if_neg hdue, pushEach_nil, hstill]
    exact done_rest ha

end

theorem exec_ackTimeout_due {s : State} (h : s.timeoutDue = true) : exec .ackTimeout s =
    State.done { s with notices := { s.notices.timeout with ackEarly := s.position.tickDue } } :=
  if_pos h

/-- Settles O14: a tick at which no timed end is due and no timer runs is the acknowledgement timer's alone. -/
theorem ackTimerCountsAndTimesOut : Obligations.AckTimerCountsAndTimesOut := by
  refine ⟨?_, ?_, ?_⟩
  · intro s ha hrun hoff hpulse ticked
    have hexec : exec .msTick s = .next (ticked s.notices.tick).grant := exec_msTick_ack ha hrun hoff hpulse
    refine ⟨fun he => ?_, fun he hnone => ?_, fun k he hk h1 => ?_, fun he hk h16 => ⟨fun hlt => ?_, fun hle => ?_⟩⟩
    · rw [hexec, notices_tick_early he]
    · have hstill : s.notices.tick = s.notices := by
        simp only [Notices.tick, he, hnone, Bool.false_eq_true, if_false]
      rw [hexec, hstill]
    · rw [hexec, notices_tick_counts he hk h1]
      refine ⟨rfl, fun hq => ?_⟩
      have hquiet : (ticked { s.notices with ackTimer := some (k - 1) }).quiet := hq
      rw [grant_quiet hquiet]
    · rw [hexec, notices_tick_ends he hk, timeout_retries h16 hlt]
    · rw [hexec, notices_tick_ends he hk, timeout_stalls h16 hle]
  · intro s ha he htick hk h16
    have hdue : s.timeoutDue = true := by
      simp only [State.timeoutDue, he, hk, htick]
      rfl
    rw [exec_ackTimeout_due hdue, htick]
    refine ⟨fun hlt => ?_, fun hle => ?_⟩
    · rw [timeout_retries h16 hlt]
      exact done_rest ha
    · rw [timeout_stalls h16 hle]
      exact done_rest ha
  · intro s hq hnone
    have hdue : s.timeoutDue = false := by
      simp only [State.timeoutDue, hnone, Bool.and_false]
    have hexec : exec .ackTimeout s = s.done := if_neg (by rw [hdue]; exact nofun)
    rw [hexec, done_quiet s hq]

end Sys2Proof.Machine
end

section
/-! SUPPORT. The expiry of a timer (R147, R152, R153, R165). -/

namespace Sys2Proof.Machine

theorem expires_iff (x : Timer) : x.expires = true ↔ x.running = true ∧ x.remaining ≤ 1 := by
  rw [Timer.expires, Bool.and_eq_true, decide_eq_true_eq]

/-- R147, R165: the notice of an expiry, case by case. -/
theorem timerNotice_eq (s : State) (t : TimerId) : s.timerNotice t =
    if s.notices.settings.timersOn.getLsbD t = false then s
    else if s.notices.depth < 24 then { s with
      notices := { s.notices with
        unsent := s.notices.unsent ++
          [{ kind := .timer
             contents := some (natByte t :: (wordBytes s.position.ts ++ [natByte s.notices.missed.timer]))
             link := .none, number := none, resend := false }]
        missed := { s.notices.missed with timer := 0 } } }
    else { s with
      notices := { s.notices with
        missed := { s.notices.missed with timer := min 255 (s.notices.missed.timer + 1) } } } := by
  rw [State.timerNotice]
  by_cases hon : s.notices.settings.timersOn.getLsbD t = false
  · rw [if_pos hon, if_neg (by rw [hon]; exact nofun)]
  · rw [if_neg hon, if_pos (by simpa using hon)]
    by_cases hroom : s.notices.depth < 24
    · rw [if_pos hroom, produce_room _ _ hroom]
      rfl
    · rw [if_neg hroom, produce_full _ _ (Nat.le_of_not_lt hroom)]
      rfl

/-- The timers that a tick has expire, when it is one alone. -/
theorem expiring_single {s : State} {t : TimerId} (ht : s.timers[t].expires = true)
    (hothers : ∀ k : TimerId, k ≠ t → s.timers[k].expires = false) :
    allTimers.filter (fun k => s.timers[k].expires) = [t] := by
  have honly : (fun k : TimerId => s.timers[k].expires) = fun k => decide (k = t) := by
    funext k
    by_cases hk : k = t
    · rw [hk, ht, decide_eq_true rfl]
    · rw [hothers k hk, decide_eq_false hk]
  rw [honly]
  clear honly hothers ht
  revert t
  decide

/-- Settles O15: `tickTimers` hands on the expiries; one of them settles as its notice, its trigger and the closure. -/
theorem timerExpiryUpdatesThenReports : Obligations.TimerExpiryUpdatesThenReports := by
  unfold Obligations.TimerExpiryUpdatesThenReports
  intro ticked reported
  have hreported (s : State) (t : TimerId) : s.timerNotice t = reported s t := timerNotice_eq s t
  refine ⟨fun s t => ?_, ?_⟩
  · show s.reportExpiry t = _
    have hagenda : (s.timerNotice t).agenda = s.agenda := timerNotice_changes s t .agenda (by decide)
    rw [reportExpiry_eq, ← hreported, ← hagenda]
    rfl
  · intro s t v hrun hrem htick htaken hv
    have hexp : s.timers[t].expires = true := (expires_iff _).mpr ⟨hrun, hrem⟩
    have hdue : s.expiryDue t = true := by
      rw [State.expiryDue, htick, htaken, hexp]
      rfl
    have htimers : tmap Timer.ticked s.timers = v :=
      tmap_eq fun k => (hv k).trans (ticked_eq _).symm
    subst htimers
    intro u
    have hexec : exec (.timerExpiry t) s = State.done { u with
        agenda := s.agenda ++ (allTimers.filter (fun k => s.timers[k].expires)).map (fun k => [.expired k]) } := by
      have hdone : exec (.timerExpiry t) s =
          (State.tickTimers { s with position := { s.position with timersTaken := true } }).done := if_pos hdue
      rw [hdone]
      congr 1
      show State.pushEach _ (List.map _ _) = _
      rw [State.pushEach, List.map_map]
      rfl
    refine ⟨hexec, ?_⟩
    intro ha hothers w p
    have hsingle := expiring_single hexp fun k hk => by
      by_contra hne
      obtain ⟨hkrun, hkrem⟩ := (expires_iff _).mp (by simpa using hne)
      exact absurd (hothers k hk hkrun) (Nat.not_lt.mpr hkrem)
    have hw : u.timerNotice t = w := hreported u t
    have hwagenda : w.agenda = [] := by
      rw [← hw]
      exact (timerNotice_changes u t .agenda (by decide)).trans ha
    have hsettle : State.settle 4096 { u with agenda := [[.expired t]] } = State.settle 4094 p := by
      rw [settle_single (e := .expired t) rfl 4095]
      have hbare : State.withAgenda { u with agenda := [[.expired t]] } [] = u := by
        show ({ u with agenda := [] } : State) = u
        rw [← show u.agenda = [] from ha]
      rw [hbare]
      have hhandle : u.handle (.expired t) = w.push [.trigger (.timer t)] := by
        rw [← hw]
        rfl
      have hagenda : (w.push [.trigger (.timer t)]).agenda = [[.trigger (.timer t)]] := by
        show w.agenda ++ _ = _
        rw [hwagenda]
        rfl
      have hrest : (w.push [.trigger (.timer t)]).withAgenda [] = w := by
        show ({ w with agenda := [] } : State) = w
        rw [← hwagenda]
      rw [hhandle, settle_single hagenda 4094, hrest]
      rfl
    have hnext : exec (.timerExpiry t) s = .next (State.settle 4094 p).grant := by
      rw [hexec, hsingle, ha, State.done, State.finish]
      exact congrArg (fun x => Host.Outcome.next (State.grant x)) hsettle
    have hbusy (hl : s.link.transmitter ≠ .idle) (hp : p.agenda = []) : exec (.timerExpiry t) s = .next p := by
      have hlink : p.link = s.link := by
        refine (performAll_link w _).trans ?_
        rw [← hw]
        exact timerNotice_changes u t .link (by decide)
      rw [hnext, settle_empty _ p hp, grant_busy (by rw [hlink]; exact hl)]
    refine ⟨hnext, hbusy, fun hl hnone => ?_⟩
    have hpw : p = w := by
      show w.performAll (w.closure (w.matching (.timer t))) = w
      exact takeTrigger_unmatched hnone
    rw [hbusy hl (by rw [hpw]; exact hwagenda), hpw]

end Sys2Proof.Machine
end

section
/-! SUPPORT. The end of a µs: what is left of it, and the advance of TS (R119, R130, R131, R133, R135). -/

namespace Sys2Proof.Machine

/-! ### What is left of a µs -/

theorem sampleStirs_iff (s : State) (i : InputId) : s.sampleStirs i = true ↔ (∃ r, s.awaitsSample i r) ∨
    (s.inputs[i].run = none ∧ s.inputs[i].mark = .due ∧ s.inputs[i].accepted ≠ s.pins[i]) := by
  rw [State.sampleStirs]
  by_cases hrun : s.inputs[i].run.isSome = true
  · rw [if_pos hrun, Option.isSome_iff_exists]
    simp only [runDue_eq_some]
    have hsome : s.inputs[i].run ≠ none := Option.isSome_iff_ne_none.mp hrun
    exact ⟨Or.inl, fun h => h.elim id fun ⟨hnone, _⟩ => absurd hnone hsome⟩
  · have hnone : s.inputs[i].run = none := by simpa using hrun
    rw [if_neg hrun, Bool.and_eq_true, decide_eq_true_eq, bne_iff_ne]
    refine ⟨fun ⟨hm, ha⟩ => Or.inr ⟨hnone, hm, ha⟩, fun h => ?_⟩
    obtain ⟨r, hr, _⟩ | ⟨_, hm, ha⟩ := h
    · rw [hnone] at hr
      cases hr
    · exact ⟨hm, ha⟩

theorem sampleStirs_false_iff (s : State) (i : InputId) : s.sampleStirs i = false ↔ ¬ ((∃ r, s.awaitsSample i r) ∨
    (s.inputs[i].run = none ∧ s.inputs[i].mark = .due ∧ s.inputs[i].accepted ≠ s.pins[i])) := by
  rw [← sampleStirs_iff, Bool.not_eq_true]

theorem mem_leftovers (s : State) (e : Leftover) : e ∈ s.leftovers ↔ (e = .channels ∧ ¬ s.position.settled) ∨
    (e = .tick ∧ s.position.tickDue = true) ∨ ∃ i : InputId, e = .input i ∧ s.sampleStirs i = true := by
  have hchannels : e ∈ (if s.position.atRest then [] else [Leftover.channels]) ↔
      e = .channels ∧ ¬ s.position.settled := by
    rw [← atRest_iff]
    by_cases hrest : s.position.atRest = true
    · rw [if_pos hrest]
      exact ⟨nofun, fun h => absurd hrest h.2⟩
    · rw [if_neg hrest, List.mem_singleton]
      exact ⟨fun h => ⟨h, hrest⟩, And.left⟩
  have htick : e ∈ (if s.position.tickDue then [Leftover.tick] else []) ↔ e = .tick ∧ s.position.tickDue = true := by
    by_cases hdue : s.position.tickDue = true
    · rw [if_pos hdue, List.mem_singleton]
      exact ⟨fun h => ⟨h, hdue⟩, And.left⟩
    · rw [if_neg hdue]
      exact ⟨nofun, fun h => absurd h.2 hdue⟩
  have hinput : e ∈ (allInputs.filter s.sampleStirs).map Leftover.input ↔
      ∃ i : InputId, e = .input i ∧ s.sampleStirs i = true := by
    rw [List.mem_map]
    exact ⟨fun ⟨i, hi, he⟩ => ⟨i, he.symm, (List.mem_filter.mp hi).2⟩,
      fun ⟨i, he, hs⟩ => ⟨i, List.mem_filter.mpr ⟨mem_allInputs i, hs⟩, he.symm⟩⟩
  rw [State.leftovers, List.mem_append, List.mem_append, hchannels, htick, hinput, or_assoc]

/-! ### First comparisons (R133) -/

/-- R133: an input after its first comparison. -/
def State.settledInput (s : State) (i : InputId) : Input :=
  if s.inputs[i].awaiting = true then { s.inputs[i] with accepted := s.pins[i], awaiting := false, mark := .taken }
  else s.inputs[i]

theorem settledInput_awaiting (s : State) (i : InputId) : (s.settledInput i).awaiting = false := by
  rw [State.settledInput]
  split
  · rfl
  · next h => exact Bool.not_eq_true _ ▸ h

theorem settleInput_get (s : State) (i j : InputId) :
    (s.settleInput j).inputs[i] = if j = i then s.settledInput i else s.inputs[i] := by
  rw [State.settleInput, State.settledInput]
  by_cases hj : s.inputs[j].awaiting = true
  · rw [if_pos hj, mapInput_inputs, tset_get]
    by_cases h : j = i
    · subst h
      rw [if_pos rfl, if_pos rfl, if_pos hj]
    · rw [if_neg h, if_neg h]
  · rw [if_neg hj]
    by_cases h : j = i
    · subst h
      rw [if_pos rfl, if_neg hj]
    · rw [if_neg h]

/-- After the first comparisons of these inputs the others are as before. -/
theorem settleInputs_get (is : List InputId) : ∀ (s : State) (i : InputId),
    (is.foldl State.settleInput s).inputs[i] = if i ∈ is then s.settledInput i else s.inputs[i] := by
  induction is with
  | nil => exact fun s i => (if_neg List.not_mem_nil).symm
  | cons j is ih =>
    intro s i
    have hpins : (s.settleInput j).pins = s.pins := settleInput_changes s j .pins (by decide)
    rw [List.foldl_cons, ih]
    by_cases h : j = i
    · subst h
      have hget := (settleInput_get s j j).trans (if_pos rfl)
      have hagain : (s.settleInput j).settledInput j = s.settledInput j := by
        rw [State.settledInput, hget, settledInput_awaiting, if_neg Bool.false_ne_true]
      rw [hagain, hget, ite_self, if_pos List.mem_cons_self]
    · have hget := (settleInput_get s i j).trans (if_neg h)
      have hagain : (s.settleInput j).settledInput i = s.settledInput i := by
        rw [State.settledInput, hget, hpins, State.settledInput]
      have hmem : i ∈ j :: is ↔ i ∈ is := by
        rw [List.mem_cons]
        exact or_iff_right (Ne.symm h)
      rw [hagain, hget]
      simp only [hmem]

theorem settleInputs_changes (is : List InputId) : ∀ s : State, OnlyChanges [.inputs] s (is.foldl State.settleInput s) := by
  induction is with
  | nil => exact fun s => .refl _ s
  | cons j is ih => exact fun s => (settleInput_changes s j).trans (ih _)

/-- The state of a µs that ends, once the inputs have had their first comparisons. -/
def State.compared (s : State) : State :=
  allInputs.foldl State.settleInput s

theorem compared_get (s : State) (i : InputId) : s.compared.inputs[i] = s.settledInput i :=
  (settleInputs_get allInputs s i).trans (if_pos (mem_allInputs i))

theorem compared_changes (s : State) : OnlyChanges [.inputs] s s.compared :=
  settleInputs_changes allInputs s

/-! ### A sample of an input (R135 to R137) -/

/-- R135: an input whose comparison begins a run. -/
def State.runBegun (s : State) (i : InputId) : Input :=
  { s.inputs[i] with mark := .taken, run := some { candidate := s.pins[i], count := 1, capture := s.position.capture } }

/-- What a comparison or sample that does something leaves of its input. -/
structure State.Samples (s : State) (i : InputId) (x : Input) : Prop where
  mark : x.mark = .taken
  awaiting : x.awaiting = false
  begins : s.inputs[i].run = none → s.inputs[i].filterOn = true → x = s.runBegun i

theorem takeSample_samples {s : State} {i : InputId} (h : s.sampleStirs i = true) (ha : s.inputs[i].awaiting = false) :
    ∃ x : Input, s.Samples i x ∧ (s.takeSample i).inputs = tset s.inputs i x := by
  have hpin : s.showPin i s.pins[i] = s := by rw [State.showPin, tset_same]
  cases hdue : s.runDue i with
  | some r =>
    obtain ⟨hrun, _⟩ := runDue_eq_some.mp hdue
    have hbegins {x : Input} (hnone : s.inputs[i].run = none) : s.inputs[i].filterOn = true → x = s.runBegun i := by
      rw [hrun] at hnone
      cases hnone
    rw [State.takeSample, hdue]
    simp only [State.sample, hpin]
    split
    · split
      · exact ⟨_, And.symm ⟨accept_inputs _ _ _ _, ⟨rfl, ha, hbegins⟩⟩⟩
      · exact ⟨_, And.symm ⟨rfl, ⟨rfl, ha, hbegins⟩⟩⟩
    · exact ⟨_, And.symm ⟨abandonRun_inputs _ _, ⟨rfl, ha, hbegins⟩⟩⟩
  | none =>
    obtain ⟨r, hr⟩ | ⟨hrun, hmark, hdiffers⟩ := (sampleStirs_iff s i).mp h
    · exact absurd hr (runDue_eq_none.mp hdue r)
    · rw [State.takeSample, hdue]
      simp only [State.compare, hpin]
      rw [if_neg (by rw [ha]; exact Bool.false_ne_true), if_neg (by rw [hrun]; exact Bool.false_ne_true), hmark]
      simp only
      rw [if_neg (Ne.symm hdiffers)]
      by_cases hfilter : s.inputs[i].filterOn = true
      · rw [if_pos hfilter]
        exact ⟨_, And.symm ⟨rfl, ⟨rfl, ha, fun _ _ => rfl⟩⟩⟩
      · rw [if_neg hfilter]
        exact ⟨_, And.symm ⟨accept_inputs _ _ _ _, ⟨rfl, ha, fun _ hon => absurd hon hfilter⟩⟩⟩

/-! ### The rounds at the end of a µs (R119, R131, R135) -/

/-- The Position Unit after a tick. -/
def Position.unticked (p : Position) : Position :=
  { p with tickDue := false, timersTaken := false }

/-- What the rounds that end a µs keep, from the state `s` they began in to `t`. -/
structure State.Micro (s t : State) : Prop where
  pins : t.pins = s.pins
  ts : t.position.ts = s.position.ts
  subMs : t.position.subMs = s.position.subMs
  rest : s.position.settled → t.position = s.position ∨ (s.position.tickDue = true ∧ t.position = s.position.unticked)
  awaiting : ∀ i : InputId, t.inputs[i].awaiting = false
  inputs : ∀ i : InputId, t.inputs[i] = s.inputs[i] ∨ (s.sampleStirs i = true ∧ t.inputs[i].mark = .taken ∧
    (s.position.settled → s.inputs[i].run = none → s.inputs[i].filterOn = true → t.inputs[i] = s.runBegun i))

/-- With the channels at rest no capture changes in these rounds. -/
theorem State.Micro.capture {s t : State} (h : s.Micro t) (hs : s.position.settled) :
    t.position.capture = s.position.capture := by
  obtain hp | ⟨_, hp⟩ := h.rest hs <;> rw [hp]
  rfl

theorem State.Micro.settled {s t : State} (h : s.Micro t) (hs : s.position.settled) : t.position.settled := by
  obtain hp | ⟨_, hp⟩ := h.rest hs <;> rw [hp]
  · exact hs
  · exact hs

/-- What leaves the inputs and the pins. -/
theorem State.Micro.leave {s t u : State} (h : s.Micro t) (hinputs : u.inputs = t.inputs) (hpins : u.pins = t.pins)
    (hts : u.position.ts = t.position.ts) (hsub : u.position.subMs = t.position.subMs)
    (hrest : s.position.settled →
      u.position = s.position ∨ (s.position.tickDue = true ∧ u.position = s.position.unticked)) : s.Micro u :=
  ⟨hpins.trans h.pins, hts.trans h.ts, hsub.trans h.subMs, hrest, hinputs ▸ h.awaiting, hinputs ▸ h.inputs⟩

/-- The end of an event and the grant change nothing of this. -/
theorem State.Micro.ended {s t u : State} (h : s.Micro u) : s.Micro (t.ended u.finish) := by
  have hfinish := finish_changes u
  have hended := ended_changes t u.finish
  have hposition : (t.ended u.finish).position = u.position :=
    (hended .position (by decide)).trans (hfinish .position (by decide))
  exact h.leave ((hended .inputs (by decide)).trans (hfinish .inputs (by decide)))
    ((hended .pins (by decide)).trans (hfinish .pins (by decide))) (congrArg Position.ts hposition)
    (congrArg Position.subMs hposition) (hposition ▸ h.rest)

/-- One of the things that are left. -/
theorem State.Micro.takeLeftover {s t : State} (h : s.Micro t) {e : Leftover} (he : e ∈ t.leftovers) :
    s.Micro (t.takeLeftover e) := by
  obtain ⟨rfl, hunsettled⟩ | ⟨rfl, hdue⟩ | ⟨i, rfl, hstirs⟩ := (mem_leftovers t e).mp he
  · have hchanges := sampleChannels_changes t
    have hmoved := sampleChannels_moved t
    simp only [Position.Moved] at hmoved
    have hts : t.sampleChannels.position.ts = t.position.ts := by rw [hmoved]
    have hsub : t.sampleChannels.position.subMs = t.position.subMs := by rw [hmoved]
    exact h.leave (hchanges .inputs (by decide)) (hchanges .pins (by decide)) hts hsub
      (fun hs => absurd (h.settled hs) hunsettled)
  · refine h.leave rfl rfl rfl rfl fun hs => Or.inr ?_
    obtain hp | ⟨_, hp⟩ := h.rest hs
    · refine ⟨hp ▸ hdue, ?_⟩
      show t.position.unticked = _
      rw [hp]
    · rw [hp] at hdue
      cases hdue
  · obtain ⟨x, hx, hinputs⟩ := takeSample_samples hstirs (h.awaiting i)
    obtain ⟨_, _, _, hpins⟩ := takeSample_inputs hstirs
    have hposition : (t.takeSample i).position = t.position := takeSample_changes t i .position (by decide)
    refine ⟨hpins.trans h.pins, ?_, ?_, ?_, fun j => ?_, fun j => ?_⟩
    · exact (congrArg Position.ts hposition).trans h.ts
    · exact (congrArg Position.subMs hposition).trans h.subMs
    · show _ → (t.takeSample i).position = _ ∨ _ ∧ (t.takeSample i).position = _
      rw [hposition]
      exact h.rest
    · show (t.takeSample i).inputs[j].awaiting = false
      rw [hinputs, tset_get]
      split
      · exact hx.awaiting
      · exact h.awaiting j
    · show (t.takeSample i).inputs[j] = _ ∨ _ ∧ (t.takeSample i).inputs[j].mark = _ ∧ (_ → _ → _ →
        (t.takeSample i).inputs[j] = _)
      rw [hinputs, tset_get]
      by_cases hij : i = j
      · subst hij
        rw [if_pos rfl]
        obtain hsame | ⟨_, htaken, _⟩ := h.inputs i
        · refine Or.inr ⟨?_, hx.mark, fun hs hrun hfilter => ?_⟩
          · rw [← sampleStirs_congr hsame h.pins h.ts]
            exact hstirs
          · rw [hx.begins (by rw [hsame]; exact hrun) (by rw [hsame]; exact hfilter), State.runBegun, State.runBegun,
              hsame, h.pins, h.capture hs]
        · rw [sampleStirs_taken htaken] at hstirs
          cases hstirs
      · rw [if_neg hij]
        exact h.inputs j

theorem State.Micro.takeLeftovers (n : Nat) : ∀ {s t : State}, s.Micro t → s.Micro (State.takeLeftovers n t) := by
  induction n with
  | zero => exact fun h => h
  | succ n ih =>
    intro s t h
    by_cases hnil : t.leftovers = []
    · rw [takeLeftovers_none _ hnil]
      exact h
    · obtain ⟨e, he, k, heq⟩ := takeLeftovers_some n hnil
      have hchosen : s.Micro { t with choices := k } := ⟨h.pins, h.ts, h.subMs, h.rest, h.awaiting, h.inputs⟩
      rw [heq]
      exact ih (hchosen.takeLeftover he).ended

theorem endMicro_micro (s : State) : s.compared.Micro s.endMicro := by
  have hbegins : s.compared.Micro s.compared := by
    refine ⟨rfl, rfl, rfl, fun _ => Or.inl rfl, fun i => ?_, fun i => Or.inl rfl⟩
    rw [compared_get]
    exact settledInput_awaiting s i
  exact hbegins.takeLeftovers _

end Sys2Proof.Machine
end

section
/-! SUPPORT. The advance of TS (R117, R130, R131, R133, R135). -/

namespace Sys2Proof.Machine

/-! ### The advance of TS (R130, R131) -/

theorem advance_within {p : Position} (h : p.subMs < 999) :
    p.advance = { p with ts := p.ts + 1, subMs := p.subMs + 1 } :=
  if_pos h

theorem advance_rolls {p : Position} (h : 999 ≤ p.subMs) :
    p.advance = { p with ts := p.ts + 1, subMs := 0, tickDue := true } :=
  if_neg (Nat.not_lt.mpr h)

theorem advance_ts (p : Position) : p.advance.ts = p.ts + 1 := by
  rw [Position.advance]
  split <;> rfl

theorem advance_settled {p : Position} (h : p.settled) : p.advance.settled := by
  rw [Position.advance]
  split <;> exact h

/-- The advance of TS with nothing left of the µs before it. -/
def State.advanced (u : State) : State :=
  (State.openSamples { u with position := u.position.advance }).nextMoment

theorem exec_tsAdvance (s : State) : exec .tsAdvance s = .next s.endMicro.advanced.finish := rfl

theorem advanced_position (u : State) : u.advanced.finish.position = u.position.advance :=
  finish_changes u.advanced .position (by decide)

theorem advanced_get (u : State) (i : InputId) :
    u.advanced.finish.inputs[i] = { u.inputs[i] with mark := .due } := by
  have hinputs : u.advanced.finish.inputs = u.advanced.inputs := finish_changes u.advanced .inputs (by decide)
  rw [hinputs]
  exact tmap_get _ _ i

theorem advanced_lane (u : State) (l : LaneId) : u.advanced.lanes[l] = { u.lanes[l] with struck := none } :=
  tmap_get _ _ l

/-! ### The µs that ends -/

theorem endMicro_eq (s : State) : s.endMicro = State.takeLeftovers 20 (allInputs.foldl State.settleInput s) := by
  rw [State.endMicro, Config.leftoverBound]

theorem endMicro_ts (s : State) : s.endMicro.position.ts = s.position.ts := by
  rw [(endMicro_micro s).ts, compared_changes s .position (by decide)]

theorem endMicro_subMs (s : State) : s.endMicro.position.subMs = s.position.subMs := by
  rw [(endMicro_micro s).subMs, compared_changes s .position (by decide)]

theorem endMicro_rests (s : State) : s.endMicro.position.settled ∧ s.endMicro.position.tickDue = false :=
  have ⟨hsettled, htick, _⟩ := leftovers_eq_nil.mp (endMicro_leftovers s)
  ⟨hsettled, htick⟩

/-- With the channels at rest before, the Position Unit has taken the tick at most. -/
theorem endMicro_position {s : State} (hs : s.position.settled) : s.endMicro.position =
    if s.position.tickDue = true then s.position.unticked else s.position := by
  have hsame : s.compared.position = s.position := compared_changes s .position (by decide)
  have hrest := (endMicro_micro s).rest
  rw [hsame] at hrest
  obtain hp | ⟨hdue, hp⟩ := hrest hs
  · obtain ⟨_, hdue⟩ := endMicro_rests s
    rw [hp] at hdue
    rw [hp, hdue, if_neg Bool.false_ne_true]
  · rw [hp, hdue, if_pos rfl]

/-- R133: an input that awaits its first comparison has its next at the advance of TS. -/
theorem endMicro_compares {s : State} {i : InputId} (ha : s.inputs[i].awaiting = true) :
    s.endMicro.inputs[i] = { s.inputs[i] with accepted := s.pins[i], awaiting := false, mark := .taken } := by
  have hget : s.compared.inputs[i] = { s.inputs[i] with accepted := s.pins[i], awaiting := false, mark := .taken } := by
    rw [compared_get, State.settledInput, if_pos ha]
  obtain hsame | ⟨hstirs, _⟩ := (endMicro_micro s).inputs i
  · rw [hsame, hget]
  · rw [sampleStirs_taken (by rw [hget])] at hstirs
    cases hstirs

section
variable {s : State} {i : InputId} (ha : s.inputs[i].awaiting = false)
include ha

theorem compared_settled : s.compared.inputs[i] = s.inputs[i] := by
  rw [compared_get, State.settledInput, ha, if_neg Bool.false_ne_true]

theorem compared_stirs : s.compared.sampleStirs i = s.sampleStirs i :=
  sampleStirs_congr (compared_settled ha) (compared_changes s .pins (by decide))
    (congrArg Position.ts (compared_changes s .position (by decide)))

/-- An input whose comparison or sample does nothing is left. -/
theorem endMicro_leaves (hstirs : s.sampleStirs i = false) : s.endMicro.inputs[i] = s.inputs[i] := by
  obtain hsame | ⟨htrue, _⟩ := (endMicro_micro s).inputs i
  · rw [hsame, compared_settled ha]
  · rw [compared_stirs ha, hstirs] at htrue
    cases htrue

/-- R135: an input whose comparison finds a difference. -/
theorem endMicro_begins (hs : s.position.settled) (hrun : s.inputs[i].run = none) (hmark : s.inputs[i].mark = .due)
    (hfilter : s.inputs[i].filterOn = true) (hdiffers : s.inputs[i].accepted ≠ s.pins[i]) :
    s.endMicro.inputs[i] = s.runBegun i := by
  have hsame := compared_settled ha
  have hposition : s.compared.position = s.position := compared_changes s .position (by decide)
  have hpins : s.compared.pins = s.pins := compared_changes s .pins (by decide)
  have hbegun : s.compared.runBegun i = s.runBegun i := by
    rw [State.runBegun, State.runBegun, hsame, hposition, hpins]
  obtain hstill | ⟨_, _, hbegins⟩ := (endMicro_micro s).inputs i
  · obtain ⟨_, _, hnone⟩ := leftovers_eq_nil.mp (endMicro_leftovers s)
    have hstirs : s.endMicro.sampleStirs i = s.sampleStirs i :=
      sampleStirs_congr (hstill.trans hsame) ((endMicro_micro s).pins.trans hpins) (endMicro_ts s)
    rw [hnone i, (sampleStirs_iff s i).mpr (Or.inr ⟨hrun, hmark, hdiffers⟩)] at hstirs
    cases hstirs
  · rw [hsame, hposition, hbegun] at hbegins
    exact hbegins hs hrun hfilter

end

/-- With no step, tick or sample left of a µs the first comparisons end it. -/
theorem endMicro_idle {s : State} (hs : s.position.settled) (hdue : s.position.tickDue = false)
    (hstill : ∀ i : InputId, s.inputs[i].awaiting = false → s.sampleStirs i = false) : s.endMicro = s.compared := by
  have hposition : s.compared.position = s.position := compared_changes s .position (by decide)
  have hnil : s.compared.leftovers = [] := by
    rw [leftovers_eq_nil, hposition]
    refine ⟨hs, hdue, fun i => ?_⟩
    by_cases ha : s.inputs[i].awaiting = true
    · exact sampleStirs_taken (by rw [compared_get, State.settledInput, if_pos ha])
    · have hfalse : s.inputs[i].awaiting = false := by simpa using ha
      rw [compared_stirs hfalse]
      exact hstill i hfalse
  have hcompared : s.endMicro = State.takeLeftovers Config.leftoverBound s.compared := rfl
  rw [hcompared, takeLeftovers_none _ hnil]

theorem compared_quiet {s : State} (h : s.quiet) : s.compared.quiet := by
  have hchanges := compared_changes s
  have hagenda : s.compared.agenda = s.agenda := hchanges .agenda (by decide)
  have hlink : s.compared.link = s.link := hchanges .link (by decide)
  have hnotices : s.compared.notices = s.notices := hchanges .notices (by decide)
  rw [State.quiet, hagenda, hlink, hnotices]
  exact h

theorem advanced_quiet {u : State} (h : u.quiet) : u.advanced.finish = u.advanced :=
  finish_quiet u.advanced h

theorem advanced_changes (u : State) : OnlyChanges [.position, .inputs, .lanes] u u.advanced := by
  intro b hb
  cases b with
  | position | inputs | lanes => exact absurd (by decide) hb
  | _ => rfl

/-- Settles O16: what the rounds that end a µs keep (`State.Micro`), and the advance after them. -/
theorem timeAdvances : Obligations.TimeAdvances := by
  refine ⟨?_, ?_, ?_, ?_, ?_⟩
  · intro s e
    rw [mem_leftovers]
    simp only [sampleStirs_iff]
  · intro s n hne
    obtain ⟨e, he, k, heq⟩ := takeLeftovers_some n hne
    exact ⟨e, k, he, heq⟩
  · exact fun s i => ⟨rfl, rfl, rfl⟩
  · intro s u
    have hu : u = s.endMicro := (endMicro_eq s).symm
    rw [hu]
    exact ⟨endMicro_leftovers s, rfl⟩
  · intro s stirs
    have hexec := exec_tsAdvance s
    obtain ⟨hsettled, htick⟩ := endMicro_rests s
    have hts := endMicro_ts s
    have hsub := endMicro_subMs s
    have hawaiting := (endMicro_micro s).awaiting
    have hend (hs : s.position.settled) := endMicro_position hs
    have hcompares (i : InputId) := endMicro_compares (s := s) (i := i)
    have hleaves (i : InputId) := endMicro_leaves (s := s) (i := i)
    have hbegins (i : InputId) := endMicro_begins (s := s) (i := i)
    have hidle := endMicro_idle (s := s)
    generalize s.endMicro = u at *
    have hposition := advanced_position u
    refine ⟨u.advanced.finish, hexec, ?_, ?_, fun hlt => ?_, fun hge => ?_, fun i => ?_, fun hs => ?_⟩
    · rw [hposition, advance_ts, hts]
    · rw [hposition]
      exact advance_settled hsettled
    · rw [hposition, advance_within (by rw [hsub]; exact hlt)]
      exact ⟨congrArg (· + 1) hsub, htick⟩
    · rw [hposition, advance_rolls (by rw [hsub]; exact hge)]
      exact ⟨rfl, rfl⟩
    · rw [advanced_get]
      exact ⟨rfl, hawaiting i⟩
    · refine ⟨?_, fun i ha hrun => ?_, fun i ha hstill => ?_, fun i ha hrun hmark hfilter hdiffers => ?_,
        fun hquiet hdue hstill => ?_⟩
      · have htaken : u.position = { s.position with
            tickDue := false
            timersTaken := if s.position.tickDue = true then false else s.position.timersTaken } := by
          by_cases hdue : s.position.tickDue = true
          · rw [hend hs, if_pos hdue, if_pos hdue]
            rfl
          · have hfalse : s.position.tickDue = false := by simpa using hdue
            rw [hend hs, if_neg hdue, if_neg hdue, ← hfalse]
        rw [hposition, htaken]
        rfl
      · rw [advanced_get, hcompares i ha]
      · rw [advanced_get, hleaves i ha ((sampleStirs_false_iff s i).mpr hstill)]
      · rw [advanced_get, hbegins i ha hs hrun hmark hfilter hdiffers]
        rfl
      · have hu := hidle hs hdue fun i ha => (sampleStirs_false_iff s i).mpr (hstill i ha)
        have hlanes : s.compared.lanes = s.lanes := compared_changes s .lanes (by decide)
        rw [hu, advanced_quiet (compared_quiet hquiet)]
        refine ⟨((compared_changes s).mono (by decide)).trans (advanced_changes _), fun l => ?_⟩
        rw [advanced_lane, hlanes]

end Sys2Proof.Machine
end

section
/-! SUPPORT. SET_REACTION: the triggers and actions of a payload (R151, R156). -/

namespace Sys2Proof.Machine

theorem finOf_some_iff {n : Nat} (hn : n ≤ 256) (b : Byte) (i : Fin n) : finOf n b = some i ↔ b = natByte i := by
  refine ⟨fun h => ?_, fun h => by rw [h, finOf_natByte i hn]⟩
  have hval := finOf_eq_some h
  refine BitVec.eq_of_toNat_eq ?_
  rw [toNat_natByte (by omega), hval]

/-- A thing that a byte names, wrapped. -/
theorem map_finOf_some_iff {α : Type} {n : Nat} (hn : n ≤ 256) (b : Byte) (f : Fin n → α) (x : α) :
    (finOf n b).map f = some x ↔ ∃ i : Fin n, b = natByte i ∧ x = f i := by
  rw [Option.map_eq_some_iff]
  simp only [finOf_some_iff hn, eq_comm]

theorem map_finOf_none_iff {α : Type} {n : Nat} (b : Byte) (f : Fin n → α) : (finOf n b).map f = none ↔ n ≤ b.toNat := by
  rw [Option.map_eq_none_iff, finOf_none_iff]

theorem summaryOf_some_iff (b : Byte) (q : Summary) : summaryOf b = some q ↔ b = q.code := by
  revert b
  cases q <;> decide

theorem summaryOf_none_iff (b : Byte) : summaryOf b = none ↔ 7 < b.toNat := by
  revert b
  decide

theorem anyLaneOf_some_iff (b : Byte) (lane : Option LaneId) : anyLaneOf b = some lane ↔
    (b = 0xFF ∧ lane = none) ∨ ∃ l : LaneId, b = natByte l ∧ lane = some l := by
  rw [anyLaneOf, absentByte]
  by_cases h : b = 0xFF
  · have hfar : ∀ l : LaneId, (0xFF : Byte) ≠ natByte l := by decide
    rw [if_pos h, Option.some.injEq]
    refine ⟨fun heq => Or.inl ⟨h, heq.symm⟩, fun hor => ?_⟩
    obtain ⟨_, heq⟩ | ⟨l, hl, _⟩ := hor
    · exact heq.symm
    · exact absurd (h.symm.trans hl) (hfar l)
  · rw [if_neg h, map_finOf_some_iff (by decide)]
    simp only [h, false_and, false_or]

theorem anyLaneOf_none_iff (b : Byte) : anyLaneOf b = none ↔ 3 < b.toNat ∧ b ≠ 0xFF := by
  rw [anyLaneOf, absentByte]
  by_cases h : b = 0xFF
  · rw [if_pos h]
    exact ⟨nofun, fun hn => absurd h hn.2⟩
  · rw [if_neg h, map_finOf_none_iff]
    exact ⟨fun hn => ⟨hn, h⟩, And.left⟩

/-- A byte is one of the first few, or beyond them. -/
theorem kind_cases (kind : Byte) : kind = 0 ∨ kind = 1 ∨ kind = 2 ∨ kind = 3 ∨ kind = 4 ∨ kind = 5 ∨ kind = 6 ∨
    kind = 7 ∨ kind = 8 ∨ 8 < kind.toNat := by
  revert kind
  decide

/-! ### Triggers (R151) -/

/-- The trigger of each kind. -/
theorem triggerOf_kinds (param result : Byte) :
    triggerOf 0 param result = some .none ∧ triggerOf 1 param result = (finOf 16 param).map .input ∧
      triggerOf 2 param result = (finOf 4 param).map .timer ∧
      triggerOf 3 param result = (anyLaneOf param).bind (fun lane => (summaryOf result).map (.outcome lane)) ∧
      triggerOf 4 param result = (finOf 4 param).map .laneFault ∧ triggerOf 5 param result = some .requestOnly := by
  refine ⟨rfl, rfl, rfl, ?_, rfl, rfl⟩
  show (match anyLaneOf param, summaryOf result with
    | some lane, some r => some (Trigger.outcome lane r)
    | _, _ => none) = _
  cases anyLaneOf param with
  | none => rfl
  | some lane => cases summaryOf result <;> rfl

theorem triggerOf_far {kind : Byte} (h : 5 < kind.toNat) (param result : Byte) : triggerOf kind param result = none := by
  have hne (k : Byte) (hk : k.toNat ≤ 5) : kind ≠ k := by
    rintro rfl
    omega
  rw [triggerOf, if_neg (hne 0 (by decide)), if_neg (hne 1 (by decide)), if_neg (hne 2 (by decide)),
    if_neg (hne 3 (by decide)), if_neg (hne 4 (by decide)), if_neg (hne 5 (by decide))]

theorem outcome_some_iff (param result : Byte) (t : Trigger) :
    (anyLaneOf param).bind (fun lane => (summaryOf result).map (.outcome lane)) = some t ↔
      ∃ q : Summary, result = q.code ∧ ((param = 0xFF ∧ t = .outcome none q) ∨
        ∃ l : LaneId, param = natByte l ∧ t = .outcome (some l) q) := by
  simp only [Option.bind_eq_some_iff, Option.map_eq_some_iff, anyLaneOf_some_iff, summaryOf_some_iff]
  constructor
  · rintro ⟨lane, ⟨hp, rfl⟩ | ⟨l, hp, rfl⟩, q, hq, rfl⟩
    · exact ⟨q, hq, Or.inl ⟨hp, rfl⟩⟩
    · exact ⟨q, hq, Or.inr ⟨l, hp, rfl⟩⟩
  · rintro ⟨q, hq, ⟨hp, rfl⟩ | ⟨l, hp, rfl⟩⟩
    · exact ⟨none, Or.inl ⟨hp, rfl⟩, q, hq, rfl⟩
    · exact ⟨some l, Or.inr ⟨l, hp, rfl⟩, q, hq, rfl⟩

theorem outcome_none_iff (param result : Byte) :
    (anyLaneOf param).bind (fun lane => (summaryOf result).map (Trigger.outcome lane)) = none ↔
      (3 < param.toNat ∧ param ≠ 0xFF) ∨ 7 < result.toNat := by
  rw [← anyLaneOf_none_iff, ← summaryOf_none_iff]
  cases anyLaneOf param with
  | none => simp
  | some lane => simp

/-- R151: which trigger kinds and parameters are out of range. -/
theorem triggerOf_none_iff (kind param result : Byte) : triggerOf kind param result = none ↔
    5 < kind.toNat ∨ (kind = 1 ∧ 15 < param.toNat) ∨ ((kind = 2 ∨ kind = 4) ∧ 3 < param.toNat) ∨
      (kind = 3 ∧ ((3 < param.toNat ∧ param ≠ 0xFF) ∨ 7 < result.toNat)) := by
  obtain ⟨h0, h1, h2, h3, h4, h5⟩ := triggerOf_kinds param result
  by_cases hfar : 5 < kind.toNat
  · exact ⟨fun _ => Or.inl hfar, fun _ => triggerOf_far hfar param result⟩
  · obtain rfl | rfl | rfl | rfl | rfl | rfl | rfl | rfl | rfl | hbeyond := kind_cases kind
    · rw [h0]
      simp
    · rw [h1, map_finOf_none_iff]
      simp [Nat.succ_le_iff]
    · rw [h2, map_finOf_none_iff]
      simp [Nat.succ_le_iff]
    · rw [h3, outcome_none_iff]
      simp
    · rw [h4, map_finOf_none_iff]
      simp [Nat.succ_le_iff]
    · rw [h5]
      simp
    · exact absurd (by decide) hfar
    · exact absurd (by decide) hfar
    · exact absurd (by decide) hfar
    · omega

/-- R151: which trigger the bytes in range name. -/
theorem triggerOf_some_iff (kind param result : Byte) (t : Trigger) : triggerOf kind param result = some t ↔
    (kind = 0 ∧ t = .none) ∨ (kind = 1 ∧ ∃ i : InputId, param = natByte i ∧ t = .input i) ∨
      (kind = 2 ∧ ∃ k : TimerId, param = natByte k ∧ t = .timer k) ∨
      (kind = 3 ∧ ∃ q : Summary, result = q.code ∧ ((param = 0xFF ∧ t = .outcome Option.none q) ∨
        ∃ l : LaneId, param = natByte l ∧ t = .outcome (some l) q)) ∨
      (kind = 4 ∧ ∃ l : LaneId, param = natByte l ∧ t = .laneFault l) ∨ (kind = 5 ∧ t = .requestOnly) := by
  obtain ⟨h0, h1, h2, h3, h4, h5⟩ := triggerOf_kinds param result
  by_cases hfar : 5 < kind.toNat
  · rw [triggerOf_far hfar]
    refine ⟨nofun, ?_⟩
    rintro (⟨rfl, _⟩ | ⟨rfl, _⟩ | ⟨rfl, _⟩ | ⟨rfl, _⟩ | ⟨rfl, _⟩ | ⟨rfl, _⟩) <;> exact absurd hfar (by decide)
  · obtain rfl | rfl | rfl | rfl | rfl | rfl | rfl | rfl | rfl | hbeyond := kind_cases kind
    · rw [h0, Option.some.injEq, eq_comm]
      simp
    · rw [h1, map_finOf_some_iff (by decide)]
      simp
    · rw [h2, map_finOf_some_iff (by decide)]
      simp
    · rw [h3, outcome_some_iff]
      simp
    · rw [h4, map_finOf_some_iff (by decide)]
      simp
    · rw [h5, Option.some.injEq, eq_comm]
      simp
    · exact absurd (by decide) hfar
    · exact absurd (by decide) hfar
    · exact absurd (by decide) hfar
    · omega

/-! ### Actions (R151) -/

/-- The action of each kind. -/
theorem actionOf_kinds (param : Byte) (width : Half) :
    actionOf 0 param width = some .none ∧ actionOf 1 param width = (finOf 16 param).map .outSet ∧
      actionOf 2 param width = (finOf 16 param).map .outClear ∧
      actionOf 3 param width = (if width = 0 then none else (finOf 16 param).map (.outPulse · width)) ∧
      actionOf 4 param width = (finOf 4 param).map .timerStart ∧ actionOf 5 param width = (finOf 4 param).map .timerStop ∧
      actionOf 6 param width = (finOf 4 param).map .laneHold ∧ actionOf 7 param width = some .capture ∧
      actionOf 8 param width = some .notify := by
  refine ⟨rfl, rfl, rfl, ?_, rfl, rfl, rfl, rfl, rfl⟩
  show (match finOf 16 param with
    | some n => if width = 0 then none else some (Action.outPulse n width)
    | none => none) = _
  cases finOf 16 param with
  | none => exact (ite_self _).symm
  | some n => rfl

theorem actionOf_far {kind : Byte} (h : 8 < kind.toNat) (param : Byte) (width : Half) :
    actionOf kind param width = none := by
  have hne (k : Byte) (hk : k.toNat ≤ 8) : kind ≠ k := by
    rintro rfl
    omega
  rw [actionOf, if_neg (hne 0 (by decide)), if_neg (hne 1 (by decide)), if_neg (hne 2 (by decide)),
    if_neg (hne 3 (by decide)), if_neg (hne 4 (by decide)), if_neg (hne 5 (by decide)), if_neg (hne 6 (by decide)),
    if_neg (hne 7 (by decide)), if_neg (hne 8 (by decide))]

/-- R151: which action kinds and parameters are out of range. -/
theorem actionOf_none_iff (kind param : Byte) (width : Half) : actionOf kind param width = none ↔
    8 < kind.toNat ∨ ((kind = 1 ∨ kind = 2 ∨ kind = 3) ∧ 15 < param.toNat) ∨ (kind = 3 ∧ width = 0) ∨
      ((kind = 4 ∨ kind = 5 ∨ kind = 6) ∧ 3 < param.toNat) := by
  obtain ⟨h0, h1, h2, h3, h4, h5, h6, h7, h8⟩ := actionOf_kinds param width
  obtain rfl | rfl | rfl | rfl | rfl | rfl | rfl | rfl | rfl | hfar := kind_cases kind
  · rw [h0]
    simp
  · rw [h1, map_finOf_none_iff]
    simp [Nat.succ_le_iff]
  · rw [h2, map_finOf_none_iff]
    simp [Nat.succ_le_iff]
  · rw [h3]
    by_cases hw : width = 0
    · simp [hw]
    · rw [if_neg hw, map_finOf_none_iff]
      simp only [hw]
      simp [Nat.succ_le_iff]
  · rw [h4, map_finOf_none_iff]
    simp [Nat.succ_le_iff]
  · rw [h5, map_finOf_none_iff]
    simp [Nat.succ_le_iff]
  · rw [h6, map_finOf_none_iff]
    simp [Nat.succ_le_iff]
  · rw [h7]
    simp
  · rw [h8]
    simp
  · exact ⟨fun _ => Or.inl hfar, fun _ => actionOf_far hfar param width⟩

/-- R151: which action the bytes in range name. -/
theorem actionOf_some_iff (kind param : Byte) (width : Half) (a : Action) : actionOf kind param width = some a ↔
    (kind = 0 ∧ a = .none) ∨ (kind = 1 ∧ ∃ o : OutputId, param = natByte o ∧ a = .outSet o) ∨
      (kind = 2 ∧ ∃ o : OutputId, param = natByte o ∧ a = .outClear o) ∨
      (kind = 3 ∧ width ≠ 0 ∧ ∃ o : OutputId, param = natByte o ∧ a = .outPulse o width) ∨
      (kind = 4 ∧ ∃ k : TimerId, param = natByte k ∧ a = .timerStart k) ∨
      (kind = 5 ∧ ∃ k : TimerId, param = natByte k ∧ a = .timerStop k) ∨
      (kind = 6 ∧ ∃ l : LaneId, param = natByte l ∧ a = .laneHold l) ∨ (kind = 7 ∧ a = .capture) ∨
      (kind = 8 ∧ a = .notify) := by
  obtain ⟨h0, h1, h2, h3, h4, h5, h6, h7, h8⟩ := actionOf_kinds param width
  obtain rfl | rfl | rfl | rfl | rfl | rfl | rfl | rfl | rfl | hfar := kind_cases kind
  · rw [h0, Option.some.injEq, eq_comm]
    simp
  · rw [h1, map_finOf_some_iff (by decide)]
    simp
  · rw [h2, map_finOf_some_iff (by decide)]
    simp
  · rw [h3]
    by_cases hw : width = 0
    · simp [hw]
    · rw [if_neg hw, map_finOf_some_iff (by decide)]
      simp only [ne_eq, hw]
      simp
  · rw [h4, map_finOf_some_iff (by decide)]
    simp
  · rw [h5, map_finOf_some_iff (by decide)]
    simp
  · rw [h6, map_finOf_some_iff (by decide)]
    simp
  · rw [h7, Option.some.injEq, eq_comm]
    simp
  · rw [h8, Option.some.injEq, eq_comm]
    simp
  · rw [actionOf_far hfar]
    refine ⟨nofun, ?_⟩
    rintro (⟨rfl, _⟩ | ⟨rfl, _⟩ | ⟨rfl, _⟩ | ⟨rfl, _⟩ | ⟨rfl, _⟩ | ⟨rfl, _⟩ | ⟨rfl, _⟩ | ⟨rfl, _⟩ | ⟨rfl, _⟩) <;>
      exact absurd hfar (by decide)

/-! ### SET_REACTION (R156) -/

theorem reactionModeOf_code (m : ReactionMode) : reactionModeOf m.code = some m := by
  cases m <;> rfl

theorem reactionModeOf_none {b : Byte} (h : 1 < b.toNat) : reactionModeOf b = none := by
  have hne (k : Byte) (hk : k.toNat ≤ 1) : b ≠ k := by
    rintro rfl
    omega
  rw [reactionModeOf, if_neg (hne 0 (by decide)), if_neg (hne 1 (by decide))]

/-- R156: a SET_REACTION with a field out of range. -/
theorem reqSetReaction_refused (s : State) (reaction : Byte) (f : ReactionFields)
    (h : 11 < reaction.toNat ∨ triggerOf f.triggerKind f.triggerParam f.triggerResult = none ∨
      actionOf f.actionKind f.actionParam f.actionWidth = none ∨ 1 < f.mode.toNat ∨ 4096 ≤ f.chain.toNat) :
    s.reqSetReaction reaction f = s.refuse .badValue := by
  by_cases hr : 12 ≤ reaction.toNat
  · exact named_bad s reaction hr _
  · rw [State.reqSetReaction, State.named, finOf_some (Nat.lt_of_not_le hr)]
    obtain hr' | ht | ha | hm | hc := h
    · exact absurd hr' hr
    · rw [ht]
    · rw [ha]
      cases triggerOf f.triggerKind f.triggerParam f.triggerResult <;> rfl
    · rw [reactionModeOf_none hm]
      cases triggerOf f.triggerKind f.triggerParam f.triggerResult with
      | none => rfl
      | some t => cases actionOf f.actionKind f.actionParam f.actionWidth <;> rfl
    · rw [reactionSetOf_none hc]
      cases triggerOf f.triggerKind f.triggerParam f.triggerResult with
      | none => rfl
      | some t =>
        cases actionOf f.actionKind f.actionParam f.actionWidth with
        | none => rfl
        | some a => cases reactionModeOf f.mode <;> rfl

/-- R156: a SET_REACTION in range. -/
theorem reqSetReaction_takes (s : State) (r : ReactionId) {f : ReactionFields} {t : Trigger} {a : Action}
    {m : ReactionMode} (ht : triggerOf f.triggerKind f.triggerParam f.triggerResult = some t)
    (ha : actionOf f.actionKind f.actionParam f.actionWidth = some a) (hm : f.mode = m.code)
    (hc : f.chain.toNat < 4096) : s.reqSetReaction (natByte r) f =
      if s.reactions[r].enabled = true then s.refuse .wrongState
      else ([Status.ok.code], s.mapReaction r fun x =>
        { x with trigger := t, action := a, mode := m, chain := f.chain.setWidth 12 }) := by
  rw [State.reqSetReaction, named_natByte s r (by decide), hm]
  simp only [ht, ha, reactionModeOf_code, reactionSetOf_some hc]

/-- Settles O17: the bytes by their kinds, and SET_REACTION by whether its reaction is enabled. -/
theorem setReactionWritesADisabledReaction : Obligations.SetReactionWritesADisabledReaction := by
  refine ⟨⟨triggerOf_none_iff, actionOf_none_iff⟩, triggerOf_some_iff, actionOf_some_iff,
    fun s seq reaction f hs => ⟨fun hbad => ?_, ?_⟩⟩
  · exact request_refused s 0x2C seq _ .badValue hs
      ((dispatch_setReaction _ reaction f).trans (reqSetReaction_refused _ reaction f hbad)) rfl
  · rintro r t a m rfl ht ha hm hc
    have htakes := reqSetReaction_takes s.received r ht ha hm hc
    refine ⟨fun hon => ?_, fun hoff => ?_⟩
    · exact request_refused s 0x2C seq _ .wrongState hs
        ((dispatch_setReaction _ _ f).trans (htakes.trans (if_pos hon))) rfl
    · intro x
      have ⟨_, _, _, hagenda⟩ := hs
      have hx : s.received.mapReaction r (fun x =>
          { x with trigger := t, action := a, mode := m, chain := f.chain.setWidth 12 }) =
          { s.received with reactions := tset s.reactions r x } := by
        have hrow : ({ s.reactions[r] with
            trigger := t, action := a, mode := m, chain := f.chain.setWidth 12 } : Reaction) = x := by
          show Reaction.mk t a m _ s.reactions[r].enabled = _
          rw [hoff]
        exact congrArg (fun y => { s.received with reactions := tset s.reactions r y }) hrow
      have hwrites : s.received.reqSetReaction (natByte r) f =
          ([0], { s.received with reactions := tset s.reactions r x }) := by
        rw [htakes, if_neg (by show ¬ s.reactions[r].enabled = true; rw [hoff]; exact Bool.false_ne_true), hx]
        rfl
      exact request_writes s { s with reactions := tset s.reactions r x } 0x2C seq _ [0] hs
        ((dispatch_setReaction _ _ f).trans hwrites) hagenda rfl rfl

end Sys2Proof.Machine
end

section
/-! SUPPORT. The requests of the Position Unit, and forward and reverse steps (R18, R123, R124, R126 to R128). -/

namespace Sys2Proof.Machine

/-! ### SET_ENCODER and SET_POSITION (R127, R128) -/

theorem allOff_iff (s : State) : s.allOff = true ↔ ∀ l : LaneId, s.lanes[l].state = .off := by
  simp [State.allOff, mem_allLanes, Lane.live]

theorem allOff_false {s : State} (h : ∃ l : LaneId, s.lanes[l].state ≠ .off) : s.allOff = false := by
  obtain ⟨l, hl⟩ := h
  exact Bool.eq_false_iff.mpr fun hall => hl ((allOff_iff s).mp hall l)

theorem encoderModeOf_code (m : EncoderMode) : encoderModeOf m.code = some m := by
  cases m <;> rfl

theorem encoderModeOf_none {b : Byte} (h : 3 < b.toNat) : encoderModeOf b = none := by
  revert b
  decide

/-- Settles O22: the requests by the state of the lanes. -/
theorem encoderRequestsWriteThePositionUnit : Obligations.EncoderRequestsWriteThePositionUnit := by
  refine ⟨fun s seq mode rl ft hs => ⟨fun hbad => ?_, ?_⟩, fun s seq value hs => ⟨fun hlive => ?_, fun hoff => ?_⟩⟩
  · refine request_refused s 0x20 seq _ .badValue hs ((dispatch_setEncoder _ mode rl ft).trans ?_) rfl
    rw [State.reqSetEncoder, encoderModeOf_none hbad]
  · rintro m rfl
    have hreq : s.received.reqSetEncoder m.code rl ft = if s.received.allOff then ([Status.ok.code],
        { s.received with position := { s.received.position with
            mode := m, rl := rl, ft := ft, encoderFault := false, direction := .none } })
        else s.received.refuse .wrongState := by
      rw [State.reqSetEncoder, encoderModeOf_code]
    refine ⟨fun hlive => ?_, fun hoff => ?_⟩
    · refine request_refused s 0x20 seq _ .wrongState hs ((dispatch_setEncoder _ _ rl ft).trans (hreq.trans ?_)) rfl
      exact if_neg (by rw [received_allOff, allOff_false hlive]; exact Bool.false_ne_true)
    · have ⟨_, _, _, hagenda⟩ := hs
      exact request_writes s { s with position := { s.position with
          mode := m, rl := rl, ft := ft, encoderFault := false, direction := .none } } 0x20 seq _ [0] hs
        ((dispatch_setEncoder _ _ rl ft).trans (hreq.trans (if_pos ((allOff_iff s).mpr hoff)))) hagenda rfl rfl
  · refine request_refused s 0x21 seq _ .wrongState hs ((dispatch_setPosition _ value).trans ?_) rfl
    exact if_neg (by rw [received_allOff, allOff_false hlive]; exact Bool.false_ne_true)
  · have ⟨_, _, _, hagenda⟩ := hs
    exact request_writes s { s with position := { s.position with bp := value, hw := value, direction := .none } } 0x21
      seq _ [0] hs ((dispatch_setPosition _ value).trans (if_pos ((allOff_iff s).mpr hoff))) hagenda rfl rfl

/-! ### What a step on new ground hands out (R18, R124) -/

/-- The chains a list of events is handed out as, when they stand in one order. -/
def asChain (events : List Event) : List (List Event) :=
  if events = [] then [] else [events]

theorem asChain_flatten (events : List Event) : (asChain events).flatten = events := by
  rw [asChain]
  split
  · next h => rw [h]; rfl
  · exact List.append_nil _

theorem push_agenda (s : State) (events : List Event) : (s.push events).agenda = s.agenda ++ asChain events := by
  cases events with
  | nil => exact (List.append_nil _).symm
  | cons e es => rfl

/-- The chains that lane `l` hands out. -/
def State.laneChains (s : State) (l : LaneId) : List (List Event) :=
  asChain (s.decisionsDue l) ++ asChain (s.exitsDue l) ++ (s.jamsDue l).map (fun e => [e])

theorem offerStep_agenda (s : State) : s.offerStep.agenda = s.agenda ++ allLanes.flatMap s.laneChains ++
    s.scheduleDue.map (fun e => [e]) ++ (allInputs.flatMap s.windowsDue).map (fun e => [e]) := by
  have hlanes (ls : List LaneId) : ∀ acc : State, (ls.foldl (fun acc l =>
      ((acc.push (s.decisionsDue l)).push (s.exitsDue l)).pushEach (s.jamsDue l)) acc).agenda =
      acc.agenda ++ ls.flatMap s.laneChains := by
    induction ls with
    | nil => exact fun acc => (List.append_nil _).symm
    | cons l ls ih =>
      intro acc
      rw [List.foldl_cons, ih, List.flatMap_cons, pushEach_agenda, push_agenda, push_agenda, State.laneChains]
      simp only [List.append_assoc]
  rw [State.offerStep, pushEach_agenda, pushEach_agenda, hlanes]

theorem mem_offerStep {s : State} (ha : s.agenda = []) (e : Event) : e ∈ s.offerStep.agenda.flatten ↔
    (∃ l : LaneId, e ∈ s.decisionsDue l ∨ e ∈ s.exitsDue l ∨ e ∈ s.jamsDue l) ∨ e ∈ s.scheduleDue ∨
      ∃ i : InputId, e ∈ s.windowsDue i := by
  have hlanes : e ∈ (allLanes.flatMap s.laneChains).flatten ↔
      ∃ l : LaneId, e ∈ s.decisionsDue l ∨ e ∈ s.exitsDue l ∨ e ∈ s.jamsDue l := by
    have hlane (l : LaneId) : e ∈ (s.laneChains l).flatten ↔
        e ∈ s.decisionsDue l ∨ e ∈ s.exitsDue l ∨ e ∈ s.jamsDue l := by
      rw [State.laneChains, List.flatten_append, List.flatten_append, asChain_flatten, asChain_flatten,
        flatten_singletons, List.mem_append, List.mem_append, or_assoc]
    simp only [← hlane, List.mem_flatten, List.mem_flatMap]
    exact ⟨fun ⟨c, ⟨l, _, hc⟩, he⟩ => ⟨l, c, hc, he⟩, fun ⟨l, c, hc, he⟩ => ⟨c, ⟨l, mem_allLanes l, hc⟩, he⟩⟩
  have hinputs : e ∈ allInputs.flatMap s.windowsDue ↔ ∃ i : InputId, e ∈ s.windowsDue i := by
    rw [List.mem_flatMap]
    exact ⟨fun ⟨i, _, he⟩ => ⟨i, he⟩, fun ⟨i, he⟩ => ⟨i, mem_allInputs i, he⟩⟩
  rw [offerStep_agenda, ha, List.nil_append, List.flatten_append, List.flatten_append, flatten_singletons,
    flatten_singletons, List.mem_append, List.mem_append, hlanes, hinputs, or_assoc]

/-- The members of a table that have reached their positions, as events. -/
theorem mem_due {α : Type} {f : α → Event} {p : α → Bool} {xs : List α} {e : Event} :
    e ∈ (xs.filter p).map f ↔ ∃ x ∈ xs, e = f x ∧ p x = true := by
  rw [List.mem_map]
  exact ⟨fun ⟨x, hx, he⟩ => ⟨x, (List.mem_filter.mp hx).1, he.symm, (List.mem_filter.mp hx).2⟩,
    fun ⟨x, hx, he, hp⟩ => ⟨x, List.mem_filter.mpr ⟨hx, hp⟩, he.symm⟩⟩

theorem mem_decisionsDue (s : State) (l : LaneId) (e : Event) : e ∈ s.decisionsDue l ↔
    ∃ it ∈ s.items.queues[l], e = .decision l it.rid ∧ it.state = .opened ∧
      0 ≤ (s.position.hw - (it.entryPos + BitVec.ofNat 32 s.lanes[l].config.d)).toInt := by
  rw [State.decisionsDue, mem_due]
  simp only [decide_eq_true_eq, reached_iff, Item.point]

theorem mem_exitsDue (s : State) (l : LaneId) (e : Event) : e ∈ s.exitsDue l ↔
    ∃ it ∈ s.items.queues[l], e = .exitPoint l it.rid ∧
      0 ≤ (s.position.hw - (it.entryPos + BitVec.ofNat 32 s.lanes[l].config.x)).toInt := by
  rw [State.exitsDue, mem_due]
  simp only [reached_iff, Item.point]

theorem mem_jamsDue (s : State) (l : LaneId) (e : Event) : e ∈ s.jamsDue l ↔
    ∃ it ∈ s.items.queues[l], e = .jam l it.rid ∧ it.covering = true ∧ it.overlength = false ∧
      0 ≤ (s.position.hw - (it.entryPos + BitVec.ofNat 32 s.lanes[l].config.l)).toInt := by
  rw [State.jamsDue, mem_due]
  simp only [decide_eq_true_eq, reached_iff, Item.point, Bool.not_eq_true]

theorem mem_scheduleDue (s : State) (e : Event) : e ∈ s.scheduleDue ↔
    ∃ x ∈ s.schedule.positionList, e = .schedulePoint x.serial ∧ 0 ≤ (s.position.hw - x.filing).toInt := by
  rw [State.scheduleDue, mem_due]
  simp only [reached_iff]

theorem mem_windowsDue (s : State) (i : InputId) (e : Event) : e ∈ s.windowsDue i ↔
    ∃ w ∈ s.windows[i],
      (e = .windowOpen i w.rid ∧ w.phase = .pending ∧ 0 ≤ (s.position.hw - w.openPos).toInt) ∨
      (e = .windowClose i w.rid ∧ w.phase = .opened ∧ 0 ≤ (s.position.hw - (w.closePos + 1)).toInt) := by
  rw [State.windowsDue, List.mem_append, mem_due, mem_due]
  simp only [decide_eq_true_eq, reached_iff, Window.closeEvent]
  constructor
  · rintro (⟨w, hw, h⟩ | ⟨w, hw, h⟩)
    · exact ⟨w, hw, Or.inl h⟩
    · exact ⟨w, hw, Or.inr h⟩
  · rintro ⟨w, hw, h | h⟩
    · exact Or.inl ⟨w, hw, h⟩
    · exact Or.inr ⟨w, hw, h⟩

/-- The chains of a lane are handed out whole. -/
theorem mem_offerStep_of_chain (s : State) (l : LaneId) {c : List Event} (hne : c ≠ [])
    (hc : c = s.decisionsDue l ∨ c = s.exitsDue l) : c ∈ s.offerStep.agenda := by
  have hself {d : List Event} (hd : c = d) : c ∈ asChain d := by
    rw [asChain, ← hd, if_neg hne]
    exact List.mem_singleton_self c
  have hlane : c ∈ s.laneChains l := by
    obtain hd | he := hc
    · exact List.mem_append_left _ (List.mem_append_left _ (hself hd))
    · exact List.mem_append_left _ (List.mem_append_right _ (hself he))
  rw [offerStep_agenda]
  exact List.mem_append_left _ (List.mem_append_left _ (List.mem_append_right _
    (List.mem_flatMap.mpr ⟨l, mem_allLanes l, hlane⟩)))

/-! ### Taking what was handed out -/

theorem takeEvent_getElem (k : Nat) : ∀ {a : List (List Event)} {e : Event} {es : List Event},
    a[k]? = some (e :: es) → takeEvent k a = some (e, if es = [] then a.eraseIdx k else a.set k es) := by
  induction k with
  | zero =>
    intro a e es h
    cases a with
    | nil => cases h
    | cons c rest =>
      obtain rfl : c = e :: es := by simpa using h
      cases es with
      | nil => rfl
      | cons e' es => rfl
  | succ k ih =>
    intro a e es h
    cases a with
    | nil => cases h
    | cons c rest =>
      have hrest : rest[k]? = some (e :: es) := by simpa using h
      rw [takeEvent, ih hrest]
      by_cases hes : es = []
      · rw [if_pos hes, if_pos hes]
        rfl
      · rw [if_neg hes, if_neg hes]
        rfl

theorem choose_choices {s : State} {n : Nat} (hn : n ≠ 0) :
    (s.choose n).2 = { s with choices := if n = 1 then s.choices else s.choices + 1 } := by
  rw [State.choose]
  by_cases h : n ≤ 1
  · have hone : n = 1 := by omega
    rw [if_pos h, if_pos hone]
  · have hne : n ≠ 1 := by omega
    rw [if_neg h, if_neg hne]

/-- R18: the first event of some chain is taken. -/
theorem takeOne_chain {s : State} (hne : s.agenda ≠ []) (hc : ∀ c ∈ s.agenda, c ≠ []) :
    ∃ (k : Nat) (e : Event) (es : List Event), s.agenda[k]? = some (e :: es) ∧ s.takeOne = State.handle { s with
      agenda := if es = [] then s.agenda.eraseIdx k else s.agenda.set k es
      choices := if s.agenda.length = 1 then s.choices else s.choices + 1 } e := by
  have hlength : s.agenda.length ≠ 0 := fun h => hne (List.length_eq_zero_iff.mp h)
  have hlt := choose_lt s (Nat.pos_of_ne_zero hlength)
  obtain ⟨c, hget⟩ : ∃ c, s.agenda[(s.choose s.agenda.length).1]? = some c := ⟨_, List.getElem?_eq_getElem hlt⟩
  cases c with
  | nil => exact absurd rfl (hc [] (List.mem_of_getElem? hget))
  | cons e es =>
    refine ⟨_, e, es, hget, ?_⟩
    rw [State.takeOne]
    simp only [choose_choices hlength, takeEvent_getElem _ hget]

/-! ### Steps (R123) -/

theorem forward_eq (p : Position) : p.forward =
    { p with bp := p.bp + 1, hw := if p.bp = p.hw then p.hw + 1 else p.hw, direction := .forward } := by
  rw [Position.forward, Position.atHighWater]
  simp only [decide_eq_true_eq]

theorem stepForward_eq (s : State) : s.stepForward = if s.position.bp = s.position.hw
    then State.offerStep { s with position := s.position.forward } else { s with position := s.position.forward } := by
  rw [State.stepForward, Position.atHighWater]
  simp only [decide_eq_true_eq]

theorem stepReverse_eq (s : State) : s.stepReverse = if s.position.crossesLimit = true
    then State.offerAll { s with position := s.position.back } .reverse else { s with position := s.position.back } := rfl

/-- What the end of a step leaves. -/
theorem stepEnds_changes {s u : State} (h : OnlyChanges [.position, .agenda, .choices] s u) :
    OnlyChanges [.position, .items, .verdicts, .schedule, .outputs, .windows, .lanes, .timers, .reactions, .notices,
      .link, .choices, .agenda] s u.finish.stepEnded :=
  ((h.mono (by decide)).trans ((finish_changes u).mono (by decide))).trans ((stepEnded_changes _).mono (by decide))

theorem stepEnds_position (u : State) : u.finish.stepEnded.position = u.position :=
  (stepEnded_changes _ .position (by decide)).trans (finish_changes u .position (by decide))

/-- Settles O23: `offerStep` hands out what the high-water mark has reached, and `takeOne` takes the first of a chain. -/
theorem forwardStepMovesTheBeltAndOffersPoints : Obligations.ForwardStepMovesTheBeltAndOffersPoints := by
  refine ⟨fun s => ?_, fun s e ha => ?_, fun s l => ?_, fun s n => ⟨?_, takeOne_chain⟩,
    fun s l i k => ⟨rfl, rfl, rfl, rfl, rfl, rfl⟩⟩
  · rcases hl : s.position.forwardLevels with ⟨a, b⟩
    refine ⟨a, b, ?_⟩
    intro bp t moved
    have hstep : (s.setChannels (a, b)).stepForward = moved := by
      have ht : { s.setChannels (a, b) with position := (s.setChannels (a, b)).position.forward } = t := by
        rw [forward_eq]
        rfl
      rw [stepForward_eq, ht]
      rfl
    have hexec : exec .forwardStep s = .next moved.finish.stepEnded := by
      show Host.Outcome.next (s.setChannels s.position.forwardLevels).stepForward.finish.stepEnded = _
      rw [hl, hstep]
    have hmoved : OnlyChanges [.position, .agenda] s moved := by
      rw [← hstep]
      exact ((setChannels_changes s (a, b)).mono (by decide)).trans (stepForward_changes _)
    have hposition : moved.position = t.position := by
      by_cases hnew : bp = s.position.hw
      · rw [show moved = t.offerStep from if_pos hnew]
        exact offerStep_changes t .position (by decide)
      · rw [show moved = t from if_neg hnew]
    refine ⟨hexec, fun hq hold => ?_, _, hexec, (stepEnds_position moved).trans hposition,
      stepEnds_changes (hmoved.mono (by decide))⟩
    have hquiet : t.quiet := hq
    rw [hexec, show moved = t from if_neg hold, finish_quiet t hquiet]
  · intro reachedBy
    rw [mem_offerStep ha]
    simp only [mem_decisionsDue, mem_exitsDue, mem_jamsDue, mem_scheduleDue, mem_windowsDue]
    refine or_congr_left (exists_congr fun l => ?_)
    constructor
    · rintro (⟨it, hit, h⟩ | ⟨it, hit, h⟩ | ⟨it, hit, h⟩)
      · exact ⟨it, hit, Or.inl h⟩
      · exact ⟨it, hit, Or.inr (Or.inl h)⟩
      · exact ⟨it, hit, Or.inr (Or.inr h)⟩
    · rintro ⟨it, hit, h | h | h⟩
      · exact Or.inl ⟨it, hit, h⟩
      · exact Or.inr (Or.inl ⟨it, hit, h⟩)
      · exact Or.inr (Or.inr ⟨it, hit, h⟩)
  · intro points decisions exits
    have hdecisions : decisions = s.decisionsDue l := by
      show List.map _ (List.filter _ _) = List.map _ (List.filter _ _)
      congr 2
      funext it
      rw [Bool.decide_and, Bool.decide_eq_true]
      rfl
    have hexits : exits = s.exitsDue l := rfl
    exact ⟨fun hne => mem_offerStep_of_chain s l hne (Or.inl hdecisions),
      fun hne => mem_offerStep_of_chain s l hne (Or.inr hexits)⟩
  · by_cases h : s.agenda = []
    · rw [if_pos h, settle_empty _ s h]
    · rw [if_neg h, settle_succ h]

theorem reverseLevels_some {p : Position} (h : p.mode ≠ .count) : ∃ levels, p.reverseLevels = some levels := by
  rw [Position.reverseLevels]
  cases hm : p.mode with
  | count => exact absurd hm h
  | _ => exact ⟨_, rfl⟩

theorem back_eq (p : Position) : p.back = { p with
    bp := p.bp - 1, hw := if p.hw - p.bp = 0x7FFFFFFF then p.hw - 1 else p.hw, direction := .reverse } := rfl

theorem stepReverse_position (s : State) : s.stepReverse.position = s.position.back := by
  rw [stepReverse_eq]
  split
  · exact offerAll_changes _ _ .position (by decide)
  · rfl

/-- R126: a reverse step that stays on one side of the reverse limit offers nothing. -/
theorem stepReverse_within {s : State} (h : s.position.rd ≠ s.position.rl.setWidth 32) :
    s.stepReverse = { s with position := s.position.back } := by
  rw [stepReverse_eq, if_neg]
  simp [Position.crossesLimit, h]

/-- REVERSE_STEP in a mode that has reverse steps. -/
theorem exec_reverseStep {s : State} {levels : Level × Level} (h : s.position.reverseLevels = some levels) :
    exec .reverseStep s = .next (s.setChannels levels).stepReverse.finish.stepEnded := by
  show execReverseStep s = _
  rw [execReverseStep, h]
  rfl

/-- Settles O24: a reverse step by its mode. -/
theorem reverseStepMovesTheBelt : Obligations.ReverseStepMovesTheBelt := by
  refine fun s => ⟨fun hmode hq => ?_, fun hmode => ?_⟩
  · have hnone : s.position.reverseLevels = none := by rw [Position.reverseLevels, hmode]
    show execReverseStep s = _
    rw [execReverseStep, hnone]
    exact done_quiet s hq
  · obtain ⟨levels, hlevels⟩ := reverseLevels_some hmode
    let u := s.setChannels levels
    have hposition : u.stepReverse.finish.stepEnded.position = u.position.back :=
      (stepEnds_position _).trans (stepReverse_position u)
    have hchanges : OnlyChanges [.position, .agenda, .choices] s u.stepReverse :=
      ((setChannels_changes s levels).mono (by decide)).trans (stepReverse_changes u)
    refine ⟨u.stepReverse.finish.stepEnded, exec_reverseStep hlevels, ?_, stepEnds_changes hchanges,
      fun hq hrd => ?_⟩
    · rw [hposition]
      rfl
    · have hstep : u.stepReverse = { u with position := u.position.back } := stepReverse_within hrd
      have hquiet : State.quiet { u with position := u.position.back } := hq
      rw [hstep, finish_quiet _ hquiet]
      exact ⟨((setChannels_changes s levels).mono (by decide)).trans
        (((position_changes u _).mono (by decide)).trans ((stepEnded_changes _).mono (by decide))),
        fun l => tmap_get _ _ l⟩

end Sys2Proof.Machine
end

section
/-! SUPPORT. Records that leave with their work: entries, holds and windows (R23, R24, R63, R64, R94, R95). -/

namespace Sys2Proof.Machine

/-! ### Releases (R74) -/

theorem isOn_iff (e : ScheduleEntry) : e.isOn = true ↔ e.phase ≠ .waiting := by
  rw [ScheduleEntry.isOn]
  cases e.phase <;> simp

/-- What releases of the holds of these entries leave of an output. -/
structure Output.Releases (es : List ScheduleEntry) (o : OutputId) (x y : Output) : Prop where
  rest : { y with holders := x.holders } = x
  nodup : x.holders.Nodup → y.holders.Nodup
  holders : x.holders.Nodup → ∀ h : Holder, h ∈ y.holders ↔
    h ∈ x.holders ∧ ∀ e ∈ es, e.phase ≠ .waiting → e.output = o → h ≠ .firing e.owner

theorem Output.Releases.none {es : List ScheduleEntry} {o : OutputId} (x : Output)
    (h : ∀ e ∈ es, e.phase ≠ .waiting → e.output ≠ o) : Output.Releases es o x x :=
  ⟨rfl, id, fun _ _ => ⟨fun hx => ⟨hx, fun e he hp ho => absurd ho (h e he hp)⟩, And.left⟩⟩

theorem Output.Releases.trans {es fs : List ScheduleEntry} {o : OutputId} {x y z : Output}
    (h : Output.Releases es o x y) (k : Output.Releases fs o y z) : Output.Releases (es ++ fs) o x z where
  rest := by
    have hz : ({ z with holders := x.holders } : Output) =
        { ({ z with holders := y.holders } : Output) with holders := x.holders } := rfl
    rw [hz, k.rest, h.rest]
  nodup := k.nodup ∘ h.nodup
  holders hx hd := by
    rw [k.holders (h.nodup hx), h.holders hx, and_assoc]
    simp only [List.mem_append, or_imp, forall_and]

/-- The same entries in another order, or named twice, release the same. -/
theorem Output.Releases.congr {es fs : List ScheduleEntry} {o : OutputId} {x y : Output} (h : Output.Releases es o x y)
    (hmem : ∀ e, e ∈ es ↔ e ∈ fs) : Output.Releases fs o x y :=
  ⟨h.rest, h.nodup, fun hx hd => (h.holders hx hd).trans (by simp only [hmem])⟩

theorem releaseEntry_releases (s : State) (e : ScheduleEntry) (o : OutputId) :
    Output.Releases [e] o s.outputs[o] (s.releaseEntry e).outputs[o] := by
  rw [State.releaseEntry]
  by_cases hon : e.isOn = true
  · rw [if_pos hon, State.release, mapOutput_outputs, tset_get]
    by_cases ho : e.output = o
    · subst ho
      rw [if_pos rfl]
      refine ⟨rfl, fun hx => hx.erase _, fun hx h => ?_⟩
      rw [hx.mem_erase_iff, and_comm]
      simp only [List.mem_singleton, forall_eq, forall_const]
      exact and_congr_right fun _ => ⟨fun hne _ => hne, fun himp => himp ((isOn_iff e).mp hon)⟩
    · rw [if_neg ho]
      refine .none _ fun f hf _ => ?_
      rw [List.mem_singleton.mp hf]
      exact ho
  · rw [if_neg hon]
    refine .none _ fun f hf hp => ?_
    rw [List.mem_singleton.mp hf] at hp
    exact absurd ((isOn_iff e).mpr hp) hon

theorem releaseEntries_releases (es : List ScheduleEntry) : ∀ (s : State) (o : OutputId),
    Output.Releases es o s.outputs[o] (es.foldl State.releaseEntry s).outputs[o] := by
  induction es with
  | nil => exact fun s o => .none _ (fun e he => absurd he List.not_mem_nil)
  | cons e es ih => exact fun s o => (releaseEntry_releases s e o).trans (ih (s.releaseEntry e) o)

/-! ### The work of records that leave -/

/-- The entries of these records and their windows have gone, ON entries with their holds; nothing else of the schedule,
the windows and the outputs has changed. -/
structure State.DropsWork (rids : List Nat) (s t : State) : Prop where
  positions : t.schedule.positionList = s.schedule.positionList.filter (fun e => e.rid ∉ rids)
  times : t.schedule.timeList = s.schedule.timeList.filter (fun e => e.rid ∉ rids)
  windows : ∀ i : InputId, t.windows[i] = s.windows[i].filter (fun w => w.rid ∉ rids)
  outputs : ∀ o : OutputId, Output.Releases (s.schedule.entries.filter (fun e => e.rid ∈ rids)) o s.outputs[o] t.outputs[o]

theorem State.DropsWork.nil (s : State) : s.DropsWork [] s := by
  refine ⟨?_, ?_, fun i => ?_, fun o => ?_⟩
  · simp
  · simp
  · simp
  · refine .none _ fun e he _ => ?_
    simp at he

theorem State.DropsWork.entries {rids : List Nat} {s t : State} (h : s.DropsWork rids t) :
    t.schedule.entries = s.schedule.entries.filter (fun e => e.rid ∉ rids) := by
  rw [Schedule.entries, Schedule.entries, h.positions, h.times, List.filter_append]

theorem filter_not_mem_append {α : Type} (f : α → Nat) (rs qs : List Nat) (xs : List α) :
    (xs.filter (fun x => f x ∉ rs)).filter (fun x => f x ∉ qs) = xs.filter (fun x => f x ∉ rs ++ qs) := by
  rw [List.filter_filter]
  exact List.filter_congr fun x _ => by simp [Bool.and_comm]

theorem State.DropsWork.trans {rs qs : List Nat} {s t u : State} (h : s.DropsWork rs t) (k : t.DropsWork qs u) :
    s.DropsWork (rs ++ qs) u where
  positions := by rw [k.positions, h.positions, filter_not_mem_append]
  times := by rw [k.times, h.times, filter_not_mem_append]
  windows i := by rw [k.windows, h.windows, filter_not_mem_append]
  outputs o := by
    refine ((h.outputs o).trans (k.outputs o)).congr fun e => ?_
    rw [h.entries]
    simp only [List.mem_append, List.mem_filter, decide_eq_true_eq]
    by_cases hr : e.rid ∈ rs <;> simp [hr]

/-- What leaves the schedule, the windows and the outputs alone. -/
theorem State.DropsWork.keeps {rids : List Nat} {bs : List Block} {s t u : State} (h : s.DropsWork rids t)
    (k : OnlyChanges bs t u) (hs : .schedule ∉ bs) (hw : .windows ∉ bs) (ho : .outputs ∉ bs) : s.DropsWork rids u where
  positions := (congrArg Schedule.positionList (k .schedule hs)).trans h.positions
  times := (congrArg Schedule.timeList (k .schedule hs)).trans h.times
  windows i := by
    have hsame : u.windows = t.windows := k .windows hw
    rw [hsame]
    exact h.windows i
  outputs o := by
    have hsame : u.outputs = t.outputs := k .outputs ho
    rw [hsame]
    exact h.outputs o

theorem dropWork_drops (s : State) (rid : Nat) : s.DropsWork [rid] ((s.dropEntries rid).dropWindows rid) := by
  let es := s.schedule.entries.filter (fun e => e.rid = rid)
  have hreleases := releaseEntries_releases es s
  have hschedule : (es.foldl State.releaseEntry s).schedule = s.schedule :=
    OnlyChanges.foldl _ releaseEntry_changes es s .schedule (by decide)
  refine ⟨?_, ?_, fun i => ?_, fun o => ?_⟩
  · show (es.foldl State.releaseEntry s).schedule.positionList.filter _ = _
    rw [hschedule]
    simp only [List.mem_singleton]
  · show (es.foldl State.releaseEntry s).schedule.timeList.filter _ = _
    rw [hschedule]
    simp only [List.mem_singleton]
  · have hwindows : (s.dropEntries rid).windows = s.windows := dropEntries_changes s rid .windows (by decide)
    rw [dropWindows_window, hwindows]
    simp only [List.mem_singleton]
  · refine (hreleases o).congr fun e => ?_
    simp only [es, List.mem_filter, decide_eq_true_eq, List.mem_singleton]

end Sys2Proof.Machine
end

section
/-! SUPPORT. Records that are abandoned (R7, R20, R23). -/

namespace Sys2Proof.Machine

/-! ### Records in use (R1, log 16) -/

theorem mem_all_iff (t : Items) (it : Item) :
    it ∈ t.all ↔ (∃ l : LaneId, it ∈ t.queues[l]) ∨ it ∈ t.done ∨ it ∈ t.passed := by
  have hqueues : (∃ l : LaneId, it ∈ t.queues[l]) ↔
      it ∈ t.queues[0] ∨ it ∈ t.queues[1] ∨ it ∈ t.queues[2] ∨ it ∈ t.queues[3] := by
    refine ⟨fun ⟨l, hl⟩ => ?_, ?_⟩
    · fin_cases l
      · exact Or.inl hl
      · exact Or.inr (Or.inl hl)
      · exact Or.inr (Or.inr (Or.inl hl))
      · exact Or.inr (Or.inr (Or.inr hl))
    · rintro (h | h | h | h)
      · exact ⟨0, h⟩
      · exact ⟨1, h⟩
      · exact ⟨2, h⟩
      · exact ⟨3, h⟩
  simp only [hqueues, Items.all, List.mem_append, or_assoc]

/-- The serial numbers of records are distinct. -/
theorem eq_of_rid {t : Items} (ok : t.Ok) {x y : Item} (hx : x ∈ t.all) (hy : y ∈ t.all) (h : x.rid = y.rid) :
    x = y := by
  obtain ⟨_, _, hnodup, _⟩ := ok
  exact List.inj_on_of_nodup_map hnodup hx hy h

theorem find_of_mem {t : Items} (ok : t.Ok) {it : Item} (h : it ∈ t.all) : t.find it.rid = some it := by
  cases hfind : t.find it.rid with
  | none =>
    have hnone := List.find?_eq_none.mp hfind it h
    simp at hnone
  | some y =>
    obtain ⟨hrid, hall⟩ := find_rid hfind
    rw [eq_of_rid ok hall h hrid]

theorem sansFlags_rid {x y : Item} (h : x.sansFlags = y.sansFlags) : x.rid = y.rid := by
  show x.sansFlags.rid = y.sansFlags.rid
  rw [h]

theorem sansFlags_lane {x y : Item} (h : x.sansFlags = y.sansFlags) : x.lane = y.lane := by
  show x.sansFlags.lane = y.sansFlags.lane
  rw [h]

theorem without_sansFlags (rids : List Nat) (xs : List Item) :
    (without rids xs).map Item.sansFlags = (xs.map Item.sansFlags).filter (fun it => it.rid ∉ rids) := by
  rw [List.filter_map, without]
  rfl

theorem without_congr {rids : List Nat} {xs ys : List Item} (h : xs.map Item.sansFlags = ys.map Item.sansFlags) :
    (without rids xs).map Item.sansFlags = (without rids ys).map Item.sansFlags := by
  rw [without_sansFlags, without_sansFlags, h]

theorem without_id {rids : List Nat} {xs : List Item} (h : ∀ x ∈ xs, x.rid ∉ rids) : without rids xs = xs :=
  List.filter_eq_self.mpr fun x hx => by simp [h x hx]

theorem mem_of_sansFlags {xs ys : List Item} (h : xs.map Item.sansFlags = ys.map Item.sansFlags) {x : Item}
    (hx : x ∈ xs) : ∃ y ∈ ys, y.sansFlags = x.sansFlags := by
  have hmem : x.sansFlags ∈ ys.map Item.sansFlags := h ▸ List.mem_map_of_mem hx
  exact List.mem_map.mp hmem

/-! ### Records that leave -/

/-- The records `rids` have gone and these have joined the DONE part at its end; all others stand where they stood, but
for their notice flags. -/
structure State.Loses (rids : List Nat) (gained : List Item) (s t : State) : Prop where
  queues : ∀ l : LaneId, t.items.queues[l].map Item.sansFlags = (without rids s.items.queues[l]).map Item.sansFlags
  passed : t.items.passed.map Item.sansFlags = (without rids s.items.passed).map Item.sansFlags
  done : t.items.done.map Item.sansFlags = (without rids s.items.done ++ gained).map Item.sansFlags
  ok : s.items.Ok → t.items.Ok

theorem without_nil (xs : List Item) : without [] xs = xs :=
  without_id fun _ _ => List.not_mem_nil

theorem State.Loses.nil (s : State) : s.Loses [] [] s := by
  refine ⟨fun l => ?_, ?_, ?_, id⟩
  · rw [without_nil]
  · rw [without_nil]
  · rw [without_nil, List.append_nil]

theorem State.Loses.trans {rs qs : List Nat} {gs ks : List Item} {s t u : State} (h : s.Loses rs gs t)
    (k : t.Loses qs ks u) (hgs : ∀ x ∈ gs, x.rid ∉ qs) : s.Loses (rs ++ qs) (gs ++ ks) u where
  queues l := by rw [k.queues, without_congr (h.queues l), without_append]
  passed := by rw [k.passed, without_congr h.passed, without_append]
  done := by
    have hsplit : without qs (without rs s.items.done ++ gs) = without (rs ++ qs) s.items.done ++ gs := by
      rw [without_append]
      exact (List.filter_append _ _).trans (congrArg _ (without_id hgs))
    rw [k.done, List.map_append, without_congr h.done, hsplit, ← List.map_append, List.append_assoc]
  ok := k.ok ∘ h.ok

/-- What leaves every record where it stands. -/
theorem State.Loses.keeps {rids : List Nat} {gained : List Item} {s t u : State} (h : s.Loses rids gained t)
    (k : t.sameRecords u) (hok : t.items.Ok → u.items.Ok) : s.Loses rids gained u where
  queues l := by
    obtain ⟨hq, _, _⟩ := k
    exact (hq l).trans (h.queues l)
  passed := by
    obtain ⟨_, _, hp⟩ := k
    exact hp.trans h.passed
  done := by
    obtain ⟨_, hd, _⟩ := k
    exact hd.trans h.done
  ok := hok ∘ h.ok

/-- A record that is not one of those that leave stays. -/
theorem State.Loses.stays {rids : List Nat} {gained : List Item} {s t : State} (h : s.Loses rids gained t) {x : Item}
    (hx : ∃ y ∈ s.items.all, y.sansFlags = x.sansFlags) (hr : x.rid ∉ rids) :
    ∃ y ∈ t.items.all, y.sansFlags = x.sansFlags := by
  obtain ⟨y, hy, hyx⟩ := hx
  have hkept {xs : List Item} (hmem : y ∈ xs) : y ∈ without rids xs :=
    List.mem_filter.mpr ⟨hmem, by simpa [sansFlags_rid hyx] using hr⟩
  obtain ⟨l, hl⟩ | hd | hp := (mem_all_iff _ _).mp hy
  · obtain ⟨z, hz, hzy⟩ := mem_of_sansFlags (h.queues l).symm (hkept hl)
    exact ⟨z, (mem_all_iff _ _).mpr (Or.inl ⟨l, hz⟩), hzy.trans hyx⟩
  · obtain ⟨z, hz, hzy⟩ := mem_of_sansFlags h.done.symm (List.mem_append_left _ (hkept hd))
    exact ⟨z, (mem_all_iff _ _).mpr (Or.inr (Or.inl hz)), hzy.trans hyx⟩
  · obtain ⟨z, hz, hzy⟩ := mem_of_sansFlags h.passed.symm (hkept hp)
    exact ⟨z, (mem_all_iff _ _).mpr (Or.inr (Or.inr hz)), hzy.trans hyx⟩

/-- The records of a state that sheds some stay in order. -/
theorem State.Sheds.itemsOk {s t : State} (h : s.Sheds t)
    (hq : ∀ l : LaneId, ∀ it ∈ t.items.queues[l], ∃ y ∈ s.items.queues[l], y.lane = it.lane) (ok : s.items.Ok) :
    t.items.Ok := by
  refine ok.of_subperm h.rids (Nat.le_of_eq h.nextRid.symm) fun l it hit => ?_
  obtain ⟨y, hy, hlane⟩ := hq l it hit
  obtain ⟨_, hlanes, _⟩ := ok
  rw [← hlane, hlanes l y hy]

/-- The lists of a state that has lost records are those of records it had. -/
theorem lanes_of_without {rids : List Nat} {xs ys : List Item}
    (h : ys.map Item.sansFlags = (without rids xs).map Item.sansFlags) {it : Item} (hit : it ∈ ys) :
    ∃ y ∈ xs, y.lane = it.lane := by
  obtain ⟨y, hy, hyx⟩ := mem_of_sansFlags h hit
  exact ⟨y, (List.mem_filter.mp hy).1, sansFlags_lane hyx⟩

/-! ### A record becomes DONE (R20) -/

theorem admitAll_settings (s : State) : s.admitAll.notices.settings = s.notices.settings := by
  obtain ⟨_, hsettings, _⟩ := admitUpTo_notices s.notices.refs.length s
  exact hsettings

theorem admitIfRoom_settings (s : State) : s.admitIfRoom.notices.settings = s.notices.settings := by
  rw [State.admitIfRoom]
  split
  · exact admitAll_settings s
  · rfl

theorem raiseItem_settings (s : State) (rid : Nat) (sub : SubKind) :
    (s.raiseItem rid sub).notices.settings = s.notices.settings :=
  admitIfRoom_settings ((s.setFlag rid sub .pending).addRef (.item rid sub))

/-- The record that an item which ends leaves, when OUTCOME notices are enabled. -/
def Item.ended (it : Item) (r : Summary) : Item :=
  { it with state := .done, result := some r }

theorem becomeDone_settings (s : State) (it : Item) (r : Summary) :
    (s.becomeDone it r).notices.settings = s.notices.settings := by
  rw [becomeDone_eq]
  split
  · exact raiseItem_settings _ _ _
  · rfl

/-- R20: the records, but for their notice flags, when one becomes DONE. -/
theorem becomeDone_records (s : State) (it : Item) (r : Summary) :
    (∀ l : LaneId, (s.becomeDone it r).items.queues[l].map Item.sansFlags = s.items.queues[l].map Item.sansFlags) ∧
      (s.becomeDone it r).items.passed.map Item.sansFlags = s.items.passed.map Item.sansFlags ∧
      (s.becomeDone it r).items.done.map Item.sansFlags =
        (s.items.done ++ if s.notices.settings.outcomeOn = true then [it.ended r] else []).map Item.sansFlags := by
  rw [becomeDone_eq]
  by_cases hon : s.notices.settings.outcomeOn = true
  · rw [if_pos hon, if_pos hon]
    obtain ⟨hqueues, hdone, hpassed⟩ := raiseItem_sameRecords (s.addDone (it.ended r)) it.rid .outcome
    exact ⟨hqueues, hpassed, hdone⟩
  · rw [if_neg hon, if_neg hon, List.append_nil]
    exact ⟨fun _ => rfl, rfl, rfl⟩

theorem dropRecord_passed (s : State) (rid : Nat) : (s.dropRecord rid).items.passed = without [rid] s.items.passed := by
  rw [without_singleton]
  rfl

theorem dropRecord_done (s : State) (rid : Nat) : (s.dropRecord rid).items.done = without [rid] s.items.done := by
  rw [without_singleton]
  rfl

/-! ### An item is abandoned (R23) -/

theorem abandonItem_eq {s : State} {rid : Nat} {it : Item} (h : s.items.find rid = some it) : s.abandonItem rid =
    (((s.dropEntries rid).dropWindows rid).dropRecord rid).becomeDone it.abandoned .abandoned := by
  rw [State.abandonItem, h]

theorem dropWork_settings (s : State) (rid : Nat) : ((s.dropEntries rid).dropWindows rid).notices = s.notices :=
  ((dropWindows_changes _ rid) .notices (by decide)).trans ((dropEntries_changes s rid) .notices (by decide))

theorem abandonItem_settings (s : State) (rid : Nat) : (s.abandonItem rid).notices.settings = s.notices.settings := by
  rw [State.abandonItem]
  split
  · rfl
  · rw [becomeDone_settings]
    exact congrArg Notices.settings (dropWork_settings s rid)

theorem abandonItem_drops {s : State} {rid : Nat} {it : Item} (h : s.items.find rid = some it) :
    s.DropsWork [rid] (s.abandonItem rid) := by
  rw [abandonItem_eq h]
  exact (dropWork_drops s rid).keeps (((dropRecord_changes _ rid).mono (by decide)).trans (becomeDone_changes _ _ _))
    (by decide) (by decide) (by decide)

theorem abandonItem_loses {s : State} {rid : Nat} {it : Item} (h : s.items.find rid = some it) :
    s.Loses [rid] (if s.notices.settings.outcomeOn = true then [it.abandoned.ended .abandoned] else [])
      (s.abandonItem rid) := by
  let u := ((s.dropEntries rid).dropWindows rid).dropRecord rid
  have hitems : ((s.dropEntries rid).dropWindows rid).items = s.items := dropWork_items s rid
  have hsettings : u.notices.settings = s.notices.settings := congrArg Notices.settings (dropWork_settings s rid)
  obtain ⟨hqueues, hpassed, hdone⟩ := becomeDone_records u it.abandoned .abandoned
  have hq (l : LaneId) : (s.abandonItem rid).items.queues[l].map Item.sansFlags =
      (without [rid] s.items.queues[l]).map Item.sansFlags := by
    rw [abandonItem_eq h, hqueues, dropRecord_queue, hitems, without_singleton]
  refine ⟨hq, ?_, ?_, (abandonItem_sheds s rid).itemsOk fun l it hit => lanes_of_without (hq l) hit⟩
  · rw [abandonItem_eq h, hpassed, dropRecord_passed, hitems]
  · rw [abandonItem_eq h, hdone, dropRecord_done, hitems, hsettings]

/-- The record that an abandoned item leaves depends on no notice flag. -/
theorem abandoned_ended_sansFlags {x y : Item} (h : x.sansFlags = y.sansFlags) :
    (x.abandoned.ended .abandoned).sansFlags = (y.abandoned.ended .abandoned).sansFlags := by
  show (x.sansFlags.abandoned.ended .abandoned).sansFlags = (y.sansFlags.abandoned.ended .abandoned).sansFlags
  rw [h]

/-- R23: distinct records in use are abandoned one after the other. -/
theorem abandonItems_loses (xs : List Item) : ∀ s : State, s.items.Ok →
    (∀ x ∈ xs, ∃ y ∈ s.items.all, y.sansFlags = x.sansFlags) → (xs.map (·.rid)).Nodup →
    let t := (xs.map (·.rid)).foldl State.abandonItem s
    s.DropsWork (xs.map (·.rid)) t ∧ s.Loses (xs.map (·.rid))
      (if s.notices.settings.outcomeOn = true then xs.map (fun x => x.abandoned.ended .abandoned) else []) t := by
  induction xs with
  | nil =>
    intro s _ _ _
    refine ⟨.nil s, ?_⟩
    have hnone : (if s.notices.settings.outcomeOn = true then
        [].map (fun x : Item => x.abandoned.ended .abandoned) else []) = [] := ite_self _
    rw [hnone]
    exact .nil s
  | cons x xs ih =>
    intro s ok hin hnodup
    obtain ⟨y, hy, hyx⟩ := hin x List.mem_cons_self
    have hrid : y.rid = x.rid := sansFlags_rid hyx
    have hfind : s.items.find x.rid = some y := hrid ▸ find_of_mem ok hy
    obtain ⟨hfresh, hrest⟩ := List.nodup_cons.mp hnodup
    have hloses := abandonItem_loses hfind
    have hnext := ih (s.abandonItem x.rid) (hloses.ok ok) (fun z hz => hloses.stays (hin z (List.mem_cons_of_mem _ hz))
      (by
        rw [List.mem_singleton]
        exact fun he => hfresh (List.mem_map.mpr ⟨z, hz, he⟩))) hrest
    rw [abandonItem_settings] at hnext
    obtain ⟨hdrops, hlost⟩ := hnext
    refine ⟨(abandonItem_drops hfind).trans hdrops, ?_⟩
    by_cases hon : s.notices.settings.outcomeOn = true
    · rw [if_pos hon] at hloses hlost ⊢
      have hboth := hloses.trans hlost (by
        intro z hz
        rw [List.mem_singleton.mp hz]
        show y.rid ∉ _
        rw [hrid]
        exact hfresh)
      refine ⟨hboth.queues, hboth.passed, hboth.done.trans ?_, hboth.ok⟩
      simp only [List.map_append, List.map_cons, abandoned_ended_sansFlags hyx, List.singleton_append]
    · rw [if_neg hon] at hloses hlost ⊢
      exact hloses.trans hlost (by simp)

end Sys2Proof.Machine
end

section
/-! SUPPORT. An abandon of a lane (R7, R20, R23, R63, R94). -/

namespace Sys2Proof.Machine

/-! ### The records of one lane -/

theorem queue_rids_nodup {t : Items} (ok : t.Ok) (l : LaneId) : (t.queues[l].map (·.rid)).Nodup := by
  obtain ⟨_, _, hnodup, _⟩ := ok
  have hsub : t.queues[l].Sublist t.all := by
    have hall : t.all = t.queues[0] ++ (t.queues[1] ++ (t.queues[2] ++ (t.queues[3] ++ (t.done ++ t.passed)))) := by
      simp only [Items.all, List.append_assoc]
    rw [hall]
    fin_cases l
    · exact List.sublist_append_left _ _
    · exact (List.sublist_append_left _ _).trans (List.sublist_append_right _ _)
    · exact ((List.sublist_append_left _ _).trans (List.sublist_append_right _ _)).trans (List.sublist_append_right _ _)
    · exact (((List.sublist_append_left _ _).trans (List.sublist_append_right _ _)).trans
        (List.sublist_append_right _ _)).trans (List.sublist_append_right _ _)
  exact hnodup.sublist (hsub.map _)

theorem retired_rids_nodup {t : Items} (ok : t.Ok) : ((t.done ++ t.passed).map (·.rid)).Nodup := by
  obtain ⟨_, _, hnodup, _⟩ := ok
  have hsub : (t.done ++ t.passed).Sublist t.all := by
    rw [Items.all, List.append_assoc]
    exact List.sublist_append_right _ _
  exact hnodup.sublist (hsub.map _)

/-- Records of one lane: some retired ones and its queue. -/
theorem lane_rids_nodup {t : Items} (ok : t.Ok) (l : LaneId) {xs : List Item} (hxs : xs.Sublist (t.done ++ t.passed)) :
    ((xs ++ t.queues[l]).map (·.rid)).Nodup := by
  rw [List.map_append]
  refine ((retired_rids_nodup ok).sublist (hxs.map _)).append (queue_rids_nodup ok l) ?_
  intro rid hx hq
  obtain ⟨x, hmem, rfl⟩ := List.mem_map.mp hx
  obtain ⟨y, hy, hrid⟩ := List.mem_map.mp hq
  obtain ⟨_, hdone, hpassed⟩ := rid_only_in_queue t l y ok hy
  obtain hd | hp := List.mem_append.mp (hxs.subset hmem)
  · exact hdone x hd hrid.symm
  · exact hpassed x hp hrid.symm

/-- A record has the serial number of a record of the lane exactly when it is one. -/
theorem rid_mem_iff {t : Items} (ok : t.Ok) {xs : List Item} (hxs : ∀ x ∈ xs, x ∈ t.all) {it : Item} (hit : it ∈ t.all) :
    it.rid ∈ xs.map (·.rid) ↔ it ∈ xs := by
  rw [List.mem_map]
  exact ⟨fun ⟨x, hx, hrid⟩ => eq_of_rid ok (hxs x hx) hit hrid ▸ hx, fun h => ⟨it, h, rfl⟩⟩

theorem mem_all_of_done {t : Items} {it : Item} (h : it ∈ t.done) : it ∈ t.all :=
  (mem_all_iff t it).mpr (Or.inr (Or.inl h))

theorem without_eq_filter {t : Items} (ok : t.Ok) {xs ys : List Item} (hxs : ∀ x ∈ xs, x ∈ t.all)
    (hys : ∀ y ∈ ys, y ∈ t.all) (p : Item → Bool) (hp : ∀ y ∈ ys, p y = true ↔ y ∉ xs) :
    without (xs.map (·.rid)) ys = ys.filter p := by
  refine List.filter_congr fun y hy => ?_
  rw [Bool.eq_iff_iff, decide_eq_true_eq, rid_mem_iff ok hxs (hys y hy), hp y hy]

/-! ### The abandon -/

theorem ends_cancelled (f : CommittedFiring) :
    f.ends .cancelled = if f.result = .pending then { f with result := .cancelled } else f := rfl

/-- R23: the record that an abandoned item leaves, field by field. -/
theorem abandoned_eq (it : Item) : it.abandoned = { it with
    covering := false
    committed := it.committed.map (fun c => { c with
      firings := c.firings.map (fun f => if f.result = .pending then { f with result := .cancelled } else f)
      confirm := c.confirm.map (fun k => if k.result = .waiting then { k with result := .cancelled } else k) }) } := by
  rw [Item.abandoned, Item.endConfirm, Item.cancelFirings, Item.mapCommitted, Item.mapCommitted]
  simp only [Option.map_map]
  rfl

theorem dropRecord_find (s : State) (rid : Nat) : (s.dropRecord rid).items.find rid = none := by
  refine List.find?_eq_none.mpr fun x hx => ?_
  have hkept {xs : List Item} (h : x ∈ dropRid rid xs) : ¬ (decide (x.rid = rid) = true) := by
    simpa [dropRid] using (List.mem_filter.mp h).2
  obtain ⟨l, hl⟩ | hd | hp := (mem_all_iff _ _).mp hx
  · rw [dropRecord_queue] at hl
    exact hkept hl
  · exact hkept hd
  · exact hkept hp

theorem toAbandon_subset (s : State) (l : LaneId) : ∀ x ∈ s.toAbandon l, x ∈ s.items.all := by
  intro x hx
  obtain ⟨hp, _⟩ | hq := mem_toAbandon.mp hx
  · exact (mem_all_iff _ _).mpr (Or.inr (Or.inr hp))
  · exact (mem_all_iff _ _).mpr (Or.inl ⟨l, hq⟩)

/-- Settles O26: an abandon takes its records one after the other, each as `abandonItems_loses` says. -/
theorem abandonEndsEveryItem : Obligations.AbandonEndsEveryItem := by
  refine ⟨fun s l => rfl, fun s rid it hfind => ?_, ?_⟩
  · refine ⟨((s.dropEntries rid).dropWindows rid).dropRecord rid, dropWork_settings s rid, dropRecord_find _ rid, ?_⟩
    rw [abandonItem_eq hfind, abandoned_eq]
  · intro s l ok taken gone ended t
    have hsub : ∀ x ∈ taken, x ∈ s.items.all := toAbandon_subset s l
    have hnodup : gone.Nodup :=
      lane_rids_nodup ok l (List.filter_sublist.trans (List.sublist_append_right _ _))
    obtain ⟨hdrops, hloses⟩ : s.DropsWork gone t ∧ s.Loses gone
        (if s.notices.settings.outcomeOn = true then taken.map (fun x : Item => x.abandoned.ended .abandoned) else []) t :=
      abandonItems_loses taken s ok (fun x hx => ⟨x, hsub x hx, rfl⟩) hnodup
    have hended : (fun x : Item => x.abandoned.ended .abandoned) = ended := funext fun x => by
      rw [Item.ended, abandoned_eq]
    have hotherQueue (m : LaneId) (hm : m ≠ l) : without gone s.items.queues[m] = s.items.queues[m] :=
      without_other_queue ok hm fun x hx => (List.mem_append.mp hx).elim
        (fun hp => Or.inr (Or.inr (List.mem_filter.mp hp).1)) Or.inl
    have hpassed : without gone s.items.passed = s.items.passed.filter (fun it => it.lane ≠ l) := by
      refine without_eq_filter ok hsub (fun y hy => (mem_all_iff _ _).mpr (Or.inr (Or.inr hy))) _ fun y hy => ?_
      rw [decide_eq_true_eq]
      refine not_congr ⟨fun hl => mem_toAbandon.mpr (Or.inl ⟨hy, hl⟩), fun hmem => ?_⟩
      obtain ⟨_, hl⟩ | hq := mem_toAbandon.mp hmem
      · exact hl
      · obtain ⟨_, _, hother⟩ := rid_only_in_queue s.items l y ok hq
        exact absurd rfl (hother y hy)
    have hdone : without gone s.items.done = s.items.done := by
      refine without_id fun y hy hmem => ?_
      obtain ⟨x, hx, hrid⟩ := List.mem_map.mp hmem
      obtain ⟨hp, _⟩ | hq := mem_toAbandon.mp hx
      · have hboth := retired_rids_nodup ok
        rw [List.map_append] at hboth
        exact (List.nodup_append.mp hboth).2.2 y.rid (List.mem_map_of_mem hy) x.rid (List.mem_map_of_mem hp) hrid.symm
      · obtain ⟨_, hother, _⟩ := rid_only_in_queue s.items l x ok hq
        exact hother y hy hrid.symm
    refine ⟨abandon_queue s l, fun m hm => ?_, ?_, ?_, hdrops.positions, hdrops.times, hdrops.windows,
      fun o hnd h => ?_, rfl, abandon_changes s l⟩
    · rw [hloses.queues, hotherQueue m hm]
    · rw [hloses.passed, hpassed]
    · rw [hloses.done, hdone, hended]
    · rw [(hdrops.outputs o).holders hnd]
      simp only [List.mem_filter, decide_eq_true_eq, and_imp]

end Sys2Proof.Machine
end

section
/-! SUPPORT. Lanes that take causes (R16, R109, R111, R112, R115, R116). -/

namespace Sys2Proof.Machine

/-! ### The notice of a lane (R115, R164) -/

/-- R115, R164: the notice of a lane is pending or waits unsent. -/
def State.laneNoticed (s : State) (l : LaneId) : Prop :=
  s.lanes[l].noticeFlag = true ∨ s.notices.hasUnsentLane l = true

theorem hasUnsentLane_append (n : Notices) (e : NoticeEntry) (l : LaneId) :
    Notices.hasUnsentLane { n with unsent := n.unsent ++ [e] } l =
      (n.hasUnsentLane l || (e.kind = .lane && e.link = .lane l)) := by
  simp [Notices.hasUnsentLane]

theorem admitRef_laneNoticed {s t : State} {r : NoticeRef} (h : s.admitRef r = some t) {l : LaneId}
    (hl : s.laneNoticed l) : t.laneNoticed l := by
  have henqueue {e : NoticeEntry} {lanes : Vector Lane 4} (hlanes : lanes[l] = s.lanes[l] ∨ (e.kind = .lane ∧ e.link = .lane l)) :
      lanes[l].noticeFlag = true ∨ Notices.hasUnsentLane { s.notices with
        unsent := s.notices.unsent ++ [e] } l = true := by
    rw [hasUnsentLane_append, Bool.or_eq_true, Bool.and_eq_true, decide_eq_true_eq, decide_eq_true_eq]
    obtain hsame | hown := hlanes
    · rw [hsame]
      exact hl.imp id Or.inl
    · exact Or.inr (Or.inr hown)
  cases r with
  | item rid sub =>
    rw [State.admitRef] at h
    split at h
    · obtain rfl := Option.some.inj h
      exact hl
    · split at h
      · split at h
        · obtain rfl := Option.some.inj h
          exact hl
        · obtain rfl := Option.some.inj h
          exact henqueue (Or.inl rfl)
      · cases h
  | lane m =>
    rw [State.admitRef] at h
    split at h
    · obtain rfl := Option.some.inj h
      refine henqueue (lanes := tset s.lanes m _) ?_
      by_cases hm : m = l
      · subst hm
        exact Or.inr ⟨rfl, rfl⟩
      · exact Or.inl (tset_get_ne _ _ _ _ hm)
    · cases h

theorem admitUpTo_laneNoticed (n : Nat) {l : LaneId} : ∀ {s : State}, s.laneNoticed l →
    (State.admitUpTo n s).laneNoticed l := by
  induction n with
  | zero => exact fun h => h
  | succ n ih =>
    intro s h
    rw [State.admitUpTo]
    split
    · exact h
    · split
      · exact h
      · next hr => exact ih (admitRef_laneNoticed hr h)

theorem admitIfRoom_laneNoticed {s : State} {l : LaneId} (h : s.laneNoticed l) : s.admitIfRoom.laneNoticed l := by
  rw [State.admitIfRoom]
  split
  · exact admitUpTo_laneNoticed _ h
  · exact h

/-- R115: a lane whose notice is raised. -/
theorem raiseLane_noticed (s : State) (l : LaneId) : (s.raiseLane l).laneNoticed l := by
  rw [State.raiseLane]
  split
  · next h => exact Or.inr h
  · split
    · next h => exact Or.inl h
    · refine admitIfRoom_laneNoticed (Or.inl ?_)
      show (tset s.lanes l _)[l].noticeFlag = true
      rw [tset_get_self]

theorem toLaneState_noticed (s : State) (l : LaneId) (st : LaneState) : (s.toLaneState l st).laneNoticed l :=
  raiseLane_noticed _ l

/-! ### Other lanes -/

theorem mapLane_others (s : State) (l : LaneId) (f : Lane → Lane) : s.sameOtherLanes (s.mapLane l f) l := fun m hm => by
  rw [mapLane_lanes, tset_get_ne _ _ _ _ (Ne.symm hm)]

theorem State.sameOtherLanes.trans {s t u : State} {l : LaneId} (h : s.sameOtherLanes t l) (k : t.sameOtherLanes u l) :
    s.sameOtherLanes u l :=
  fun m hm => (k m hm).trans (h m hm)

theorem State.sameLanes.others {s t : State} (h : s.sameLanes t) (l : LaneId) : s.sameOtherLanes t l :=
  fun m _ => h m

theorem toLaneState_others (s : State) (l : LaneId) (st : LaneState) : s.sameOtherLanes (s.toLaneState l st) l :=
  (mapLane_others s l _).trans ((raiseLane_sameLanes _ l).others l)

theorem struck_others (s : State) (l : LaneId) (c : Cause) : s.sameOtherLanes (s.struck l c) l :=
  (mapLane_others s l _).trans (toLaneState_others _ l .fault)

theorem withCause_others (s : State) (l : LaneId) (c : Cause) : s.sameOtherLanes (s.withCause l c) l := by
  rw [State.withCause]
  split
  · exact fun _ _ => rfl
  · exact (mapLane_others s l _).trans ((raiseLane_sameLanes _ l).others l)

theorem mapLane_sameRecords (s : State) (l : LaneId) (f : Lane → Lane) : s.sameRecords (s.mapLane l f) :=
  sameRecords_of_items rfl

theorem withCause_sameRecords (s : State) (l : LaneId) (c : Cause) : s.sameRecords (s.withCause l c) := by
  rw [State.withCause]
  split
  · exact .refl s
  · exact (mapLane_sameRecords s l _).trans (raiseLane_sameRecords _ l)

theorem struck_changes (s : State) (l : LaneId) (c : Cause) : OnlyChanges [.items, .notices, .lanes] s (s.struck l c) :=
  ((mapLane_changes s l _).mono (by decide)).trans (toLaneState_changes _ l .fault)

theorem withCause_changes (s : State) (l : LaneId) (c : Cause) :
    OnlyChanges [.items, .notices, .lanes] s (s.withCause l c) := by
  rw [State.withCause]
  split
  · exact .refl _ s
  · exact ((mapLane_changes s l _).mono (by decide)).trans (raiseLane_changes _ l)

/-! ### Causes (R109, R111, R112) -/

theorem add_has (set : CauseSet) (c d : Cause) : (set.add c).has d = true ↔ d = c ∨ set.has d = true := by
  cases c <;> cases d <;> simp [CauseSet.add, CauseSet.has]

theorem empty_has (d : Cause) : CauseSet.empty.has d = false := by
  cases d <;> rfl

theorem abandons_iff (c : Cause) : c.abandons = true ↔ c = .reverse ∨ c = .encoder := by
  cases c <;> decide

theorem noRoom_eq (s : State) (l : LaneId) :
    s.noRoom l = (decide (s.lanes[l].config.limit ≤ s.items.queues[l].length) || decide (192 ≤ s.items.inUse)) := by
  have hfree : s.items.free = 0 ↔ 192 ≤ s.items.inUse := by
    rw [Items.free, Config.poolSize]
    omega
  rw [State.noRoom, decide_eq_decide.mpr hfree]
  rfl

theorem push_eq (s : State) (c : List Event) : s.push c = { s with agenda := s.agenda ++ asChain c } := by
  cases c with
  | nil =>
    show s = { s with agenda := s.agenda ++ [] }
    rw [List.append_nil]
  | cons e es => rfl

/-- R23: the OUTCOME triggers of an abandon do not depend on notice flags. -/
theorem abandonEvents_congr {s u : State} (h : s.sameRecords u) (l : LaneId) : u.abandonEvents l =
    (s.items.passed.filter (fun it => it.lane = l) ++ s.items.queues[l]).map
      (fun it => .trigger (.outcome it.lane .abandoned)) := by
  have hmap {xs ys : List Item} (hxy : ys.map Item.sansFlags = xs.map Item.sansFlags) :
      ys.map (fun it => Event.trigger (.outcome it.lane .abandoned)) =
        xs.map (fun it => Event.trigger (.outcome it.lane .abandoned)) := by
    have hboth := congrArg (List.map fun it : Item => Event.trigger (.outcome it.lane .abandoned)) hxy
    rwa [List.map_map, List.map_map] at hboth
  obtain ⟨hqueues, _, hpassed⟩ := h
  have hfilter : (u.items.passed.filter (fun it => it.lane = l)).map Item.sansFlags =
      (s.items.passed.filter (fun it => it.lane = l)).map Item.sansFlags := by
    have hsplit (xs : List Item) : (xs.filter (fun it => it.lane = l)).map Item.sansFlags =
        (xs.map Item.sansFlags).filter (fun it => it.lane = l) := by
      rw [List.filter_map]
      rfl
    rw [hsplit, hsplit, hpassed]
  show List.map _ (u.items.passed.filter _ ++ u.items.queues[l]) = _
  rw [List.map_append, List.map_append]
  exact congrArg₂ (· ++ ·) (hmap hfilter) (hmap (hqueues l))

theorem takeCause_off {s : State} {l : LaneId} (h : s.lanes[l].state = .off) (c : Cause) : s.takeCause l c = s := by
  rw [State.takeCause, h]

theorem takeCause_running {s : State} {l : LaneId} (h : s.lanes[l].state = .run ∨ s.lanes[l].state = .drain)
    (c : Cause) : s.takeCause l c = s.enterFault l c := by
  obtain h | h := h <;> rw [State.takeCause, h]

theorem takeCause_fault {s : State} {l : LaneId} (h : s.lanes[l].state = .fault) (c : Cause) :
    s.takeCause l c = s.joinCause l c := by
  rw [State.takeCause, h]

theorem abandon_agenda (s : State) (l : LaneId) : (s.abandon l).agenda = s.agenda :=
  abandon_changes s l .agenda (by decide)

/-- Settles O27: a cause by the state of its lane, and the jam point by the covering item. -/
theorem causesTakeALaneToFault : Obligations.CausesTakeALaneToFault := by
  refine ⟨?_, add_has, empty_has, ?_⟩
  · intro s l c lane t outcomes abandons mark
    refine ⟨fun hoff => takeCause_off hoff c, fun hrun => ?_, fun hfault => ?_⟩
    · have hsame := struck_sameRecords s l c
      have hagenda : (s.struck l c).agenda = s.agenda := struck_changes s l c .agenda (by decide)
      have ht : t = s.enterFault l c := takeCause_running hrun c
      refine ⟨s.struck l c, hsame, struck_others s l c, struck_changes s l c, ?_, toLaneState_noticed _ l .fault,
        fun hnot => ?_, fun hab => ?_⟩
      · rw [struck_lane, noRoom_eq]
      · rw [ht, enterFault_eq, if_neg fun h => hnot ((abandons_iff c).mp h), push_eq, hagenda]
        rfl
      · rw [ht, enterFault_eq, if_pos ((abandons_iff c).mpr hab), push_eq, abandon_agenda, hagenda,
          abandonEvents_congr hsame, asChain, if_neg (by simp)]
    · have hsame := withCause_sameRecords s l c
      have hagenda : (s.withCause l c).agenda = s.agenda := withCause_changes s l c .agenda (by decide)
      have ht : t = s.joinCause l c := takeCause_fault hfault c
      refine ⟨s.withCause l c, hsame, withCause_others s l c, withCause_changes s l c, fun hhas => if_pos hhas,
        fun hnew => ?_, fun hnot => ?_, fun hab => ?_⟩
      · have hu : s.withCause l c = (s.mapLane l fun x => { x with causes := x.causes.add c }).raiseLane l :=
          if_neg (by rw [show s.lanes[l].causes.has c = false from hnew]; exact Bool.false_ne_true)
        rw [hu]
        refine ⟨?_, raiseLane_noticed _ l⟩
        rw [raiseLane_sameLanes _ l l, mapLane_lanes, tset_get_self]
      · rw [ht, joinCause_eq, if_neg fun h => hnot ((abandons_iff c).mp h)]
      · rw [ht, joinCause_eq, if_pos ((abandons_iff c).mpr hab), push_eq, abandon_agenda, hagenda,
          abandonEvents_congr hsame, asChain]
        show _ = { (s.withCause l c).abandon l with agenda := if outcomes = [] then s.agenda else s.agenda ++ [outcomes] }
        by_cases hnone : outcomes = []
        · rw [if_pos hnone, if_pos hnone, List.append_nil]
        · rw [if_neg hnone, if_neg hnone]
  · intro s l it ok hit
    have hfind : s.items.queues[l].find? (fun x => x.rid = it.rid) = some it := by
      cases hf : s.items.queues[l].find? (fun x => x.rid = it.rid) with
      | none =>
        have hnone := List.find?_eq_none.mp hf it hit
        simp at hnone
      | some y =>
        have hy := List.mem_of_find?_eq_some hf
        have hrid : y.rid = it.rid := by simpa using List.find?_some hf
        rw [eq_of_rid ok (mem_all_of_queue _ l y hy) (mem_all_of_queue _ l it hit) hrid]
    refine ⟨fun hcov hover => ?_, fun hnot => ?_⟩
    · rw [State.jamPoint, hfind]
      simp only [hcov, hover, Bool.false_eq_true, not_false_eq_true, and_self, if_true]
      rw [mapRecord_queue s l it _ ok hit]
      rfl
    · rw [State.jamPoint, hfind]
      refine if_neg fun ⟨hcov, hover⟩ => ?_
      obtain h | h := hnot
      · rw [h] at hcov
        cases hcov
      · exact hover h

end Sys2Proof.Machine
end

section
/-! SUPPORT. The causes of the Position Unit: REVERSE and ENCODER (R111, R112, R117, R122, R126). -/

namespace Sys2Proof.Machine

/-! ### The offers (R112, R117) -/

theorem justFaulted_eq (x : Lane) : x.justFaulted =
    (x.state = .fault && (x.struck = some ⟨true, false⟩ || x.struck = some ⟨false, false⟩)) := by
  rw [Lane.justFaulted]
  congr 1
  cases x.struck with
  | none => rfl
  | some m =>
    obtain ⟨full, stepped⟩ := m
    cases full <;> cases stepped <;> rfl

/-- The lanes that satisfy `p` are offered a cause. -/
def State.offerTo (s : State) (p : LaneId → Bool) (c : Cause) (k : Nat) : State :=
  { s with choices := k, agenda := s.agenda ++ (allLanes.filter p).map (fun l => [.offer l c]) }

theorem pushEach_map {α : Type} (s : State) (f : α → Event) (xs : List α) :
    s.pushEach (xs.map f) = { s with agenda := s.agenda ++ xs.map (fun x => [f x]) } := by
  rw [State.pushEach, List.map_map]
  rfl

/-- With no lane just taken to FAULT the lanes in RUN or DRAIN are offered the cause. -/
theorem offerAll_settled {s : State} (h : ∀ l : LaneId, s.lanes[l].justFaulted = false) (c : Cause) :
    s.offerAll c = s.offerTo (fun l => s.lanes[l].running) c s.choices := by
  have hany : (allLanes.any fun l => s.lanes[l].justFaulted) = false := by
    rw [List.any_eq_false]
    intro l _
    rw [h l]
    exact Bool.false_ne_true
  have hmoment : s.sameMoment = (false, s) := by
    rw [State.sameMoment, hany]
    rfl
  have hfilter : (fun l : LaneId => s.lanes[l].running || (false && s.lanes[l].justFaulted)) =
      fun l => s.lanes[l].running := funext fun l => by rw [Bool.false_and, Bool.or_false]
  rw [State.offerAll, hmoment]
  simp only
  rw [hfilter, pushEach_map]
  rfl

/-- Otherwise it is a free value whether those lanes are offered it too. -/
theorem offerAll_fresh {s : State} (h : ∃ l : LaneId, s.lanes[l].justFaulted = true) (c : Cause) :
    s.offerAll c = s.offerTo (if Config.choice s.choices % 2 = 1 then
      fun l => s.lanes[l].running || s.lanes[l].justFaulted else fun l => s.lanes[l].running) c (s.choices + 1) := by
  have hany : (allLanes.any fun l => s.lanes[l].justFaulted) = true := by
    obtain ⟨l, hl⟩ := h
    exact List.any_eq_true.mpr ⟨l, mem_allLanes l, hl⟩
  have hmoment : s.sameMoment = (decide (Config.choice s.choices % 2 = 1), { s with choices := s.choices + 1 }) := by
    rw [State.sameMoment, hany]
    rfl
  rw [State.offerAll, hmoment]
  simp only
  by_cases hk : Config.choice s.choices % 2 = 1
  · have hfilter : (fun l : LaneId => s.lanes[l].running ||
        (decide (Config.choice s.choices % 2 = 1) && s.lanes[l].justFaulted)) =
        fun l => s.lanes[l].running || s.lanes[l].justFaulted := funext fun l => by
      rw [decide_eq_true hk, Bool.true_and]
    rw [hfilter, if_pos hk, pushEach_map]
    rfl
  · have hfilter : (fun l : LaneId => s.lanes[l].running ||
        (decide (Config.choice s.choices % 2 = 1) && s.lanes[l].justFaulted)) =
        fun l => s.lanes[l].running := funext fun l => by
      rw [decide_eq_false hk, Bool.false_and, Bool.or_false]
    rw [hfilter, if_neg hk, pushEach_map]
    rfl

/-! ### The end of a transition (R117) -/

theorem stepEnded_struck_none {x : Lane} (h : x.struck = none) : x.stepEnded = x := by
  rw [Lane.stepEnded, h]
  show { x with struck := none } = x
  rw [← h]

theorem stepEnded_fresh {x : Lane} {full : Bool} (h : x.struck = some ⟨full, false⟩) :
    x.stepEnded = { x with struck := some ⟨full, true⟩ } := by
  rw [Lane.stepEnded, h]

theorem stepEnded_past {x : Lane} {full : Bool} (h : x.struck = some ⟨full, true⟩) :
    x.stepEnded = { x with struck := none } := by
  rw [Lane.stepEnded, h]

/-- Only the mark of a fresh fault moves. -/
theorem stepEnded_eq (x : Lane) : x.stepEnded = { x with struck := x.stepEnded.struck } := by
  rw [Lane.stepEnded]
  split <;> rfl

theorem stepEnded_stepped (x : Lane) : ∀ m, x.stepEnded.struck = some m → m.stepped = true := by
  intro m hm
  rw [Lane.stepEnded] at hm
  split at hm
  · cases hm
    rfl
  · cases hm

/-! ### Reactions while the offers are taken -/

/-- The reactions that act between two states take lanes from RUN or DRAIN to FAULT and hand on trigger events, and no
record moves. -/
structure State.Reacts (s t : State) : Prop where
  lanes : ∀ l : LaneId, (t.lanes[l].state = s.lanes[l].state ∧ t.lanes[l].causes = s.lanes[l].causes) ∨
    (s.lanes[l].running = true ∧ t.lanes[l].state = .fault)
  records : s.sameRecords t
  agenda : ∃ more : List (List Event), t.agenda = s.agenda ++ more ∧
    ∀ ch ∈ more, ch ≠ [] ∧ ∀ e ∈ ch, ∃ te, e = Event.trigger te

theorem State.Reacts.refl (s : State) : s.Reacts s :=
  ⟨fun _ => Or.inl ⟨rfl, rfl⟩, .refl s, [], (List.append_nil _).symm, by simp⟩

theorem State.Reacts.trans {s t u : State} (h : s.Reacts t) (k : t.Reacts u) : s.Reacts u where
  lanes l := by
    obtain ⟨hs, hc⟩ | ⟨hr, hf⟩ := h.lanes l
    · obtain ⟨ks, kc⟩ | ⟨kr, kf⟩ := k.lanes l
      · exact Or.inl ⟨ks.trans hs, kc.trans hc⟩
      · rw [running_iff, hs, ← running_iff] at kr
        exact Or.inr ⟨kr, kf⟩
    · obtain ⟨ks, _⟩ | ⟨_, kf⟩ := k.lanes l
      · exact Or.inr ⟨hr, ks.trans hf⟩
      · exact Or.inr ⟨hr, kf⟩
  records := h.records.trans k.records
  agenda := by
    obtain ⟨more, hmore, hev⟩ := h.agenda
    obtain ⟨more', hmore', hev'⟩ := k.agenda
    refine ⟨more ++ more', by rw [hmore', hmore, List.append_assoc], fun ch hch => ?_⟩
    exact (List.mem_append.mp hch).elim (hev ch) (hev' ch)

theorem State.Reacts.foldl {α : Type} {f : State → α → State} (h : ∀ (s : State) (a : α), s.Reacts (f s a)) :
    ∀ (xs : List α) (s : State), s.Reacts (xs.foldl f s)
  | [], s => .refl s
  | a :: xs, s => (h s a).trans (State.Reacts.foldl h xs (f s a))

/-- What touches neither records, lanes nor the agenda. -/
theorem State.Reacts.of_changes {s t : State}
    (h : OnlyChanges [.outputs, .schedule, .windows, .timers, .notices, .reactions] s t) : s.Reacts t where
  lanes l := by
    have hlanes : t.lanes = s.lanes := h .lanes (by decide)
    rw [hlanes]
    exact Or.inl ⟨rfl, rfl⟩
  records := sameRecords_of_items (h .items (by decide))
  agenda := ⟨[], (h .agenda (by decide)).trans (List.append_nil _).symm, by simp⟩

theorem sansNotice_same {x y : Lane} (h : x.sansNotice = y.sansNotice) : x.state = y.state ∧ x.causes = y.causes := by
  show x.sansNotice.state = y.sansNotice.state ∧ x.sansNotice.causes = y.sansNotice.causes
  rw [h]
  exact ⟨rfl, rfl⟩

theorem laneHold_reacts (s : State) (l : LaneId) : s.Reacts (s.laneHold l) := by
  by_cases hrun : s.lanes[l].running = true
  · rw [laneHold_faults hrun, push_eq]
    refine ⟨fun m => ?_, struck_sameRecords s l .reaction, ?_⟩
    · show ((s.struck l .reaction).lanes[m].state = _ ∧ (s.struck l .reaction).lanes[m].causes = _) ∨
        _ ∧ (s.struck l .reaction).lanes[m].state = _
      by_cases hm : m = l
      · subst hm
        exact Or.inr ⟨hrun, struck_state s m .reaction⟩
      · exact Or.inl (sansNotice_same (struck_others s l .reaction m hm))
    · have hagenda : (s.struck l .reaction).agenda = s.agenda := struck_changes s l .reaction .agenda (by decide)
      refine ⟨[[.trigger (.laneFault l)]], ?_, ?_⟩
      · show (s.struck l .reaction).agenda ++ _ = _
        rw [hagenda]
        rfl
      · simp
  · rw [laneHold_rests (by simpa using hrun)]
    exact .refl s

theorem perform_reacts (s : State) (r : ReactionId) : s.Reacts (s.perform r) := by
  rw [State.perform]
  cases s.reactions[r].action with
  | none => exact .refl s
  | outSet o => exact .of_changes ((mapGeneral_changes s _ _).mono (by decide))
  | outClear o => exact .of_changes ((mapGeneral_changes s _ _).mono (by decide))
  | outPulse o ms => exact .of_changes ((outPulse_changes s _ _).mono (by decide))
  | timerStart t => exact .of_changes ((mapTimer_changes s _ _).mono (by decide))
  | timerStop t => exact .of_changes ((mapTimer_changes s _ _).mono (by decide))
  | laneHold l => exact laneHold_reacts s l
  | capture => exact .of_changes ((produce_changes s _ _).mono (by decide))
  | notify => exact .of_changes ((produce_changes s _ _).mono (by decide))

theorem takeTrigger_reacts (s : State) (te : TriggerEvent) : s.Reacts (s.takeTrigger te) :=
  (State.Reacts.foldl perform_reacts _ s).trans (State.Reacts.foldl
    (fun s r => .of_changes ((mapReaction_changes s r _).mono (by decide))) _ _)

end Sys2Proof.Machine
end

section
/-! SUPPORT. The moment of an abandoning cause (R23, R111, R112, R117, R122, R126). -/

namespace Sys2Proof.Machine

/-! ### An abandon and the lanes -/

theorem becomeDone_sameLanes (s : State) (it : Item) (r : Summary) : s.sameLanes (s.becomeDone it r) := by
  rw [becomeDone_eq]
  split
  · exact raiseItem_sameLanes (s.addDone (it.ended r)) it.rid .outcome
  · exact .refl s

theorem abandonItem_sameLanes (s : State) (rid : Nat) : s.sameLanes (s.abandonItem rid) := by
  rw [State.abandonItem]
  split
  · exact .refl s
  · refine State.sameLanes.trans (sameLanes_of_lanes ?_) (becomeDone_sameLanes _ _ _)
    exact ((dropWindows_changes _ rid) .lanes (by decide)).trans ((dropEntries_changes s rid) .lanes (by decide))

theorem abandon_sameLanes (s : State) (l : LaneId) : s.sameLanes (s.abandon l) := by
  have hfold (rids : List Nat) : ∀ u : State, u.sameLanes (rids.foldl State.abandonItem u) := by
    induction rids with
    | nil => exact fun u => .refl u
    | cons rid rids ih => exact fun u => (abandonItem_sameLanes u rid).trans (ih _)
  exact hfold _ s

theorem Item.Follows.lane_eq {a b : Item} (h : a.Follows b) : b.lane = a.lane := by
  obtain ⟨_, hlane, _⟩ := h
  exact hlane

/-- R23: no record of the lane is left PASSED. -/
theorem abandon_passed (s : State) (l : LaneId) : ∀ it ∈ (s.abandon l).items.passed, it.lane ≠ l := by
  intro it hit hl
  obtain ⟨x, hx, hfollows⟩ := (abandon_strips s l).passed.mem hit
  obtain ⟨hx, hnot⟩ := List.mem_filter.mp hx
  have hmem : x ∈ s.toAbandon l := mem_toAbandon.mpr (Or.inl ⟨hx, hfollows.lane_eq.symm.trans hl⟩)
  have hgone : x.rid ∈ (s.toAbandon l).map (·.rid) := List.mem_map_of_mem hmem
  simp only [hgone, not_true, decide_false, Bool.false_eq_true] at hnot

/-- The records of one lane are gone from its queue and from the PASSED part. -/
def State.emptied (s : State) (l : LaneId) : Prop :=
  s.items.queues[l] = [] ∧ ∀ it ∈ s.items.passed, it.lane ≠ l

theorem abandon_empties (s : State) (l : LaneId) : (s.abandon l).emptied l :=
  ⟨abandon_queue s l, abandon_passed s l⟩

theorem emptied_of_strips {rids : List Nat} {s t : State} (h : s.Strips rids t) {m : LaneId} (hm : s.emptied m) :
    t.emptied m := by
  obtain ⟨hq, hp⟩ := hm
  refine ⟨?_, fun it hit => ?_⟩
  · have hqueue := h.queues m
    rw [hq] at hqueue
    exact hqueue.nil_left
  · obtain ⟨x, hx, hfollows⟩ := h.passed.mem hit
    rw [hfollows.lane_eq]
    exact hp x (List.mem_filter.mp hx).1

theorem emptied_of_sameRecords {s t : State} (h : s.sameRecords t) {m : LaneId} (hm : s.emptied m) : t.emptied m := by
  obtain ⟨hqueues, _, hpassed⟩ := h
  obtain ⟨hq, hp⟩ := hm
  refine ⟨?_, fun it hit => ?_⟩
  · have hnil := hqueues m
    rw [hq] at hnil
    exact List.map_eq_nil_iff.mp hnil
  · obtain ⟨y, hy, hsame⟩ := mem_of_sansFlags hpassed hit
    rw [← sansFlags_lane hsame]
    exact hp y hy

theorem abandonedFor_iff (s : State) (l : LaneId) (c : Cause) : s.abandonedFor l c ↔
    s.lanes[l].state = .fault ∧ s.lanes[l].causes.has c = true ∧ s.emptied l := Iff.rfl

/-! ### A lane takes an abandoning cause -/

/-- What taking an abandoning cause leaves, from `s` to `t`, in a lane outside OFF. -/
structure State.Abandoning (s : State) (l : LaneId) (c : Cause) (t : State) : Prop where
  own : t.abandonedFor l c
  causes : s.lanes[l].state = .fault →
    t.lanes[l].causes = if s.lanes[l].causes.has c = true then s.lanes[l].causes else s.lanes[l].causes.add c
  others : ∀ m : LaneId, m ≠ l → t.lanes[m].state = s.lanes[m].state ∧ t.lanes[m].causes = s.lanes[m].causes
  emptied : ∀ m : LaneId, s.emptied m → t.emptied m
  agenda : ∃ more : List (List Event), t.agenda = s.agenda ++ more ∧
    ∀ ch ∈ more, ch ≠ [] ∧ ∀ e ∈ ch, ∃ te, e = Event.trigger te

/-- The abandon of a lane that has the cause in its set, and the triggers handed on. -/
theorem abandons_after {s u : State} {l : LaneId} {c : Cause} (hrecords : s.sameRecords u) (hothers : s.sameOtherLanes u l)
    (hagenda : u.agenda = s.agenda) (hfault : u.lanes[l].state = .fault) (hhas : u.lanes[l].causes.has c = true)
    (hcauses : s.lanes[l].state = .fault →
      u.lanes[l].causes = if s.lanes[l].causes.has c = true then s.lanes[l].causes else s.lanes[l].causes.add c)
    {events : List Event} (hevents : ∀ e ∈ events, ∃ te, e = Event.trigger te) :
    s.Abandoning l c ((u.abandon l).push (u.abandonEvents l ++ events)) := by
  have hlanes (m : LaneId) := sansNotice_same (abandon_sameLanes u l m)
  rw [push_eq]
  refine ⟨(abandonedFor_iff _ _ _).mpr ⟨?_, ?_, abandon_empties u l⟩, fun hs => ?_, fun m hm => ?_, fun m hm => ?_, ?_⟩
  · exact (hlanes l).1.trans hfault
  · show CauseSet.has (u.abandon l).lanes[l].causes c = true
    rw [(hlanes l).2]
    exact hhas
  · exact (hlanes l).2.trans (hcauses hs)
  · obtain ⟨hstate, hset⟩ := sansNotice_same (hothers m hm)
    exact ⟨(hlanes m).1.trans hstate, (hlanes m).2.trans hset⟩
  · exact emptied_of_strips (abandon_strips u l) (emptied_of_sameRecords hrecords hm)
  · refine ⟨asChain (u.abandonEvents l ++ events), ?_, fun ch hch => ?_⟩
    · show (u.abandon l).agenda ++ _ = _
      rw [abandon_agenda, hagenda]
    · rw [asChain] at hch
      split at hch
      · cases hch
      · next hne =>
        rw [List.mem_singleton.mp hch]
        refine ⟨hne, fun e he => ?_⟩
        obtain he | he := List.mem_append.mp he
        · obtain ⟨it, _, rfl⟩ := List.mem_map.mp he
          exact ⟨_, rfl⟩
        · exact hevents e he

theorem takeCause_abandons {s : State} {l : LaneId} {c : Cause} (hc : c.abandons = true) (hl : s.lanes[l].state ≠ .off) :
    s.Abandoning l c (s.takeCause l c) := by
  cases hs : s.lanes[l].state with
  | off => exact absurd hs hl
  | fault =>
    have hagenda : (s.withCause l c).agenda = s.agenda := withCause_changes s l c .agenda (by decide)
    have hlane : (s.withCause l c).lanes[l].state = s.lanes[l].state ∧ (s.withCause l c).lanes[l].causes =
        if s.lanes[l].causes.has c = true then s.lanes[l].causes else s.lanes[l].causes.add c := by
      rw [State.withCause]
      by_cases hhas : s.lanes[l].causes.has c = true
      · rw [if_pos hhas, if_pos hhas]
        exact ⟨rfl, rfl⟩
      · rw [if_neg hhas, if_neg hhas]
        have hraise := sansNotice_same (raiseLane_sameLanes (s.mapLane l fun x => { x with causes := x.causes.add c }) l l)
        rw [mapLane_lanes, tset_get_self] at hraise
        exact hraise
    obtain ⟨hstate, hset⟩ := hlane
    rw [takeCause_fault hs, joinCause_eq, if_pos hc]
    have hafter := abandons_after (events := []) (withCause_sameRecords s l c) (withCause_others s l c) hagenda
      (hstate.trans hs) (by
        rw [hset]
        split
        · next hhas => exact hhas
        · exact (add_has _ c c).mpr (Or.inl rfl)) (fun _ => hset) (by simp)
    rwa [List.append_nil] at hafter
  | run | drain =>
    have hrun : s.lanes[l].state = .run ∨ s.lanes[l].state = .drain := by
      rw [hs]
      simp
    have hagenda : (s.struck l c).agenda = s.agenda := struck_changes s l c .agenda (by decide)
    have hcauses : (s.struck l c).lanes[l].causes = CauseSet.empty.add c := (sansNotice_same (struck_lane s l c)).2
    rw [takeCause_running hrun, enterFault_eq, if_pos hc]
    refine abandons_after (struck_sameRecords s l c) (struck_others s l c) hagenda (struck_state s l c) ?_
      (fun hfault => by rw [hs] at hfault; cases hfault) (by simp)
    rw [hcauses]
    exact (add_has _ c c).mpr (Or.inl rfl)

/-! ### The moment -/

/-- A state of the moment at which cause `c` is offered, which began in `s`. -/
structure State.Offered (s : State) (c : Cause) (u : State) : Prop where
  chains : ∀ ch ∈ u.agenda, ch ≠ []
  events : ∀ e ∈ u.agenda.flatten, (∃ l : LaneId, e = .offer l c ∧
    (s.lanes[l].running = true ∨ s.lanes[l].justFaulted = true)) ∨ ∃ te, e = .trigger te
  idle : ∀ l : LaneId, s.lanes[l].running = false → s.lanes[l].justFaulted = false →
    u.lanes[l].state = s.lanes[l].state ∧ u.lanes[l].causes = s.lanes[l].causes
  fresh : ∀ l : LaneId, s.lanes[l].justFaulted = true → u.lanes[l].state = .fault ∧
    (u.lanes[l].causes = s.lanes[l].causes ∨ (u.lanes[l].causes = s.lanes[l].causes.add c ∧ u.abandonedFor l c))
  running : ∀ l : LaneId, s.lanes[l].running = true → u.lanes[l].state ≠ .off ∧
    (.offer l c ∈ u.agenda.flatten ∨ u.abandonedFor l c)

theorem not_running_of_state {x : Lane} (h : x.state = .off ∨ x.state = .fault) : x.running = false := by
  rw [Lane.running]
  obtain h | h := h <;> rw [h] <;> rfl

theorem justFaulted_state {x : Lane} (h : x.justFaulted = true) : x.state = .fault := by
  rw [Lane.justFaulted, Bool.and_eq_true, decide_eq_true_eq] at h
  exact h.1

/-- A lane of the moment that is neither in RUN nor in DRAIN and not just in FAULT stays so. -/
theorem idle_not_running {x : Lane} (h : x.running = false) {y : Lane} (hs : y.state = x.state) : y.running = false := by
  rw [Lane.running, hs]
  exact h

/-- What reactions do keeps an abandon. -/
theorem State.Reacts.abandonedFor {s t : State} (h : s.Reacts t) {l : LaneId} {c : Cause} (ha : s.abandonedFor l c) :
    t.abandonedFor l c := by
  obtain ⟨hfault, hhas, hempty⟩ := (abandonedFor_iff _ _ _).mp ha
  obtain ⟨hs, hc⟩ | ⟨hr, _⟩ := h.lanes l
  · exact (abandonedFor_iff _ _ _).mpr ⟨hs.trans hfault, by rw [hc]; exact hhas, emptied_of_sameRecords h.records hempty⟩
  · rw [not_running_of_state (Or.inr hfault)] at hr
    cases hr

section
variable {s t u : State} {c : Cause} {e : Event} {rest more : List (List Event)}

/-- The events of the agenda once one has been taken. -/
theorem mem_rest_append (hagenda : t.agenda = rest ++ more) (x : Event) :
    x ∈ t.agenda.flatten ↔ x ∈ rest.flatten ∨ x ∈ more.flatten := by
  rw [hagenda, List.flatten_append, List.mem_append]

variable (h : s.Offered c u) (hrest : ∀ ch ∈ rest, ch ≠ []) (hperm : u.agenda.flatten.Perm (e :: rest.flatten))
  (hagenda : t.agenda = rest ++ more) (hmore : ∀ ch ∈ more, ch ≠ [] ∧ ∀ x ∈ ch, ∃ te, x = Event.trigger te)
include hrest hagenda hmore in
theorem State.Offered.chains_after : ∀ ch ∈ t.agenda, ch ≠ [] := by
  rw [hagenda]
  exact fun ch hch => (List.mem_append.mp hch).elim (hrest ch) (fun hm => (hmore ch hm).1)

include h hperm hagenda hmore in
theorem State.Offered.events_after : ∀ x ∈ t.agenda.flatten, (∃ l : LaneId, x = .offer l c ∧
    (s.lanes[l].running = true ∨ s.lanes[l].justFaulted = true)) ∨ ∃ te, x = .trigger te := by
  intro x hx
  obtain hr | hm := (mem_rest_append hagenda x).mp hx
  · exact h.events x (hperm.mem_iff.mpr (List.mem_cons_of_mem _ hr))
  · obtain ⟨ch, hch, hxc⟩ := List.mem_flatten.mp hm
    exact Or.inr ((hmore ch hch).2 x hxc)

include h hperm in
/-- A lane that is offered the cause is not OFF. -/
theorem State.Offered.live {l : LaneId} (he : e = .offer l c) :
    (s.lanes[l].running = true ∨ s.lanes[l].justFaulted = true) ∧ u.lanes[l].state ≠ .off := by
  have hofferable : s.lanes[l].running = true ∨ s.lanes[l].justFaulted = true := by
    obtain ⟨m, hm, hor⟩ | ⟨te, hte⟩ := h.events e (hperm.mem_iff.mpr List.mem_cons_self)
    · rw [he] at hm
      cases hm
      exact hor
    · rw [he] at hte
      cases hte
  refine ⟨hofferable, ?_⟩
  obtain hr | hj := hofferable
  · exact (h.running l hr).1
  · rw [(h.fresh l hj).1]
    exact nofun

include h hrest hperm hagenda hmore

/-- A trigger event of the moment. -/
theorem State.Offered.trigger {te : TriggerEvent} (he : e = .trigger te) {v : State} (hv : OnlyChanges [.choices, .agenda] u v)
    (hreacts : v.Reacts t) : s.Offered c t := by
  have hlanes : v.lanes = u.lanes := hv .lanes (by decide)
  have hitems : v.items = u.items := hv .items (by decide)
  have hkept (l : LaneId) (ha : u.abandonedFor l c) : t.abandonedFor l c := by
    refine hreacts.abandonedFor ?_
    rw [State.abandonedFor, hlanes, hitems]
    exact ha
  have hlane (l : LaneId) : (t.lanes[l].state = u.lanes[l].state ∧ t.lanes[l].causes = u.lanes[l].causes) ∨
      (u.lanes[l].running = true ∧ t.lanes[l].state = .fault) := by
    have hboth := hreacts.lanes l
    rwa [hlanes] at hboth
  refine ⟨State.Offered.chains_after hrest hagenda hmore, h.events_after hperm hagenda hmore, fun l hr hj => ?_,
    fun l hj => ?_, fun l hr => ?_⟩
  · obtain ⟨hs, hc⟩ := h.idle l hr hj
    obtain ⟨ht, htc⟩ | ⟨hrun, _⟩ := hlane l
    · exact ⟨ht.trans hs, htc.trans hc⟩
    · rw [idle_not_running hr hs] at hrun
      cases hrun
  · obtain ⟨hs, hc⟩ := h.fresh l hj
    obtain ⟨ht, htc⟩ | ⟨hrun, _⟩ := hlane l
    · rw [htc]
      exact ⟨ht.trans hs, hc.imp id (fun ⟨hadd, ha⟩ => ⟨hadd, hkept l ha⟩)⟩
    · rw [not_running_of_state (Or.inr hs)] at hrun
      cases hrun
  · obtain ⟨hs, hor⟩ := h.running l hr
    refine ⟨?_, hor.imp (fun ho => ?_) (hkept l)⟩
    · obtain ⟨ht, _⟩ | ⟨_, hf⟩ := hlane l
      · rw [ht]
        exact hs
      · rw [hf]
        exact nofun
    · rw [hperm.mem_iff, List.mem_cons, he] at ho
      obtain ho | ho := ho
      · cases ho
      · exact (mem_rest_append hagenda _).mpr (Or.inl ho)

/-- An offer of the moment. -/
theorem State.Offered.offer {l : LaneId} (he : e = .offer l c) {v : State} (hv : OnlyChanges [.choices, .agenda] u v)
    (htaken : v.Abandoning l c t) : s.Offered c t := by
  have hlanes : v.lanes = u.lanes := hv .lanes (by decide)
  have hitems : v.items = u.items := hv .items (by decide)
  obtain ⟨hofferable, _⟩ := h.live hperm he
  have hother (m : LaneId) (hm : m ≠ l) : t.lanes[m].state = u.lanes[m].state ∧ t.lanes[m].causes = u.lanes[m].causes := by
    have hboth := htaken.others m hm
    rwa [hlanes] at hboth
  have hkept (m : LaneId) (hm : m ≠ l) (ha : u.abandonedFor m c) : t.abandonedFor m c := by
    obtain ⟨hs, hc⟩ := hother m hm
    obtain ⟨hfault, hhas, hempty⟩ := (abandonedFor_iff _ _ _).mp ha
    refine (abandonedFor_iff _ _ _).mpr ⟨hs.trans hfault, by rw [hc]; exact hhas, htaken.emptied m ?_⟩
    rw [State.emptied, hitems]
    exact hempty
  have hfault : t.lanes[l].state = .fault := ((abandonedFor_iff _ _ _).mp htaken.own).1
  refine ⟨State.Offered.chains_after hrest hagenda hmore, h.events_after hperm hagenda hmore, fun m hr hj => ?_,
    fun m hj => ?_, fun m hr => ?_⟩
  · have hm : m ≠ l := by
      rintro rfl
      rw [hr, hj] at hofferable
      simp at hofferable
    obtain ⟨hs, hc⟩ := h.idle m hr hj
    obtain ⟨ht, htc⟩ := hother m hm
    exact ⟨ht.trans hs, htc.trans hc⟩
  · obtain ⟨hs, hor⟩ := h.fresh m hj
    by_cases hm : m = l
    · subst hm
      refine ⟨hfault, ?_⟩
      have hcauses := htaken.causes (by rw [hlanes]; exact hs)
      rw [hlanes] at hcauses
      by_cases hhas : u.lanes[m].causes.has c = true
      · rw [if_pos hhas] at hcauses
        rw [hcauses]
        exact hor.imp id (fun ⟨hadd, _⟩ => ⟨hadd, htaken.own⟩)
      · rw [if_neg hhas] at hcauses
        obtain hsame | ⟨hadd, _⟩ := hor
        · rw [hsame] at hcauses
          exact Or.inr ⟨hcauses, htaken.own⟩
        · rw [hadd] at hhas
          exact absurd ((add_has _ c c).mpr (Or.inl rfl)) hhas
    · obtain ⟨ht, htc⟩ := hother m hm
      rw [htc]
      exact ⟨ht.trans hs, hor.imp id (fun ⟨hadd, ha⟩ => ⟨hadd, hkept m hm ha⟩)⟩
  · obtain ⟨hs, hor⟩ := h.running m hr
    by_cases hm : m = l
    · subst hm
      rw [hfault]
      exact ⟨nofun, Or.inr htaken.own⟩
    · rw [(hother m hm).1]
      refine ⟨hs, hor.imp (fun ho => ?_) (hkept m hm)⟩
      rw [hperm.mem_iff, List.mem_cons, he] at ho
      obtain ho | ho := ho
      · cases ho
        exact absurd rfl hm
      · exact (mem_rest_append hagenda _).mpr (Or.inl ho)

end

/-- One event of the moment. -/
theorem State.Offered.takeOne {s u : State} {c : Cause} (hc : c.abandons = true) (h : s.Offered c u) (hne : u.agenda ≠ []) :
    s.Offered c u.takeOne := by
  obtain ⟨e, rest, heq, hrest, hperm⟩ := takeOne_eq h.chains hne
  let v := (u.choose u.agenda.length).2.withAgenda rest
  have hv : OnlyChanges [.choices, .agenda] u v :=
    ((choose_changes u _).mono (by decide)).trans ((withAgenda_changes _ rest).mono (by decide))
  rw [heq]
  obtain ⟨l, he, _⟩ | ⟨te, he⟩ := h.events e (hperm.mem_iff.mpr List.mem_cons_self)
  · have htake : v.handle e = v.takeCause l c := by rw [he]; rfl
    rw [htake]
    obtain ⟨_, hlive⟩ := h.live hperm he
    have hlanes : v.lanes = u.lanes := hv .lanes (by decide)
    have htaken := takeCause_abandons hc (s := v) (by rw [hlanes]; exact hlive)
    obtain ⟨more, hagenda, hmore⟩ := htaken.agenda
    exact h.offer hrest hperm hagenda hmore he hv htaken
  · have htake : v.handle e = v.takeTrigger te := by rw [he]; rfl
    rw [htake]
    have hreacts := takeTrigger_reacts v te
    obtain ⟨more, hagenda, hmore⟩ := hreacts.agenda
    exact h.trigger hrest hperm hagenda hmore he hv hreacts

end Sys2Proof.Machine
end

section
/-! SUPPORT. REVERSE and ENCODER reach every running lane (R23, R111, R112, R117, R122, R126). -/

namespace Sys2Proof.Machine

/-! ### The moment begins and ends -/

theorem offerTo_begins {s : State} (ha : s.agenda = []) {p : LaneId → Bool} {c : Cause} (k : Nat)
    (hall : ∀ l : LaneId, s.lanes[l].running = true → p l = true)
    (honly : ∀ l : LaneId, p l = true → s.lanes[l].running = true ∨ s.lanes[l].justFaulted = true) :
    s.Offered c (s.offerTo p c k) := by
  have hagenda : (s.offerTo p c k).agenda = ((allLanes.filter p).map (fun l => Event.offer l c)).map (fun e => [e]) := by
    show s.agenda ++ _ = _
    rw [ha, List.nil_append, List.map_map]
    rfl
  have hmem (e : Event) : e ∈ (s.offerTo p c k).agenda.flatten ↔ ∃ l : LaneId, e = .offer l c ∧ p l = true := by
    rw [hagenda, flatten_singletons, mem_due]
    exact ⟨fun ⟨l, _, h⟩ => ⟨l, h⟩, fun ⟨l, h⟩ => ⟨l, mem_allLanes l, h⟩⟩
  refine ⟨fun ch hch => ?_, fun e he => ?_, fun l _ _ => ⟨rfl, rfl⟩, fun l hj => ⟨justFaulted_state hj, Or.inl rfl⟩,
    fun l hr => ⟨fun hoff => ?_, Or.inl ?_⟩⟩
  · rw [hagenda] at hch
    obtain ⟨e, _, rfl⟩ := List.mem_map.mp hch
    exact List.cons_ne_nil _ _
  · obtain ⟨l, he, hp⟩ := (hmem e).mp he
    exact Or.inl ⟨l, he, honly l hp⟩
  · have hnot : s.lanes[l].running = false := not_running_of_state (Or.inl hoff)
    rw [hr] at hnot
    cases hnot
  · exact (hmem _).mpr ⟨l, rfl, hall l hr⟩

theorem offerAll_begins {s : State} (ha : s.agenda = []) (c : Cause) : s.Offered c (s.offerAll c) := by
  by_cases hfresh : ∃ l : LaneId, s.lanes[l].justFaulted = true
  · rw [offerAll_fresh hfresh]
    refine offerTo_begins ha _ (fun l hr => ?_) (fun l hp => ?_)
    · split
      · exact Bool.or_eq_true _ _ ▸ Or.inl hr
      · exact hr
    · split at hp
      · exact Bool.or_eq_true _ _ ▸ hp
      · exact Or.inl hp
  · have hnone (l : LaneId) : s.lanes[l].justFaulted = false := by
      by_contra hj
      exact hfresh ⟨l, by simpa using hj⟩
    rw [offerAll_settled hnone]
    exact offerTo_begins ha _ (fun l hr => hr) (fun l hp => Or.inl hp)

/-- What an abandoning cause gives each lane, from the state `s` in which the Position Unit offers it. -/
def State.faultedBy (s t : State) (c : Cause) : Prop :=
  ∀ l : LaneId,
    (s.lanes[l].state = .run ∨ s.lanes[l].state = .drain → t.abandonedFor l c) ∧
    (s.lanes[l].state = .off ∨ (s.lanes[l].state = .fault ∧ ∀ m, s.lanes[l].struck = some m → m.stepped = true) →
      t.lanes[l].state = s.lanes[l].state ∧ t.lanes[l].causes = s.lanes[l].causes) ∧
    (∀ full : Bool, s.lanes[l].state = .fault → s.lanes[l].struck = some ⟨full, false⟩ → t.lanes[l].state = .fault ∧
      (t.lanes[l].causes = s.lanes[l].causes ∨
        (t.lanes[l].causes = s.lanes[l].causes.add c ∧ t.abandonedFor l c))) ∧
    ∀ m, t.lanes[l].struck = some m → m.stepped = true

theorem offered_ends {s u : State} {c : Cause} (h : s.Offered c u) (ha : u.agenda = []) :
    s.faultedBy u.grant.stepEnded c := by
  have hgrant : u.grant.lanes = u.lanes := grant_changes u .lanes (by decide)
  have hlane (l : LaneId) : u.grant.stepEnded.lanes[l] = u.lanes[l].stepEnded := by
    rw [stepEnded_lane, hgrant]
  have hstate (l : LaneId) : u.grant.stepEnded.lanes[l].state = u.lanes[l].state := by
    rw [hlane, stepEnded_eq]
  have hcauses (l : LaneId) : u.grant.stepEnded.lanes[l].causes = u.lanes[l].causes := by
    rw [hlane, stepEnded_eq]
  have hkept (l : LaneId) (hl : u.abandonedFor l c) : u.grant.stepEnded.abandonedFor l c := by
    obtain ⟨hfault, hhas, hempty⟩ := (abandonedFor_iff _ _ _).mp hl
    refine (abandonedFor_iff _ _ _).mpr ⟨(hstate l).trans hfault, by rw [hcauses l]; exact hhas, ?_⟩
    exact emptied_of_sameRecords (grant_sameRecords u) hempty
  intro l
  refine ⟨fun hrun => ?_, fun hidle => ?_, fun full hfault hstruck => ?_, fun m hm => ?_⟩
  · obtain ⟨_, hoffer | hab⟩ := h.running l ((running_iff _).mpr hrun)
    · rw [ha] at hoffer
      cases hoffer
    · exact hkept l hab
  · have hnot : s.lanes[l].running = false := not_running_of_state (hidle.imp id And.left)
    have hjust : s.lanes[l].justFaulted = false := by
      rw [justFaulted_eq]
      obtain hoff | ⟨_, hpast⟩ := hidle
      · rw [hoff]
        rfl
      · have hne (full : Bool) : s.lanes[l].struck ≠ some ⟨full, false⟩ := fun hs => Bool.false_ne_true (hpast _ hs)
        rw [decide_eq_false (hne true), decide_eq_false (hne false), Bool.or_self, Bool.and_false]
    rw [hstate, hcauses]
    exact h.idle l hnot hjust
  · have hjust : s.lanes[l].justFaulted = true := by
      rw [justFaulted_eq, hfault, hstruck]
      cases full <;> rfl
    obtain ⟨hs, hor⟩ := h.fresh l hjust
    rw [hcauses]
    exact ⟨(hstate l).trans hs, hor.imp id (fun ⟨hadd, hab⟩ => ⟨hadd, hkept l hab⟩)⟩
  · rw [hlane] at hm
    exact stepEnded_stepped _ m hm

/-- R122, R126: the offer of an abandoning cause, and the moment it begins. -/
theorem offerAll_faults {s : State} (ha : s.agenda = []) (hu : s.items.inUse ≤ 192) {c : Cause} (hc : c.abandons = true) :
    s.faultedBy (s.offerAll c).finish.stepEnded c := by
  have hload : (s.offerAll c).load ≤ Config.momentBound := by
    have hcost := (offerAll_costs s c).load
    have htracked := Nat.le_trans (tracked_le_inUse s.items) hu
    have hrunning := runningCount_le_four s
    have hbefore : s.load = 0 + s.items.tracked + s.runningCount := by
      rw [State.load, ha]
      rfl
    show _ ≤ 4096
    omega
  obtain ⟨hoffered, hend⟩ := settle_rests (P := s.Offered c) (weight := State.load)
    (fun u hP hne => ⟨hP.takeOne hc hne, takeOne_load hP.chains hne⟩) Config.momentBound _ (offerAll_begins ha c) hload
  exact offered_ends hoffered hend

theorem illegal_eq (s : State) :
    s.illegal = State.offerAll { s with position := { s.position with encoderFault := true } } .encoder := rfl

/-- R126: the reverse limit is far from the largest depth. -/
theorem crossesLimit_iff (p : Position) : p.crossesLimit = true ↔ p.rd = p.rl.setWidth 32 := by
  have hfar : p.rl.setWidth 32 ≠ deepest := by
    intro he
    have hval := congrArg BitVec.toNat he
    have hlt := p.rl.isLt
    rw [BitVec.toNat_setWidth] at hval
    have hdeep : deepest.toNat = 2147483647 := rfl
    omega
  rw [Position.crossesLimit, Bool.and_eq_true, decide_eq_true_eq, decide_eq_true_eq]
  exact ⟨And.left, fun h => ⟨h, h ▸ hfar⟩⟩

theorem flip_ne_level (v : Level) : v ≠ v.flip := by
  cases v <;> exact nofun

/-- R122: both channels change at one sample in a quadrature mode. -/
theorem decode_illegal {s : State} {levels : Level × Level} (hmode : s.position.mode = .quad4 ∨ s.position.mode = .quad1)
    (ha : s.position.ea ≠ levels.1) (hb : s.position.eb ≠ levels.2) :
    s.decode levels = (s.setReference levels).illegal := by
  have hquad : s.decode levels = (s.setReference levels).quadrature (s.position.ea, s.position.eb) := by
    rw [State.decode]
    obtain h | h := hmode <;> rw [h]
  rw [hquad, State.quadrature]
  exact if_pos ⟨ha, hb⟩

/-- Settles O25: the moment of the offers keeps `State.Offered` until no event of it is left. -/
theorem abandoningCauseReachesEveryRunningLane : Obligations.AbandoningCauseReachesEveryRunningLane := by
  refine ⟨?_, fun s => ⟨?_, stepEnded_changes s, fun l => ⟨nextMoment_lane s l, stepEnded_lane s l⟩⟩,
    fun x => ⟨stepEnded_struck_none, fun full => stepEnded_fresh, fun full => stepEnded_past⟩,
    fun s t => ⟨illegal_eq s, ?_, rfl⟩, ?_⟩
  · intro s c running fresh offered
    have hfresh (l : LaneId) : fresh l = s.lanes[l].justFaulted := (justFaulted_eq _).symm
    refine ⟨fun hnone => offerAll_settled (fun l => (hfresh l).symm.trans (hnone l)) c, fun ⟨l, hl⟩ => ?_⟩
    rw [offerAll_fresh ⟨l, (hfresh l).symm.trans hl⟩]
    have hor : (fun l => running l || fresh l) = fun l => s.lanes[l].running || s.lanes[l].justFaulted :=
      funext fun l => by rw [hfresh l]; rfl
    show _ = offered (if _ then fun l => running l || fresh l else running) _
    rw [hor]
    rfl
  · intro b hb
    cases b with
    | lanes => exact absurd (by decide) hb
    | _ => rfl
  · rw [stepReverse_eq]
    by_cases hlimit : s.position.rd = s.position.rl.setWidth 32
    · rw [if_pos ((crossesLimit_iff _).mpr hlimit), if_pos hlimit]
    · rw [if_neg fun h => hlimit ((crossesLimit_iff _).mp h), if_neg hlimit]
  · intro s ha hu faulted
    refine ⟨fun hmode hlimit => ?_, fun hmode => ?_⟩
    · obtain ⟨levels, hlevels⟩ := reverseLevels_some hmode
      let v : State := { s.setChannels levels with position := (s.setChannels levels).position.back }
      have hstep : (s.setChannels levels).stepReverse = v.offerAll .reverse := by
        rw [stepReverse_eq]
        exact if_pos ((crossesLimit_iff _).mpr hlimit)
      refine ⟨_, exec_reverseStep hlevels, ?_⟩
      rw [hstep]
      exact offerAll_faults (s := v) ha hu (by decide)
    · let levels := (s.position.ea.flip, s.position.eb.flip)
      let w := (s.setPins levels).setReference levels
      let v : State := { w with position := { w.position with encoderFault := true } }
      have hstep : (s.setPins levels).decode levels = v.offerAll .encoder :=
        (decode_illegal (s := s.setPins levels) (levels := levels) hmode (flip_ne_level s.position.ea) (flip_ne_level s.position.eb)).trans (illegal_eq w)
      refine ⟨((s.setPins levels).decode levels).finish.stepEnded, rfl, ?_⟩
      rw [hstep]
      exact offerAll_faults (s := v) ha hu (by decide)

end Sys2Proof.Machine
end

section
/-! SUPPORT. The decoding of the channels (R119 to R122). -/

namespace Sys2Proof.Machine

/-! ### Steps that a decoded transition gives -/

theorem stepForward_position (s : State) : s.stepForward.position = s.position.forward := by
  rw [stepForward_eq]
  split
  · exact offerStep_changes _ .position (by decide)
  · rfl

theorem illegal_position (s : State) : s.illegal.position = { s.position with encoderFault := true } := by
  rw [illegal_eq]
  exact offerAll_changes _ _ .position (by decide)

/-- R120 to R122: the step of a transition of the pair, from `old` to `new`; none where it is illegal. -/
def stepOf (mode : EncoderMode) (old new : Level × Level) : Option Direction :=
  match mode with
  | .quad4 => if old.1 ≠ new.1 ∧ old.2 ≠ new.2 then none else
      if new = cycleNext old.1 old.2 then some .forward
      else if new = cyclePrev old.1 old.2 then some .reverse else some .none
  | .quad1 => if old.1 ≠ new.1 ∧ old.2 ≠ new.2 then none else
      if old = (.low, .high) ∧ new = (.low, .low) then some .forward
      else if old = (.low, .low) ∧ new = (.low, .high) then some .reverse else some .none
  | .step => if old.1 = .low ∧ new.1 = .high then (if new.2 = .high then some .reverse else some .forward)
      else some .none
  | .count => if old.1 = .low ∧ new.1 = .high then some .forward else some .none

/-- A transition takes effect: a step, or cause ENCODER. -/
def State.stepBy (s : State) : Option Direction → State
  | none => s.illegal
  | some .none => s
  | some .forward => s.stepForward
  | some .reverse => s.stepReverse

theorem decode_eq (s : State) (new : Level × Level) :
    s.decode new = (s.setReference new).stepBy (stepOf s.position.mode (s.position.ea, s.position.eb) new) := by
  have hmode : (s.setReference new).position.mode = s.position.mode := rfl
  have hea : (s.setReference new).position.ea = new.1 := rfl
  have heb : (s.setReference new).position.eb = new.2 := rfl
  cases h : s.position.mode with
  | quad4 =>
    simp only [State.decode, h, State.quadrature, hmode, hea, heb, stepOf]
    split_ifs <;> rfl
  | quad1 =>
    simp only [State.decode, h, State.quadrature, hmode, hea, heb, stepOf]
    split_ifs <;> rfl
  | step =>
    simp only [State.decode, h, State.pulseStep, hmode, hea, heb, true_and, stepOf]
    split_ifs <;> rfl
  | count =>
    simp only [State.decode, h, State.pulseStep, hmode, hea, reduceCtorEq, false_and, if_false, stepOf]
    split_ifs <;> rfl

/-- The levels after a change of one channel. -/
def Position.flipped (p : Position) : Channel → Level × Level
  | .ea => (p.ea.flip, p.eb)
  | .eb => (p.ea, p.eb.flip)

/-- R120, R121: a change of one channel gives the step of the mode's table. -/
theorem stepOf_flipped (p : Position) (c : Channel) :
    stepOf p.mode (p.ea, p.eb) (p.flipped c) = some (p.channelStep c) := by
  have htable : ∀ (m : EncoderMode) (a b : Level),
      stepOf m (a, b) (a.flip, b) = some (match m with
        | .quad4 => if a = b then .forward else .reverse
        | .quad1 => .none
        | .step => if a = .low then (if b = .low then .forward else .reverse) else .none
        | .count => if a = .low then .forward else .none) ∧
      stepOf m (a, b) (a, b.flip) = some (match m with
        | .quad4 => if a = b then .reverse else .forward
        | .quad1 => if a = .low then (if b = .high then .forward else .reverse) else .none
        | .step => .none
        | .count => .none) := by
    intro m a b
    cases m <;> cases a <;> cases b <;> decide
  cases c with
  | ea => exact (htable p.mode p.ea p.eb).1
  | eb => exact (htable p.mode p.ea p.eb).2

/-- R121, R122: a change of both channels. -/
theorem stepOf_both (m : EncoderMode) (a b : Level) : stepOf m (a, b) (a.flip, b.flip) = match m with
    | .quad4 => none
    | .quad1 => none
    | .step => some (if a = .high then .none else if b = .low then .reverse else .forward)
    | .count => some (if a = .high then .none else .forward) := by
  cases m <;> cases a <;> cases b <;> decide

/-- What a transition leaves of the Position Unit. -/
theorem stepBy_position (s : State) (d : Direction) :
    ((s.stepBy (some d)).position.bp = Pos.moved s.position.bp d ∧
      (s.stepBy (some d)).position.encoderFault = s.position.encoderFault) ∧
    (s.stepBy none).position = { s.position with encoderFault := true } := by
  refine ⟨?_, illegal_position s⟩
  cases d with
  | none => exact ⟨rfl, rfl⟩
  | forward =>
    show s.stepForward.position.bp = _ ∧ s.stepForward.position.encoderFault = _
    rw [stepForward_position]
    exact ⟨rfl, rfl⟩
  | reverse =>
    show s.stepReverse.position.bp = _ ∧ s.stepReverse.position.encoderFault = _
    rw [stepReverse_position]
    exact ⟨rfl, rfl⟩

/-- The levels and counts of the channels are those of the new reference. -/
theorem decode_channels (s : State) (new : Level × Level) :
    (s.decode new).position.ea = new.1 ∧ (s.decode new).position.eb = new.2 ∧
      (s.decode new).position.eaPin = s.position.eaPin ∧ (s.decode new).position.ebPin = s.position.ebPin ∧
      (s.decode new).position.eaRun = s.position.eaRun ∧ (s.decode new).position.ebRun = s.position.ebRun := by
  have hmoved := decode_moved s new
  rw [Position.Moved] at hmoved
  rw [hmoved]
  exact ⟨rfl, rfl, rfl, rfl, rfl, rfl⟩

/-! ### Samples of the channels (R119) -/

/-- The Position Unit while the pins show two levels, each at so many samples. -/
def Position.showing (p : Position) (a b : Level) (m n : Nat) : Position :=
  { p with eaPin := a, ebPin := b, eaRun := m, ebRun := n }

theorem showing_settled {p : Position} (h : p.settled) : p.showing p.ea p.eb 0 0 = p := by
  obtain ⟨⟩ := p
  simp only [Position.settled] at h
  obtain ⟨rfl, rfl, rfl, rfl⟩ := h
  rfl

/-- A sample of the channels, with the events it hands on and the grant at their end. -/
def State.sampled (u : State) : State :=
  u.ended u.sampleChannels.finish

theorem runChannels_succ (n : Nat) (u : State) : State.runChannels (n + 1) u = State.runChannels n u.sampled := rfl

section
variable {u : State} {p : Position} {a b : Level} {m n : Nat} (hu : u.position = p.showing a b m n)
include hu

/-- A sample that neither channel accepts. -/
theorem sampleChannels_waits {m' n' : Nat} (ha : filterSample p.ea a m = (p.ea, m'))
    (hb : filterSample p.eb b n = (p.eb, n')) : u.sampleChannels = { u with position := p.showing a b m' n' } := by
  rw [State.sampleChannels, hu]
  simp only [Position.showing, ha, hb, if_true]

/-- A sample at which a channel accepts a level. -/
theorem sampleChannels_takes {a' b' : Level} {m' n' : Nat} (ha : filterSample p.ea a m = (a', m'))
    (hb : filterSample p.eb b n = (b', n')) (hne : (a', b') ≠ (p.ea, p.eb)) :
    u.sampleChannels = State.decode { u with position := p.showing a b m' n' } (a', b') := by
  rw [State.sampleChannels, hu]
  simp only [Position.showing, ha, hb]
  exact if_neg hne

/-- A sample that neither channel accepts, with what follows it. -/
theorem sampled_waits {m' n' : Nat} (ha : filterSample p.ea a m = (p.ea, m')) (hb : filterSample p.eb b n = (p.eb, n')) :
    u.sampled.position = p.showing a b m' n' ∧ (u.quiet → u.sampled = { u with position := p.showing a b m' n' }) := by
  let w : State := { u with position := p.showing a b m' n' }
  have hsample : u.sampleChannels = w := sampleChannels_waits hu ha hb
  have hposition : w.finish.position = p.showing a b m' n' := finish_changes w .position (by decide)
  have hsampled : u.sampled = w.finish := by
    rw [State.sampled, hsample, ended_same]
    · rw [hposition, hu]
      rfl
    · rw [hposition, hu]
      rfl
  rw [hsampled]
  refine ⟨hposition, fun hq => ?_⟩
  have hquiet : w.quiet := hq
  exact finish_quiet w hquiet

end

/-! ### Channel level changes -/

/-- For how many samples a channel has shown a level that is not accepted, after `k` with one level at the pin. -/
def shownFor (level pin : Level) (k : Nat) : Nat :=
  if pin = level then 0 else k

theorem filterSample_shown (level pin : Level) {k : Nat} (h : k < 2) :
    filterSample level pin (shownFor level pin k) = (level, shownFor level pin (k + 1)) := by
  rw [filterSample, shownFor, shownFor]
  by_cases hp : pin = level
  · rw [if_pos hp, if_pos hp]
  · rw [if_neg hp, if_neg hp, if_neg hp]
    exact if_pos (Nat.succ_lt_succ h)

theorem filterSample_accepts (level pin : Level) : filterSample level pin (shownFor level pin 2) = (pin, 0) := by
  rw [shownFor]
  by_cases hp : pin = level
  · rw [if_pos hp, hp, filterSample_same]
  · rw [if_neg hp, filterSample_third hp]

theorem shownFor_zero (level pin : Level) : shownFor level pin 0 = 0 :=
  ite_self 0

/-- Up to two samples with the same pins. -/
theorem runChannels_shown {u : State} {p : Position} {a b : Level} (hu : u.position = p.showing a b 0 0) (n : Nat) :
    n ≤ 2 → ∃ v : State, (∀ k, State.runChannels (n + k) u = State.runChannels k v) ∧
      v.position = p.showing a b (shownFor p.ea a n) (shownFor p.eb b n) ∧
      (u.quiet → v = { u with position := p.showing a b (shownFor p.ea a n) (shownFor p.eb b n) }) := by
  induction n with
  | zero =>
    intro _
    rw [shownFor_zero, shownFor_zero]
    exact ⟨u, fun k => by rw [Nat.zero_add], hu, fun _ => by rw [← hu]⟩
  | succ n ih =>
    intro hn
    obtain ⟨v, hrun, hv, hquiet⟩ := ih (Nat.le_of_succ_le hn)
    obtain ⟨hposition, hsame⟩ := sampled_waits hv (filterSample_shown p.ea a hn) (filterSample_shown p.eb b hn)
    refine ⟨v.sampled, fun k => ?_, hposition, fun hq => ?_⟩
    · rw [Nat.add_right_comm, Nat.add_assoc, hrun, runChannels_succ]
    · have hu' := hquiet hq
      have hvq : v.quiet := by
        rw [hu']
        exact hq
      rw [hsame hvq, hu']

/-- The channels with their pins at a pair of levels before any sample. -/
theorem flipChannel_position {s : State} (h : s.position.settled) (c : Channel) : (s.flipChannel c).position =
    s.position.showing (s.position.flipped c).1 (s.position.flipped c).2 0 0 := by
  have hshow := showing_settled h
  obtain ⟨ha, hb, _, _⟩ := h
  cases c with
  | ea =>
    show { s.position with eaPin := s.position.eaPin.flip } = _
    rw [ha]
    exact congrArg (fun p : Position => { p with eaPin := s.position.ea.flip }) hshow.symm
  | eb =>
    show { s.position with ebPin := s.position.ebPin.flip } = _
    rw [hb]
    exact congrArg (fun p : Position => { p with ebPin := s.position.eb.flip }) hshow.symm

/-- Three samples with the same pins, at least one of which shows a level that is not the accepted one. -/
theorem runChannels_accepts {u : State} {p : Position} {a b : Level} (hu : u.position = p.showing a b 0 0)
    (hne : (a, b) ≠ (p.ea, p.eb)) : ∃ v : State, v.position = p.showing a b (shownFor p.ea a 2) (shownFor p.eb b 2) ∧
      State.runChannels 3 u = v.ended (State.decode { v with position := p.showing a b 0 0 } (a, b)).finish ∧
      (u.quiet → v = { u with position := p.showing a b (shownFor p.ea a 2) (shownFor p.eb b 2) }) := by
  obtain ⟨v, hrun, hv, hquiet⟩ := runChannels_shown hu 2 (Nat.le_refl 2)
  refine ⟨v, hv, ?_, hquiet⟩
  rw [hrun 1]
  show v.ended v.sampleChannels.finish = _
  rw [sampleChannels_takes hv (filterSample_accepts p.ea a) (filterSample_accepts p.eb b) hne]

theorem exec_channelLevelChange (s : State) (c : Channel) (n : Nat) :
    exec (.channelLevelChange { channel := c, samples := n }) s =
      .next (State.runChannels (min n 3) (s.flipChannel c)).finish := rfl

theorem flipped_ne (p : Position) (c : Channel) : p.flipped c ≠ (p.ea, p.eb) := by
  cases c with
  | ea => exact fun h => flip_ne_level p.ea (congrArg Prod.fst h).symm
  | eb => exact fun h => flip_ne_level p.eb (congrArg Prod.snd h).symm

/-- An accepted change of one channel. -/
theorem decode_accepted (v : State) (p : Position) (c : Channel) :
    let w : State := { v with position := p.showing (p.flipped c).1 (p.flipped c).2 0 0 }
    w.decode (p.flipped c) = (w.setReference (p.flipped c)).stepBy (some (p.channelStep c)) := by
  intro w
  rw [decode_eq]
  exact congrArg _ (stepOf_flipped p c)

theorem ne_flip {v w : Level} (h : w = v.flip) : w ≠ v := by
  rw [h]
  exact fun he => flip_ne_level v he.symm

theorem flip_flip (v : Level) : v.flip.flip = v := by
  cases v <;> rfl

theorem flipChannel_quiet {s : State} (h : s.quiet) (c : Channel) : (s.flipChannel c).quiet := by
  cases c <;> exact h

/-- An accepted change that gives no step. -/
theorem unstepped_ends {s v : State} (hq : s.quiet) (c : Channel) {m n : Nat}
    (hv : v = { s.flipChannel c with
      position := s.position.showing (s.position.flipped c).1 (s.position.flipped c).2 m n })
    {w : State} (hw : w = State.setReference { v with
      position := s.position.showing (s.position.flipped c).1 (s.position.flipped c).2 0 0 } (s.position.flipped c)) :
    OnlyChanges [.position, .lanes] s (v.ended w.finish).finish ∧
      ∀ l : LaneId, (v.ended w.finish).finish.lanes[l] = s.lanes[l].stepEnded := by
  have hchanges : OnlyChanges [.position] s w := by
    rw [hw, hv]
    exact (flipChannel_changes s c).trans ((position_changes _ _).trans ((position_changes _ _).trans
      (setReference_changes _ _)))
  have hwq : w.quiet := by
    rw [hw, hv]
    exact flipChannel_quiet hq c
  have hended : v.ended w = w.stepEnded := by
    refine if_neg fun ⟨ha, hb⟩ => flipped_ne s.position c ?_
    rw [hw, hv] at ha hb
    exact Prod.ext ha hb
  have hendq : w.stepEnded.quiet := hwq
  rw [finish_quiet w hwq, hended, finish_quiet _ hendq]
  refine ⟨(hchanges.mono (by decide)).trans ((stepEnded_changes w).mono (by decide)), fun l => ?_⟩
  have hlanes : w.lanes = s.lanes := hchanges .lanes (by decide)
  rw [stepEnded_lane, hlanes]

/-- A channel that shows a level at a few samples. -/
theorem shown_channel {p : Position} (h : p.settled) (c : Channel) (n : Nat) :
    p.showing (p.flipped c).1 (p.flipped c).2 (shownFor p.ea (p.flipped c).1 n) (shownFor p.eb (p.flipped c).2 n) =
      match c with
      | .ea => { p with eaPin := p.ea.flip, eaRun := n }
      | .eb => { p with ebPin := p.eb.flip, ebRun := n } := by
  have hshow := showing_settled h
  cases c with
  | ea =>
    have hm : shownFor p.ea p.ea.flip n = n := if_neg (ne_flip rfl)
    have hn : shownFor p.eb p.eb n = 0 := if_pos rfl
    show p.showing p.ea.flip p.eb (shownFor p.ea p.ea.flip n) (shownFor p.eb p.eb n) = _
    rw [hm, hn]
    exact congrArg (fun q : Position => { q with eaPin := p.ea.flip, eaRun := n }) hshow
  | eb =>
    have hm : shownFor p.ea p.ea n = 0 := if_pos rfl
    have hn : shownFor p.eb p.eb.flip n = n := if_neg (ne_flip rfl)
    show p.showing p.ea p.eb.flip (shownFor p.ea p.ea n) (shownFor p.eb p.eb.flip n) = _
    rw [hm, hn]
    exact congrArg (fun q : Position => { q with ebPin := p.eb.flip, ebRun := n }) hshow

/-- The pin of the channel shows the accepted level again. -/
theorem flipChannel_back {v : State} {p : Position} {c : Channel} {m n : Nat}
    (hv : v.position = p.showing (p.flipped c).1 (p.flipped c).2 m n) :
    (v.flipChannel c).position = p.showing p.ea p.eb m n := by
  cases c with
  | ea =>
    show { v.position with eaPin := v.position.eaPin.flip } = _
    rw [hv]
    exact congrArg (fun x => p.showing x p.eb m n) (flip_flip p.ea)
  | eb =>
    show { v.position with ebPin := v.position.ebPin.flip } = _
    rw [hv]
    exact congrArg (fun x => p.showing p.ea x m n) (flip_flip p.eb)

/-- Settles O28: the rows of the channels, by what the third sample in a row accepts. -/
theorem channelsAreDecoded : Obligations.ChannelsAreDecoded := by
  refine ⟨fun s => ?_, fun s c n hs hn => ?_, fun s c n m hq hs hn hm => ?_, fun s hq hs hmode => ?_⟩
  · let levels := (s.position.ea.flip, s.position.eb.flip)
    let x := (s.setPins levels).decode levels
    have hposition : x.finish.stepEnded.position = x.position := stepEnds_position x
    obtain ⟨hea, heb, hpa, hpb, hra, hrb⟩ := decode_channels (s.setPins levels) levels
    have hstep : x = ((s.setPins levels).setReference levels).stepBy
        (stepOf s.position.mode (s.position.ea, s.position.eb) levels) := decode_eq _ _
    rw [stepOf_both] at hstep
    refine ⟨x.finish.stepEnded, rfl, ?_⟩
    rw [hposition]
    refine ⟨hea, heb, ⟨hpa.trans hea.symm, hpb.trans heb.symm, hra, hrb⟩, fun hmode => ?_, fun hmode => ?_, fun hmode => ?_⟩
    · have hillegal : x = ((s.setPins levels).setReference levels).stepBy none := by
        rw [hstep]
        obtain h | h := hmode <;> rw [h]
      rw [hillegal, (stepBy_position _ .none).2]
      rfl
    · rw [hmode] at hstep
      obtain ⟨⟨hbp, hfault⟩, _⟩ := stepBy_position ((s.setPins levels).setReference levels)
        (if s.position.ea = .high then .none else if s.position.eb = .low then .reverse else .forward)
      rw [hstep]
      refine ⟨hfault, hbp.trans ?_⟩
      split
      · rfl
      · split <;> rfl
    · rw [hmode] at hstep
      obtain ⟨⟨hbp, hfault⟩, _⟩ := stepBy_position ((s.setPins levels).setReference levels)
        (if s.position.ea = .high then .none else .forward)
      rw [hstep]
      refine ⟨hfault, hbp.trans ?_⟩
      split <;> rfl
  · let p := s.position
    obtain ⟨v, hv, hrun, hquiet⟩ := runChannels_accepts (flipChannel_position hs c) (flipped_ne p c)
    let w : State := { v with position := p.showing (p.flipped c).1 (p.flipped c).2 0 0 }
    have hdecode : w.decode (p.flipped c) = (w.setReference (p.flipped c)).stepBy (some (p.channelStep c)) :=
      decode_accepted v p c
    let t := (State.runChannels 3 (s.flipChannel c)).finish
    have hexec : exec (.channelLevelChange { channel := c, samples := n }) s = .next t := by
      rw [exec_channelLevelChange, Nat.min_eq_right hn]
    have hposition : t.position = (w.decode (p.flipped c)).position := by
      show (State.runChannels 3 (s.flipChannel c)).finish.position = _
      rw [finish_changes _ .position (by decide), hrun, ended_changes _ _ .position (by decide)]
      exact finish_changes _ .position (by decide)
    obtain ⟨hea, heb, hpa, hpb, hra, hrb⟩ := decode_channels w (p.flipped c)
    obtain ⟨⟨hbp, hfault⟩, _⟩ := stepBy_position (w.setReference (p.flipped c)) (p.channelStep c)
    refine ⟨t, hexec, ?_⟩
    rw [hposition]
    refine ⟨?_, ?_, ⟨hpa.trans hea.symm, hpb.trans heb.symm, hra, hrb⟩, ?_, fun hq hnone => ?_⟩
    · rw [hdecode]
      exact hbp
    · rw [hdecode]
      exact hfault
    · rw [hea, heb]
      cases c <;> rfl
    · have hstep : (w.decode (p.flipped c)) = w.setReference (p.flipped c) := by
        rw [hdecode, hnone]
        rfl
      have hends := unstepped_ends hq c (hquiet (flipChannel_quiet hq c)) (w := w.decode (p.flipped c)) hstep
      rwa [← hrun] at hends
  · have hp := flipChannel_position hs c
    obtain ⟨v, hrun, hv, hquiet⟩ := runChannels_shown hp n (by omega)
    have hv' := hquiet (flipChannel_quiet hq c)
    have hvq : v.quiet := by
      rw [hv']
      exact flipChannel_quiet hq c
    have hvs : OnlyChanges [.position] s v := by
      rw [hv']
      exact (flipChannel_changes s c).trans (position_changes _ _)
    refine ⟨v, ?_, hvs, ?_, ?_⟩
    · rw [exec_channelLevelChange, Nat.min_eq_left (by omega), ← Nat.add_zero n, hrun 0]
      exact congrArg Host.Outcome.next (finish_quiet v hvq)
    · rw [hv]
      exact shown_channel hs c n
    · obtain ⟨k, hk⟩ : ∃ k, min m 3 = k + 1 := ⟨min m 3 - 1, by omega⟩
      have hback := flipChannel_back hv
      have hbackq : (v.flipChannel c).quiet := flipChannel_quiet hvq c
      obtain ⟨_, hsame⟩ := sampled_waits hback (filterSample_same _ _) (filterSample_same _ _)
      have hrestored : (v.flipChannel c).sampled = s := by
        rw [hsame hbackq, showing_settled hs, hv']
        cases c <;> rfl
      rw [exec_channelLevelChange, hk, runChannels_succ, hrestored, runChannels_settled k hs hq, finish_quiet s hq]
  · have hfirst : exec (.channelLevelChange { channel := .ea, samples := 0 }) s = .next (s.flipChannel .ea) :=
      congrArg Host.Outcome.next (finish_quiet _ (flipChannel_quiet hq .ea))
    let levels := (s.position.ea.flip, s.position.eb.flip)
    have hboth : ((s.flipChannel .ea).flipChannel .eb).position = s.position.showing levels.1 levels.2 0 0 := by
      have hshow := showing_settled hs
      obtain ⟨ha, hb, _, _⟩ := hs
      show { s.position with eaPin := s.position.eaPin.flip, ebPin := s.position.ebPin.flip } = _
      rw [ha, hb]
      exact congrArg (fun p : Position => { p with eaPin := levels.1, ebPin := levels.2 }) hshow.symm
    obtain ⟨v, hv, hrun, _⟩ := runChannels_accepts hboth fun h => flip_ne_level s.position.ea (congrArg Prod.fst h).symm
    let w : State := { v with position := s.position.showing levels.1 levels.2 0 0 }
    have hdecode : w.decode levels = (w.setReference levels).stepBy none := by
      have hstep : w.decode levels = (w.setReference levels).stepBy
          (stepOf s.position.mode (s.position.ea, s.position.eb) levels) := decode_eq w levels
      rw [stepOf_both] at hstep
      obtain h | h := hmode <;> rw [h] at hstep <;> exact hstep
    let u := (State.runChannels 3 ((s.flipChannel .ea).flipChannel .eb)).finish
    have hposition : u.position = { (w.setReference levels).position with encoderFault := true } := by
      show (State.runChannels 3 ((s.flipChannel .ea).flipChannel .eb)).finish.position = _
      rw [finish_changes _ .position (by decide), hrun, ended_changes _ _ .position (by decide),
        finish_changes _ .position (by decide)]
      exact (congrArg State.position hdecode).trans (stepBy_position _ .none).2
    refine ⟨s.flipChannel .ea, u, hfirst, rfl, ?_, ?_⟩
    · rw [hposition]
    · rw [hposition]
      rfl

end Sys2Proof.Machine
end

section
/-! SUPPORT. The pins and the requests of the Output Driver (R70 to R78, R82). -/

namespace Sys2Proof.Machine

/-! ### The level of a pin (R70, R71) -/

/-- R71: what makes a pin active, by the output's role. -/
def State.Drives (s : State) (o : OutputId) : Prop :=
  (s.outputs[o].role = .actuator ∧ s.outputs[o].holders ≠ []) ∨
  (s.outputs[o].role = .general ∧ (s.outputs[o].latch = true ∨ s.outputs[o].pulse ≠ none) ∧ s.inhibit = false) ∨
  (s.outputs[o].role = .hold ∧ ∃ l : LaneId, s.outputs[o].lane = natByte l ∧ s.holdCondition l = true)

theorem pinActive_actuator {s : State} {o : OutputId} (h : s.outputs[o].role = .actuator) :
    s.pinActive o = !s.outputs[o].holders.isEmpty := by
  rw [State.pinActive, h]

theorem pinActive_general {s : State} {o : OutputId} (h : s.outputs[o].role = .general) :
    s.pinActive o = ((s.outputs[o].latch || s.outputs[o].pulse.isSome) && !s.inhibit) := by
  rw [State.pinActive, h]

theorem pinActive_hold {s : State} {o : OutputId} (h : s.outputs[o].role = .hold) :
    s.pinActive o = true ↔ ∃ l : LaneId, s.outputs[o].lane = natByte l ∧ s.holdCondition l = true := by
  rw [State.pinActive, h]
  dsimp only
  cases hl : finOf 4 s.outputs[o].lane with
  | none =>
    refine ⟨fun hf => absurd hf Bool.false_ne_true, fun ⟨l, hlane, _⟩ => ?_⟩
    rw [(finOf_some_iff (by decide) _ l).mpr hlane] at hl
    cases hl
  | some l =>
    have hlane := (finOf_some_iff (by decide) _ l).mp hl
    refine ⟨fun hcondition => ⟨l, hlane, hcondition⟩, fun ⟨m, hm, hcondition⟩ => ?_⟩
    rw [(finOf_some_iff (by decide) _ m).mpr hm] at hl
    cases hl
    exact hcondition

theorem pinActive_iff (s : State) (o : OutputId) : s.pinActive o = true ↔ s.Drives o := by
  rw [State.Drives]
  cases h : s.outputs[o].role with
  | unused =>
    have hoff : s.pinActive o = false := by rw [State.pinActive, h]
    rw [hoff]
    simp
  | actuator => rw [pinActive_actuator h]; simp
  | general => rw [pinActive_general h]; simp [Option.isSome_iff_ne_none]
  | hold => rw [pinActive_hold h]; simp

theorem pinLevel_high (s : State) (o : OutputId) : s.pinLevel o = .high ↔
    (s.outputs[o].polarity = .activeHigh ∧ s.Drives o) ∨ (s.outputs[o].polarity = .activeLow ∧ ¬ s.Drives o) := by
  rw [← pinActive_iff, State.pinLevel]
  cases s.outputs[o].polarity <;> cases s.pinActive o <;> simp

/-- Settles O29: the level of the pin, with the hold condition by the states of its lane. -/
theorem pinFollowsItsRole : Obligations.PinFollowsItsRole := by
  intro s o x active
  have hactive : s.Drives o ↔ active := by
    simp only [State.Drives, holdCondition_eq, decide_eq_true_eq]
    rfl
  rw [pinLevel_high, hactive]

/-! ### SET_OUTPUT (R82) -/

theorem outputRoleOf_code (r : OutputRole) : outputRoleOf r.code = some r := by
  cases r <;> rfl

theorem outputRoleOf_none {b : Byte} (h : 3 < b.toNat) : outputRoleOf b = none := by
  revert b
  decide

theorem outputRoleOf_hold {b : Byte} {r : OutputRole} (h : outputRoleOf b = some r) (hr : b = 3) : r = .hold := by
  subst hr
  exact (Option.some.inj h).symm

theorem polarityOf_code (p : Polarity) : polarityOf p.code = some p := by
  cases p <;> rfl

theorem polarityOf_none {b : Byte} (h : 1 < b.toNat) : polarityOf b = none := by
  revert b
  decide

theorem holdOutputInUse_iff (s : State) (o : OutputId) : s.holdOutputInUse o = true ↔
    ∃ l : LaneId, s.lanes[l].state ≠ .off ∧ s.lanes[l].config.holdOutput = some o := by
  simp [State.holdOutputInUse, mem_allLanes, Lane.live]

/-- R82: the output is in use. -/
def State.outputBusy (s : State) (o : OutputId) : Prop :=
  s.stationOfLive o ∨ (∃ l : LaneId, s.lanes[l].state ≠ .off ∧ s.lanes[l].config.holdOutput = some o) ∨
    s.outputs[o].holders ≠ []

theorem outputBusy_iff (s : State) (o : OutputId) :
    (s.stationInUse o || s.holdOutputInUse o || !s.outputs[o].holders.isEmpty) = true ↔ s.outputBusy o := by
  simp only [State.outputBusy, Bool.or_eq_true, stationInUse_iff, holdOutputInUse_iff, or_assoc]
  simp

/-- R82: SET_OUTPUT on an output, with codes that name a role and a polarity. -/
theorem reqSetOutput_coded (s : State) (o : OutputId) (r : OutputRole) (p : Polarity) (lane : Byte) :
    s.reqSetOutput (natByte o) r.code p.code lane =
      if r = .hold ∧ 3 < lane.toNat then s.refuse .badValue
      else if s.stationInUse o || s.holdOutputInUse o || !s.outputs[o].holders.isEmpty then s.refuse .inUse
      else ([Status.ok.code], s.mapOutput o (fun _ =>
        { role := r, polarity := p, lane := lane, holders := [], latch := false, pulse := none })) := by
  rw [State.reqSetOutput, named_natByte s o (by decide), outputRoleOf_code, polarityOf_code]

/-- R82: SET_OUTPUT with a value that names nothing. -/
theorem reqSetOutput_bad (s : State) {output role polarity lane : Byte}
    (h : 15 < output.toNat ∨ 3 < role.toNat ∨ 1 < polarity.toNat ∨ (role = 3 ∧ 3 < lane.toNat)) :
    s.reqSetOutput output role polarity lane = s.refuse .badValue := by
  rw [State.reqSetOutput, State.named]
  cases ho : finOf 16 output with
  | none => rfl
  | some o =>
    have hout : ¬ 15 < output.toNat := fun hbad => by rw [finOf_none (by omega)] at ho; cases ho
    cases hr : outputRoleOf role with
    | none => simp only
    | some r =>
      cases hp : polarityOf polarity with
      | none => simp only
      | some p =>
        simp only
        obtain hbad | hbad | hbad | ⟨hhold, hlane⟩ := h
        · exact absurd hbad hout
        · rw [outputRoleOf_none hbad] at hr; cases hr
        · rw [polarityOf_none hbad] at hp; cases hp
        · exact if_pos ⟨outputRoleOf_hold hr hhold, hlane⟩

/-- Settles O30: the checks of SET_OUTPUT, and the row it writes. -/
theorem setOutputWritesAndClears : Obligations.SetOutputWritesAndClears := by
  refine fun s seq output role polarity lane hs => ⟨fun hbad => ?_, ?_⟩
  · exact request_refused s 0x18 seq _ .badValue hs ((dispatch_setOutput _ _ _ _ _).trans (reqSetOutput_bad _ hbad)) rfl
  · rintro o r p rfl rfl rfl hlane
    have hreq := (dispatch_setOutput s.received (natByte o) r.code p.code lane).trans
      ((reqSetOutput_coded s.received o r p lane).trans
        (if_neg fun ⟨hhold, hbad⟩ => absurd (hlane hhold) (Nat.not_le.mpr hbad)))
    refine ⟨fun hbusy => ?_, fun hstation hhold hholders => ?_⟩
    · exact request_refused s 0x18 seq _ .inUse hs (hreq.trans (if_pos ((outputBusy_iff s o).mpr hbusy))) rfl
    · intro x
      have hfree : ¬ s.outputBusy o := by
        rintro (h | ⟨l, hl, h⟩ | h)
        · exact hstation h
        · exact hhold l hl h
        · exact h hholders
      have ⟨_, _, _, hagenda⟩ := hs
      exact request_writes s { s with outputs := tset s.outputs o x } 0x18 seq _ [0] hs
        (hreq.trans (if_neg fun h => hfree ((outputBusy_iff s o).mp h))) hagenda rfl rfl

end Sys2Proof.Machine
end

section
/-! SUPPORT. FORCE_OUTPUT (R75 to R78). -/

namespace Sys2Proof.Machine

/-! ### The checks in order (R75) -/

theorem level_cases {b : Byte} (h : b.toNat ≤ 1) : b = 0 ∨ b = 1 := by
  revert b
  decide

theorem levelOf_none {b : Byte} (h : 1 < b.toNat) : levelOf b = none := by
  revert b
  decide

/-- R75: a value that names nothing, or a pulse with level INACTIVE. -/
theorem reqForceOutput_bad (s : State) {output level : Byte} {pulse : Half}
    (h : 15 < output.toNat ∨ 1 < level.toNat ∨ (level = 0 ∧ pulse ≠ 0)) :
    s.reqForceOutput output level pulse = s.refuse .badValue := by
  rw [State.reqForceOutput, State.named]
  cases ho : finOf 16 output with
  | none => rfl
  | some o =>
    have hout : ¬ 15 < output.toNat := fun hbad => by rw [finOf_none (by omega)] at ho; cases ho
    obtain hbad | hbad | ⟨rfl, hpulse⟩ := h
    · exact absurd hbad hout
    · simp only [levelOf_none hbad]
    · exact if_pos ⟨rfl, hpulse⟩

/-- R75 to R77: FORCE_OUTPUT whose values are in range, by the role of the output. -/
def State.forceByRole (s : State) (o : OutputId) (active : Bool) (pulse : Half) : OutputRole → Answer
  | .unused => s.refuse .wrongState
  | .hold => s.refuse .wrongState
  | .actuator => s.forceActuator o active pulse
  | .general => s.forceGeneral o active pulse

theorem reqForceOutput_inRange (s : State) (o : OutputId) {level : Byte} {pulse : Half} (hlevel : level.toNat ≤ 1)
    (hpulse : level = 0 → pulse = 0) : s.reqForceOutput (natByte o) level pulse =
      s.forceByRole o (decide (level = 1)) pulse s.outputs[o].role := by
  rw [State.reqForceOutput, named_natByte s o (by decide)]
  obtain rfl | rfl := level_cases hlevel
  · refine (if_neg fun ⟨_, hbad⟩ => hbad (hpulse rfl)).trans ?_
    cases s.outputs[o].role <;> rfl
  · refine (if_neg fun ⟨hbad, _⟩ => by cases hbad).trans ?_
    cases s.outputs[o].role <;> rfl

/-! ### The reply (R72, R75) -/

theorem testHold_eq (x : Output) : x.testHold = decide (.test ∈ x.holders) := by
  rw [Output.testHold, List.contains_eq_mem]

/-- R75: the reply, of the output as the request leaves it. -/
theorem forceReply_eq (s : State) (o : OutputId) : s.forceReply o = ([(0 : Byte), s.outputs[o].role.code,
    flagByte [s.pinActive o, decide (.test ∈ s.outputs[o].holders), s.outputs[o].latch],
    natByte s.outputs[o].holders.length] ++ natHalf (s.outputs[o].remainingMs s.position.ts), s) := by
  rw [State.forceReply, testHold_eq]
  rfl

/-- The state with row `o` of the output table replaced. -/
def State.setOutput (s : State) (o : OutputId) (x : Output) : State :=
  { s with outputs := tset s.outputs o x }

theorem setOutput_self (s : State) (o : OutputId) : s.setOutput o s.outputs[o] = s := by
  rw [State.setOutput, tset_same]

theorem setOutput_get (s : State) (o : OutputId) (x : Output) : (s.setOutput o x).outputs[o] = x :=
  tset_get_self _ _ _

/-- R75: the reply after an output was written, with its pin's level. -/
theorem forceReply_setOutput (s : State) (o : OutputId) (x : Output) : (s.setOutput o x).forceReply o =
    ([(0 : Byte), x.role.code, flagByte [(s.setOutput o x).pinActive o, decide (.test ∈ x.holders), x.latch],
      natByte x.holders.length] ++ natHalf (x.remainingMs s.position.ts), s.setOutput o x) := by
  rw [forceReply_eq, setOutput_get]
  rfl

theorem pinActive_setActuator (s : State) (o : OutputId) {x : Output} (h : x.role = .actuator) :
    (s.setOutput o x).pinActive o = !x.holders.isEmpty := by
  rw [pinActive_actuator (by rw [setOutput_get]; exact h), setOutput_get]

theorem pinActive_setGeneral (s : State) (o : OutputId) {x : Output} (h : x.role = .general) :
    (s.setOutput o x).pinActive o = ((x.latch || x.pulse.isSome) && !s.inhibit) := by
  rw [pinActive_general (by rw [setOutput_get]; exact h), setOutput_get]
  rfl

/-- R78: a pulse started now has its whole width left. -/
theorem remaining_of_start (ts : Pos) (pulse : Half) :
    ((ts + BitVec.ofNat 32 (pulse.toNat * 1000) - ts).toInt.toNat + 999) / 1000 = pulse.toNat := by
  have hpulse := pulse.isLt
  have hwidth : ts + BitVec.ofNat 32 (pulse.toNat * 1000) - ts = BitVec.ofNat 32 (pulse.toNat * 1000) := by
    rw [add_comm, add_sub_cancel_right]
  have hval : (BitVec.ofNat 32 (pulse.toNat * 1000)).toNat = pulse.toNat * 1000 := by
    rw [BitVec.toNat_ofNat]
    exact Nat.mod_eq_of_lt (by omega)
  rw [hwidth, BitVec.toInt_eq_toNat_of_lt (by rw [hval]; omega), hval]
  omega

/-! ### On an ACTUATOR output (R76) -/

/-- R76: the hold set after FORCE_OUTPUT. -/
def Output.forced (x : Output) (active : Bool) : List Holder :=
  if active = false then x.holders.erase .test else if .test ∈ x.holders then x.holders else x.holders ++ [.test]

/-- R76: FORCE_OUTPUT on an ACTUATOR output that passes the checks. -/
theorem forceActuator_takes (s : State) (o : OutputId) (active : Bool) (hstation : s.stationInUse o = false)
    (hinhibit : s.inhibit = false)
    (hroom : active = false ∨ .test ∈ s.outputs[o].holders ∨ s.outputs[o].holders.length < 4) :
    s.forceActuator o active 0 =
      (s.setOutput o { s.outputs[o] with holders := s.outputs[o].forced active }).forceReply o := by
  rw [State.forceActuator, if_neg (not_not_intro rfl), if_neg (Bool.eq_false_iff.mp hstation),
    if_neg (Bool.eq_false_iff.mp hinhibit), testHold_eq]
  cases active with
  | false => rfl
  | true =>
    by_cases htest : .test ∈ s.outputs[o].holders
    · rw [if_neg (by rw [decide_eq_true htest]; exact Bool.false_ne_true), if_pos rfl, if_pos (decide_eq_true htest), Output.forced, if_neg (by decide),
        if_pos htest]
      exact congrArg (State.forceReply · o) (setOutput_self s o).symm
    · have hfree : s.outputs[o].hasRoom = true := by
        obtain hf | hin | hlt := hroom
        · cases hf
        · exact absurd hin htest
        · exact decide_eq_true hlt
      rw [if_neg (by rw [hfree]; simp), if_pos rfl, if_neg (by rw [decide_eq_false htest]; exact Bool.false_ne_true), Output.forced, if_neg (by decide),
        if_neg htest]
      rfl

theorem forceActuator_full (s : State) (o : OutputId) (hstation : s.stationInUse o = false)
    (hinhibit : s.inhibit = false) (htest : .test ∉ s.outputs[o].holders) (hfull : 4 ≤ s.outputs[o].holders.length) :
    s.forceActuator o true 0 = s.refuse .inUse := by
  have hroom : s.outputs[o].hasRoom = false := decide_eq_false (Nat.not_lt.mpr hfull)
  rw [State.forceActuator, if_neg (not_not_intro rfl), if_neg (Bool.eq_false_iff.mp hstation),
    if_neg (Bool.eq_false_iff.mp hinhibit), testHold_eq, if_pos (by rw [decide_eq_false htest, hroom]; rfl)]

theorem natHalf_zero : natHalf 0 = [0, 0] := by
  decide

theorem remainingMs_none {x : Output} (h : x.pulse = none) (ts : Pos) : x.remainingMs ts = 0 := by
  rw [Output.remainingMs, h]

theorem remainingMs_some {x : Output} {p : Pos} (h : x.pulse = some p) (ts : Pos) :
    x.remainingMs ts = ((p - ts).toInt.toNat + 999) / 1000 := by
  rw [Output.remainingMs, h]

/-- R75: the reply on an ACTUATOR output, which runs no pulse. -/
theorem forceReply_actuator (s : State) (o : OutputId) {x : Output} (h : x.role = .actuator) (hp : x.pulse = none) :
    (s.setOutput o x).forceReply o = ([(0 : Byte), 1, flagByte [decide (x.holders ≠ []), decide (.test ∈ x.holders),
      x.latch], natByte x.holders.length, 0, 0], s.setOutput o x) := by
  have hholds : (!x.holders.isEmpty) = decide (x.holders ≠ []) := by
    cases x.holders <;> rfl
  rw [forceReply_setOutput, pinActive_setActuator s o h, h, hholds, remainingMs_none hp, natHalf_zero]
  rfl

/-! ### On a GENERAL output (R77, R78) -/

/-- R77: the bytes after the state of a GENERAL output, with the pulse time that remains. -/
theorem forceReply_general (s : State) (o : OutputId) {x : Output} (h : x.role = .general) {n : Nat}
    (hn : x.remainingMs s.position.ts = n) : (s.setOutput o x).forceReply o =
      ([(0 : Byte), 2, flagByte [(x.latch || x.pulse.isSome) && !s.inhibit, decide (.test ∈ x.holders), x.latch],
        natByte x.holders.length] ++ natHalf n, s.setOutput o x) := by
  rw [forceReply_setOutput, pinActive_setGeneral s o h, h, hn]
  rfl

theorem takes_of_setOutput {s : State} {kind seq : Byte} {p payload : List Byte} {o : OutputId} {x : Output}
    (hs : s.takesNow kind seq) (hd : s.received.dispatch kind p = (payload, s.received.setOutput o x))
    (hk : (kind = 0x02 && p.isEmpty) = false) :
    s.request kind seq p = .next ((s.setOutput o x).answers kind seq payload) := by
  have ⟨_, _, _, hagenda⟩ := hs
  exact request_writes s (s.setOutput o x) kind seq p payload hs hd hagenda rfl hk

/-- Settles O31: the checks in order, and the reply of each case that is taken. -/
theorem forceOutputHoldsAndDrives : Obligations.ForceOutputHoldsAndDrives := by
  refine ⟨fun s seq output level pulse hs => ⟨fun hbad => ?_, ?_⟩, ?_⟩
  · exact request_refused s 0x19 seq _ .badValue hs ((dispatch_forceOutput _ _ _ _).trans (reqForceOutput_bad _ hbad)) rfl
  · rintro o rfl hlevel hpulse x
    have hreq := (dispatch_forceOutput s.received (natByte o) level pulse).trans
      (reqForceOutput_inRange s.received o hlevel hpulse)
    have hrole {r : OutputRole} (h : x.role = r) : s.received.dispatch 0x19 ([natByte o, level] ++ halfBytes pulse) =
        s.received.forceByRole o (decide (level = 1)) pulse r := hreq.trans (congrArg _ h)
    refine ⟨fun hr => ?_, fun hr hp => ?_, fun hr hp hst => ?_, fun hr hp hst hinh => ?_,
      fun hr hp hst hinh hl htest hfull => ?_, fun hr hnone hp hst hinh hroom => ?_⟩
    · refine request_refused s 0x19 seq _ .wrongState hs ?_ rfl
      obtain hr | hr := hr
      · exact hrole hr
      · exact hrole hr
    · exact request_refused s 0x19 seq _ .badValue hs ((hrole hr).trans (if_pos hp)) rfl
    · exact request_refused s 0x19 seq _ .inUse hs ((hrole hr).trans ((if_neg (not_not_intro hp)).trans
        (if_pos ((stationInUse_iff s o).mpr hst)))) rfl
    · exact request_refused s 0x19 seq _ .wrongState hs ((hrole hr).trans ((if_neg (not_not_intro hp)).trans
        ((if_neg fun h => hst ((stationInUse_iff s o).mp h)).trans (if_pos hinh)))) rfl
    · subst hl hp
      have hstation : s.stationInUse o = false := Bool.eq_false_iff.mpr fun h => hst ((stationInUse_iff s o).mp h)
      exact request_refused s 0x19 seq _ .inUse hs
        ((hrole hr).trans (forceActuator_full s.received o hstation hinh htest hfull)) rfl
    · intro holders u
      subst hp
      have hstation : s.stationInUse o = false := Bool.eq_false_iff.mpr fun h => hst ((stationInUse_iff s o).mp h)
      have hforced : x.forced (decide (level = 1)) = holders := by
        rw [Output.forced]
        obtain rfl | rfl := level_cases hlevel
        · rfl
        · rfl
      have hfree : decide (level = 1) = false ∨ .test ∈ x.holders ∨ x.holders.length < 4 :=
        hroom.imp_left fun h => by rw [h]; rfl
      have hd := (hrole hr).trans (forceActuator_takes s.received o _ hstation hinh hfree)
      have hput : s.received.setOutput o { x with holders := x.forced (decide (level = 1)) } =
          s.received.setOutput o { x with holders := holders } := by rw [hforced]
      exact takes_of_setOutput hs (hd.trans ((congrArg (State.forceReply · o) hput).trans
        (forceReply_actuator s.received o (x := { x with holders := holders }) hr hnone))) rfl
  · rintro s seq output pulse o hs rfl hr x put
    have hreq {level : Byte} {w : Half} (hlevel : level.toNat ≤ 1) (hw : level = 0 → w = 0) :
        s.received.dispatch 0x19 ([natByte o, level] ++ halfBytes w) =
          s.received.forceGeneral o (decide (level = 1)) w :=
      (dispatch_forceOutput s.received (natByte o) level w).trans
        ((reqForceOutput_inRange s.received o hlevel hw).trans
          (congrArg (s.received.forceByRole o (decide (level = 1)) w) hr))
    refine ⟨?_, ?_, fun hp hinh => ?_, fun hp hinh => ?_⟩
    · have hd := (hreq (w := 0) (level := 0) (by decide) fun _ => rfl).trans
        (forceReply_general s.received o (x := { x with latch := false, pulse := none }) hr (remainingMs_none rfl _))
      rw [natHalf_zero] at hd
      exact takes_of_setOutput hs hd rfl
    · have hd := (hreq (w := 0) (level := 1) (by decide) fun _ => rfl).trans
        (forceReply_general s.received o (x := { x with latch := true }) hr rfl)
      exact takes_of_setOutput hs hd rfl
    · exact request_refused s 0x19 seq _ .wrongState hs ((hreq (by decide) fun h => absurd h (by decide)).trans
        ((if_neg (by decide)).trans ((if_neg hp).trans (if_pos hinh)))) rfl
    · let y : Output := { x with pulse := some (s.position.ts + BitVec.ofNat 32 (pulse.toNat * 1000)) }
      have hremains : y.remainingMs s.position.ts = pulse.toNat :=
        (remainingMs_some rfl _).trans (remaining_of_start s.position.ts pulse)
      have hactive : ((y.latch || y.pulse.isSome) && !s.inhibit) = true := by
        rw [hinh]
        exact congrArg (· && true) (Bool.or_true _)
      have hd : s.received.dispatch 0x19 ([natByte o, 1] ++ halfBytes pulse) = (s.received.setOutput o y).forceReply o :=
        (hreq (by decide) fun h => absurd h (by decide)).trans ((if_neg (by decide)).trans ((if_neg hp).trans
          (if_neg (Bool.eq_false_iff.mp hinh))))
      rw [forceReply_general s.received o (x := y) hr hremains, received_inhibit, hactive, natHalf,
        BitVec.ofNat_toNat, BitVec.setWidth_eq] at hd
      exact takes_of_setOutput hs hd rfl

end Sys2Proof.Machine
end

section
/-! SUPPORT. The ends that come with a tick: OFF times and pulse ends (R60, R66, R78, R131). -/

namespace Sys2Proof.Machine

/-! ### The end of an entry (R59, R60, R62, R66) -/

/-- The member of a list that a search reaches, when it is the only one to be found. -/
theorem find_of_unique {α : Type} {p : α → Bool} {x : α} {xs : List α} (hx : x ∈ xs) (hp : p x = true)
    (honly : ∀ y ∈ xs, p y = true → y = x) : xs.find? p = some x := by
  cases hfind : xs.find? p with
  | none => exact absurd hp (List.find?_eq_none.mp hfind x hx)
  | some y => rw [honly y (List.mem_of_find?_eq_some hfind) (List.find?_some hfind)]

theorem find_serial {e : ScheduleEntry} {xs : List ScheduleEntry} (he : e ∈ xs)
    (honly : ∀ x ∈ xs, x.serial = e.serial → x = e) : xs.find? (fun x => x.serial = e.serial) = some e :=
  find_of_unique he (decide_eq_true rfl) fun x hx h => honly x hx (of_decide_eq_true h)

theorem isOn_of_counts {e : ScheduleEntry} {off : Pos} (h : e.phase = .onCounts off) : e.isOn = true := by
  rw [ScheduleEntry.isOn, h]

theorem isOn_of_time {e : ScheduleEntry} {off : Pos} (h : e.phase = .onTime off) : e.isOn = true := by
  rw [ScheduleEntry.isOn, h]

theorem isOn_of_waiting {e : ScheduleEntry} (h : e.phase = .waiting) : e.isOn = false := by
  rw [ScheduleEntry.isOn, h]

theorem filing_of_counts {e : ScheduleEntry} {off : Pos} (h : e.phase = .onCounts off) : e.filing = off := by
  rw [ScheduleEntry.filing, h]

theorem filing_of_time {e : ScheduleEntry} {off : Pos} (h : e.phase = .onTime off) : e.filing = off := by
  rw [ScheduleEntry.filing, h]

theorem filing_of_waiting {e : ScheduleEntry} (h : e.phase = .waiting) : e.filing = e.onPos := by
  rw [ScheduleEntry.filing, h]

theorem endEntry_on {e : ScheduleEntry} (h : e.isOn = true) (s : State) (r : FiringResult) :
    s.endEntry e r = s.entryEnded e r := by
  rw [State.endEntry, State.releaseEntry, if_pos h]
  rfl

theorem endReported_on {e : ScheduleEntry} (h : e.isOn = true) (s : State) (r : FiringResult) :
    s.endReported e r = State.checkDone (s.entryEnded e r) e.rid := by
  rw [State.endReported, endEntry_on h]

/-- R19: an item that is not PASSED is not DONE yet. -/
theorem checkDone_unpassed {s : State} {rid : Nat} (h : ∀ it ∈ s.items.passed, it.rid ≠ rid) : s.checkDone rid = s := by
  have hnone : s.items.passed.find? (fun it => it.rid = rid) = none :=
    List.find?_eq_none.mpr fun it hit hrid => h it hit (of_decide_eq_true hrid)
  rw [State.checkDone, hnone]

theorem entryEnded_passed {s : State} {e : ScheduleEntry} (h : ∀ it ∈ s.items.passed, it.rid ≠ e.rid)
    (r : FiringResult) : (s.entryEnded e r).items.passed = s.items.passed :=
  mapRid_of_ne _ _ _ h

/-- R19, R59: the end of an entry whose item is not PASSED. -/
theorem checkDone_entryEnded {s : State} {e : ScheduleEntry} (h : ∀ it ∈ s.items.passed, it.rid ≠ e.rid)
    (r : FiringResult) : State.checkDone (s.entryEnded e r) e.rid = s.entryEnded e r :=
  checkDone_unpassed fun it hit => h it (entryEnded_passed h r ▸ hit)

/-! ### OFF times and pulse ends (R60, R78) -/

theorem offTime_reached {s : State} {e : ScheduleEntry} {off : Pos} (he : e ∈ s.schedule.timeList)
    (honly : ∀ x ∈ s.schedule.timeList, x.serial = e.serial → x = e) (hphase : e.phase = .onTime off)
    (h : 0 ≤ (s.position.ts - off).toInt) : s.offTime e.serial = State.checkDone (s.entryEnded e .done) e.rid := by
  rw [State.offTime, find_serial he honly]
  exact (if_pos ((reached_iff _ _).mpr (filing_of_time hphase ▸ h))).trans (endReported_on (isOn_of_time hphase) s .done)

theorem offTime_early {s : State} {e : ScheduleEntry} {off : Pos} (he : e ∈ s.schedule.timeList)
    (honly : ∀ x ∈ s.schedule.timeList, x.serial = e.serial → x = e) (hphase : e.phase = .onTime off)
    (h : (s.position.ts - off).toInt < 0) : s.offTime e.serial = s := by
  rw [State.offTime, find_serial he honly]
  exact if_neg (Bool.eq_false_iff.mp ((reached_false_iff _ _).mpr (filing_of_time hphase ▸ h)))

theorem exec_offTime {s : State} {e : ScheduleEntry}
    (he : s.schedule.timeList.find? (fun x => x.owner = e.owner) = some e) :
    exec (.offTime e.owner) s = if s.position.tickDue then (s.offTime e.serial).done else s.done := by
  show execOffTime e.owner s = _
  rw [execOffTime, he]

theorem endPulse_due {s : State} {o : OutputId} (h : s.pulseDue o = true) :
    s.endPulse o = { s with outputs := tset s.outputs o { s.outputs[o] with pulse := none } } := by
  rw [State.endPulse, if_pos h]
  rfl

/-- A pulse whose end time TS has not reached, or none at all. -/
theorem endPulse_early {s : State} {o : OutputId}
    (h : ∀ p, s.outputs[o].pulse = some p → (s.position.ts - p).toInt < 0) : s.endPulse o = s := by
  rw [State.endPulse, if_neg]
  intro hdue
  obtain ⟨p, hp, hreached⟩ := (pulseDue_iff s o).mp hdue
  exact absurd hreached (Int.not_le.mpr (h p hp))

theorem exec_pulseEnd (s : State) (o : OutputId) :
    exec (.pulseEnd o) s = if s.position.tickDue then (s.endPulse o).done else s.done := rfl

/-! ### The tick hands them out (R131) -/

/-- What a tick hands out for an OFF time or a pulse end stands among those that are due. -/
theorem mem_tick {s : State} (ha : s.agenda = []) (e : Event) : e ∈ s.tick.agenda.flatten ↔
    e ∈ s.offTimesDue ∨ e ∈ s.pulsesDue ∨ e ∈ s.timersDue ∨ e ∈ s.ackDue := by
  have hagenda : s.tick.agenda.flatten = s.offTimesDue ++ s.pulsesDue ++ s.timersDue ++ s.ackDue := by
    rw [tick_eq]
    show (s.agenda ++ List.map (fun e => [e]) _).flatten = _
    rw [ha, List.nil_append, flatten_singletons]
  rw [hagenda]
  simp only [List.mem_append, or_assoc]

theorem not_mem_timersDue {s : State} {e : Event} (h : e ≠ .timersTick) : e ∉ s.timersDue := by
  rw [State.timersDue]
  split
  · exact List.not_mem_nil
  · split
    · simpa using h
    · exact List.not_mem_nil

theorem not_mem_ackDue {s : State} {e : Event} (h : e ≠ .ackTick) : e ∉ s.ackDue := by
  rw [State.ackDue]
  split
  · simpa using h
  · exact List.not_mem_nil

theorem mem_tick_offTime {s : State} (ha : s.agenda = []) (k : Nat) : Event.offTime k ∈ s.tick.agenda.flatten ↔
    ∃ e ∈ s.schedule.timeList, e.serial = k ∧ 0 ≤ (s.position.ts - e.filing).toInt := by
  rw [mem_tick ha, ← mem_offTimesDue]
  simp [State.pulsesDue, not_mem_timersDue, not_mem_ackDue]

theorem mem_tick_pulseEnd {s : State} (ha : s.agenda = []) (o : OutputId) :
    Event.pulseEnd o ∈ s.tick.agenda.flatten ↔
      ∃ p, s.outputs[o].pulse = some p ∧ 0 ≤ (s.position.ts - p).toInt := by
  rw [mem_tick ha, ← mem_pulsesDue]
  simp [State.offTimesDue, not_mem_timersDue, not_mem_ackDue]

/-- Settles O32: the tick hands out the timed ends that are due; each row takes its share when the tick is at hand. -/
theorem timedEndsComeAtTheirTime : Obligations.TimedEndsComeAtTheirTime := by
  refine ⟨fun s ha => ⟨s.tick, rfl, tick_changes s, mem_tick_offTime ha, mem_tick_pulseEnd ha,
    fun u k o => ⟨rfl, rfl⟩⟩, fun s o hq => ⟨fun p hp hreached htick => ?_, fun p hp hearly => ?_, fun hrest => ?_⟩,
    fun s e off hfind hphase honly => ?_⟩
  · have hquiet : State.quiet { s with outputs := tset s.outputs o { s.outputs[o] with pulse := none } } := hq
    rw [exec_pulseEnd, if_pos htick, endPulse_due ((pulseDue_iff s o).mpr ⟨p, hp, hreached⟩)]
    exact done_quiet _ hquiet
  · have hnot : s.endPulse o = s := endPulse_early fun q hq => by
      rw [hp] at hq
      cases hq
      exact hearly
    rw [exec_pulseEnd, hnot, ite_self]
    exact done_quiet _ hq
  · rw [exec_pulseEnd]
    obtain hnone | htick := hrest
    · have hnot : s.endPulse o = s := endPulse_early fun q hq => by rw [hnone] at hq; cases hq
      rw [hnot, ite_self]
      exact done_quiet _ hq
    · rw [if_neg (Bool.eq_false_iff.mp htick)]
      exact done_quiet _ hq
  · have he : e ∈ s.schedule.timeList := List.mem_of_find?_eq_some hfind
    refine ⟨offTime_reached he honly hphase, fun htick hreached => ?_, fun hq hrest => ?_⟩
    · have hend : exec (.offTime e.owner) s = State.done (State.checkDone (s.entryEnded e .done) e.rid) := by
        rw [exec_offTime hfind, if_pos htick, offTime_reached he honly hphase hreached]
      refine ⟨hend, fun hq hpassed => ?_⟩
      have hquiet : (s.entryEnded e .done).quiet := hq
      rw [hend, checkDone_entryEnded hpassed]
      exact done_quiet _ hquiet
    · rw [exec_offTime hfind]
      obtain hearly | htick := hrest
      · rw [offTime_early he honly hphase hearly, ite_self]
        exact done_quiet _ hq
      · rw [if_neg (Bool.eq_false_iff.mp htick)]
        exact done_quiet _ hq

end Sys2Proof.Machine
end

section
/-! SUPPORT. Entries at their positions (R53, R54, R56 to R59, R62, R66, R73). -/

namespace Sys2Proof.Machine

/-! ### The entries of an orderly schedule -/

theorem Schedule.Ok.only {t : Schedule} (ok : t.Ok) {e x : ScheduleEntry} (he : e ∈ t.entries) (hx : x ∈ t.entries)
    (h : x.serial = e.serial) : x = e := by
  obtain ⟨_, _, _, hnodup, _⟩ := ok
  exact List.inj_on_of_nodup_map hnodup hx he h

theorem mem_entries_position {t : Schedule} {e : ScheduleEntry} (h : e ∈ t.positionList) : e ∈ t.entries :=
  List.mem_append_left _ h

theorem mem_entries_time {t : Schedule} {e : ScheduleEntry} (h : e ∈ t.timeList) : e ∈ t.entries :=
  List.mem_append_right _ h

/-- An entry of the position list has no namesake in the time list. -/
theorem Schedule.Ok.timeList_free {t : Schedule} (ok : t.Ok) {e : ScheduleEntry} (he : e ∈ t.positionList) :
    t.timeList.filter (fun x => x.serial ≠ e.serial) = t.timeList := by
  refine List.filter_eq_self.mpr fun x hx => decide_eq_true fun h => ?_
  obtain rfl := ok.only (mem_entries_position he) (mem_entries_time hx) h
  obtain ⟨_, hposition, htime, _, _⟩ := ok
  obtain ⟨off, hoff⟩ := htime x hx
  exact hposition x he off hoff

theorem serial_left (list : List ScheduleEntry) (k : Nat) :
    k ∉ (list.filter (fun x => x.serial ≠ k)).map (·.serial) := by
  simp

/-! ### Positions (R55 to R59) -/

section
variable {s : State} {e : ScheduleEntry} (ok : s.schedule.Ok) (he : e ∈ s.schedule.positionList)

include ok he in
theorem schedulePoint_reached (h : 0 ≤ (s.position.hw - e.filing).toInt) : s.schedulePoint e.serial = s.takePoint e := by
  rw [State.schedulePoint, find_serial he fun x hx => ok.only (mem_entries_position he) (mem_entries_position hx)]
  exact if_pos ((reached_iff _ _).mpr h)

include ok he in
theorem schedulePoint_early (h : (s.position.hw - e.filing).toInt < 0) : s.schedulePoint e.serial = s := by
  rw [State.schedulePoint, find_serial he fun x hx => ok.only (mem_entries_position he) (mem_entries_position hx)]
  exact if_neg (Bool.eq_false_iff.mp ((reached_false_iff _ _).mpr h))

include ok he in
theorem schedulePoint_waiting (hphase : e.phase = .waiting) (h : 0 ≤ (s.position.hw - e.onPos).toInt) :
    s.schedulePoint e.serial = s.takeOn e := by
  rw [schedulePoint_reached ok he (by rw [filing_of_waiting hphase]; exact h), State.takePoint, hphase]

end

/-- R56, R57: a WAITING entry that ends holds nothing. -/
theorem endEntry_waiting {e : ScheduleEntry} (h : e.phase = .waiting) (s : State) (r : FiringResult) :
    s.endEntry e r = (s.dropEntry e.serial).mapRecord e.rid (fun it => it.endFiring e.owner.firing r) := by
  rw [State.endEntry, State.releaseEntry, if_neg (Bool.eq_false_iff.mp (isOn_of_waiting h))]

theorem takeOn_suppressed {s : State} (h : s.inhibit = true) (e : ScheduleEntry) :
    s.takeOn e = s.endEntry e .suppressed := by
  rw [State.takeOn, if_pos h]

theorem takeOn_conflict {s : State} {e : ScheduleEntry} (h : s.inhibit = false)
    (hfull : 4 ≤ s.outputs[e.output].holders.length) : s.takeOn e = s.endEntry e .conflict := by
  have hroom : s.outputs[e.output].hasRoom = false := decide_eq_false (Nat.not_lt.mpr hfull)
  rw [State.takeOn, if_neg (Bool.eq_false_iff.mp h), if_neg (Bool.eq_false_iff.mp hroom)]

theorem takeOn_claims {s : State} {e : ScheduleEntry} (h : s.inhibit = false)
    (hroom : s.outputs[e.output].holders.length < 4) : s.takeOn e = s.goOn e := by
  have hfree : s.outputs[e.output].hasRoom = true := decide_eq_true hroom
  rw [State.takeOn, if_neg (Bool.eq_false_iff.mp h), if_pos hfree]

/-- R58: what going ON leaves. -/
theorem goOn_eq (s : State) (e : ScheduleEntry) : s.goOn e = { s with
    outputs := tset s.outputs e.output { s.outputs[e.output] with
      holders := s.outputs[e.output].holders ++ [.firing e.owner] }
    schedule := Schedule.file { s.schedule with
      positionList := s.schedule.positionList.filter (fun x => x.serial ≠ e.serial)
      timeList := s.schedule.timeList.filter (fun x => x.serial ≠ e.serial) } { e with phase := s.onPhase e } } := by
  rw [State.goOn, fileEntry_schedule]
  rfl

theorem file_counts (t : Schedule) {e : ScheduleEntry} {off : Pos} (h : e.phase = .onCounts off) :
    t.file e = { t with positionList := insertEntry e t.positionList } := by
  rw [Schedule.file, h]

theorem file_time (t : Schedule) {e : ScheduleEntry} {off : Pos} (h : e.phase = .onTime off) :
    t.file e = { t with timeList := insertEntry e t.timeList } := by
  rw [Schedule.file, h]

theorem onPhase_counts (s : State) {e : ScheduleEntry} (h : e.widthKind = .counts) :
    s.onPhase e = .onCounts (e.onPos + e.width.setWidth 32) := by
  rw [State.onPhase, h]

theorem onPhase_time (s : State) {e : ScheduleEntry} (h : e.widthKind = .time) :
    s.onPhase e = .onTime (s.position.ts + BitVec.ofNat 32 (e.width.toNat * 1000)) := by
  rw [State.onPhase, h]
  rfl

/-! ### Cuts (R62) -/

theorem cutEntry_found {s : State} {e : ScheduleEntry} (ok : s.schedule.Ok) (he : e ∈ s.schedule.entries) :
    s.cutEntry e.serial = if e.isOn then s.endReported e .cut else s := by
  have hfind : s.schedule.find e.serial = some e := find_serial he fun x hx => ok.only he hx
  rw [State.cutEntry, hfind]

theorem isOn_of_ne {e : ScheduleEntry} (h : e.phase ≠ .waiting) : e.isOn = true := by
  rw [ScheduleEntry.isOn]
  cases hp : e.phase with
  | waiting => exact absurd hp h
  | onCounts off => rfl
  | onTime off => rfl

/-- R66: the firings of a record as one of them ends. -/
theorem endFiring_firings (it : Item) (k : Fin 4) (r : FiringResult) :
    (it.endFiring k r).firings = it.firings.modify k (·.ends r) := by
  rw [Item.endFiring, Item.mapCommitted, Item.firings, Item.firings]
  cases it.committed with
  | none => exact (List.modify_nil _ _).symm
  | some c => rfl

/-- Settles O33: the point of an entry, by its phase, INHIBIT and the room in the hold set. -/
theorem entryAtItsPositions : Obligations.EntryAtItsPositions := by
  refine ⟨?_, fun s e ok he => ⟨fun off hphase hreached hpassed => ?_,
    fun off hphase hearly => ?_, fun hphase hearly => ?_⟩, fun s e ok he => ⟨fun hphase => ?_, fun hphase => ?_⟩,
    endFiring_firings⟩
  · intro s e ok he hphase hreached t left ended
    have ht : t = s.takeOn e := schedulePoint_waiting ok he hphase hreached
    have hended {r : FiringResult} (h : t = s.endEntry e r) : ended r := by
      rw [endEntry_waiting hphase] at h
      refine ⟨by rw [h]; rfl, ?_, by rw [h]; rfl, by rw [h]; rfl, by rw [h]; exact ok.timeList_free he, ?_⟩
      · rw [h]
        simp [Schedule.entries, State.mapRecord, State.dropEntry]
      · rw [h]
        exact ((dropEntry_changes s _).mono (by decide)).trans ((mapRecord_changes _ _ _).mono (by decide))
    refine ⟨fun hinhibit => hended (ht.trans (takeOn_suppressed hinhibit e)),
      fun hinhibit hfull => hended (ht.trans (takeOn_conflict hinhibit hfull)), fun hinhibit hroom => ?_⟩
    have hgo := (ht.trans (takeOn_claims hinhibit hroom)).trans (goOn_eq s e)
    refine ⟨by rw [hgo], by rw [hgo], ?_, fun hkind => ?_, fun hkind => ?_⟩
    · rw [ht, takeOn_claims hinhibit hroom]
      exact (goOn_changes s e).mono (by decide)
    · rw [onPhase_counts s hkind, file_counts _ rfl] at hgo
      rw [hgo]
      exact ⟨rfl, rfl⟩
    · rw [onPhase_time s hkind, file_time _ rfl] at hgo
      rw [hgo]
      exact ⟨rfl, rfl⟩
  · rw [schedulePoint_reached ok he (by rw [filing_of_counts hphase]; exact hreached), State.takePoint, hphase]
    exact (endReported_on (isOn_of_counts hphase) s .done).trans (checkDone_entryEnded hpassed .done)
  · exact schedulePoint_early ok he (by rw [filing_of_counts hphase]; exact hearly)
  · exact schedulePoint_early ok he (by rw [filing_of_waiting hphase]; exact hearly)
  · rw [cutEntry_found ok he, if_neg (Bool.eq_false_iff.mp (isOn_of_waiting hphase))]
  · rw [cutEntry_found ok he, if_pos (isOn_of_ne hphase), endReported_on (isOn_of_ne hphase)]

end Sys2Proof.Machine
end

section
/-! SUPPORT. INHIBIT and what its activation hands out (R62, R81, R140), and SET_INPUT (R142, R143). -/

namespace Sys2Proof.Machine

/-! ### The combined INHIBIT state (R140) -/

theorem inhibit_iff (s : State) : s.inhibit = true ↔
    ∃ i : InputId, s.inputs[i].role = .inhibit ∧ s.inputs[i].accepted = s.inputs[i].active := by
  simp only [State.inhibit, List.any_eq_true, Bool.and_eq_true, decide_eq_true_eq, Input.acceptedActive]
  exact ⟨fun ⟨i, _, h⟩ => ⟨i, h⟩, fun ⟨i, h⟩ => ⟨i, mem_allInputs i, h⟩⟩

theorem inhibit_congr {s t : State} (h : t.inputs = s.inputs) : t.inhibit = s.inhibit := by
  rw [State.inhibit, h]
  rfl

theorem inhibit_of_input {s : State} {i : InputId} {x : Input} (h : s.inputs[i] = x) (hrole : x.role = .inhibit)
    (hactive : x.accepted = x.active) : s.inhibit = true := by
  subst h
  exact (inhibit_iff s).mpr ⟨i, hrole, hactive⟩

/-- R62, R81: what the activation of INHIBIT hands out: the outputs and each ON entry, each on a chain of its own. -/
def State.raised (s : State) : State := { s with
  agenda := [.inhibitOutputs] ::
    (s.schedule.entries.filter (fun e => Decidable.decide (e.phase ≠ .waiting))).map (fun e => [.cut e.serial]) }

theorem inhibitActive_eq {s : State} (h : s.agenda = []) : s.inhibitActive = s.raised := by
  have hon : s.schedule.entries.filter (fun e => e.isOn) =
      s.schedule.entries.filter (fun e => decide (e.phase ≠ .waiting)) :=
    List.filter_congr fun e _ => Bool.eq_iff_iff.mpr ((isOn_iff e).trans decide_eq_true_iff.symm)
  rw [State.inhibitActive, hon, State.pushEach, h, State.raised, List.map_cons, List.map_map]
  rfl

theorem reportInhibit_raises {s : State} (h : s.inhibit = true) (ha : s.agenda = []) :
    s.reportInhibit false = s.raised := by
  rw [State.reportInhibit, h]
  exact inhibitActive_eq ha

theorem reportInhibit_rests {s : State} {old : Bool} (h : s.inhibit = true → old = true) : s.reportInhibit old = s := by
  rw [State.reportInhibit, if_neg]
  rw [Bool.and_eq_true, Bool.not_eq_true']
  exact fun ⟨hnow, hold⟩ => Bool.false_ne_true (hold.symm.trans (h hnow))

/-! ### SET_INPUT (R142, R143) -/

theorem inputRoleOf_code (r : InputRole) : inputRoleOf r.code = some r := by
  cases r <;> rfl

theorem inputRoleOf_none {b : Byte} (h : 4 < b.toNat) : inputRoleOf b = none := by
  revert b
  decide

theorem levelOf_code (v : Level) : levelOf (levelCode v) = some v := by
  cases v <;> rfl

theorem edgeSelectOf_code (e : EdgeSelect) : edgeSelectOf e.code = some e := by
  cases e <;> rfl

theorem edgeSelectOf_none {b : Byte} (h : 2 < b.toNat) : edgeSelectOf b = none := by
  revert b
  decide

theorem entryInUse_iff (s : State) (i : InputId) : s.entryInUse i = true ↔
    ∃ l : LaneId, s.lanes[l].state ≠ .off ∧ s.lanes[l].config.entryInput = some i := by
  simp [State.entryInUse, mem_allLanes, Lane.live]

/-- R142: the input is in use. -/
def State.inputBusy (s : State) (i : InputId) : Prop :=
  (∃ l : LaneId, s.lanes[l].state ≠ .off ∧ s.lanes[l].config.entryInput = some i) ∨
    (s.inputs[i].role = .confirm ∧ s.windows[i] ≠ [])

/-- The state with row `i` of the input table replaced. -/
def State.setInput (s : State) (i : InputId) (x : Input) : State :=
  { s with inputs := tset s.inputs i x }

theorem setInput_get (s : State) (i : InputId) (x : Input) : (s.setInput i x).inputs[i] = x :=
  tset_get_self _ _ _

section
variable (s : State) (i : InputId) (r : InputRole) (a f : Level) (p : Fin 8) (e : EdgeSelect) (stable : Byte)

/-- R143: the input as SET_INPUT writes it. -/
def State.requestedInput : Input :=
  { role := r, active := a, filterOn := Decidable.decide (f = .high), period := p, stable := stable.toNat, edge := e
    accepted := s.pins[i], awaiting := false, mark := .requested, run := none }

theorem reqSetInput_coded : s.reqSetInput (natByte i) r.code (levelCode a) (levelCode f) (natByte p) stable e.code =
    if stable.toNat < 2 ∨ 16 < stable.toNat then s.refuse .badValue
    else if s.entryInUse i then s.refuse .inUse
    else if s.inputs[i].role = .confirm ∧ ¬ s.windows[i].isEmpty then s.refuse .inUse
    else ((s.setInput i (s.requestedInput i r a f p e stable)).reportInhibit s.inhibit).inputReply i := by
  rw [State.reqSetInput, named_natByte s i (by decide), inputRoleOf_code, levelOf_code, levelOf_code,
    finOf_natByte p (by decide), edgeSelectOf_code]
  rfl

variable {s i stable} (hstable : 2 ≤ stable.toNat) (hmost : stable.toNat ≤ 16)

include hstable hmost in
theorem reqSetInput_busy (h : s.inputBusy i) :
    s.reqSetInput (natByte i) r.code (levelCode a) (levelCode f) (natByte p) stable e.code = s.refuse .inUse := by
  rw [reqSetInput_coded, if_neg (by omega)]
  obtain hentry | ⟨hrole, hwindows⟩ := h
  · exact if_pos ((entryInUse_iff s i).mpr hentry)
  · rw [if_pos (c := s.inputs[i].role = .confirm ∧ _) ⟨hrole, by simpa using hwindows⟩, ite_self]

include hstable hmost in
theorem reqSetInput_takes (h : ¬ s.inputBusy i) :
    s.reqSetInput (natByte i) r.code (levelCode a) (levelCode f) (natByte p) stable e.code =
      ((s.setInput i (s.requestedInput i r a f p e stable)).reportInhibit s.inhibit).inputReply i := by
  rw [reqSetInput_coded, if_neg (by omega), if_neg fun hentry => h (Or.inl ((entryInUse_iff s i).mp hentry)),
    if_neg fun ⟨hrole, hwindows⟩ => h (Or.inr ⟨hrole, by simpa using hwindows⟩)]

end

theorem reportInhibit_inputs (s : State) (old : Bool) : (s.reportInhibit old).inputs = s.inputs :=
  reportInhibit_changes s old .inputs (by decide)

/-- R143: the reply of SET_INPUT shows the raw level. -/
theorem inputReply_eq (s : State) (i : InputId) (old : Bool) (r : InputRole) (a f : Level) (p : Fin 8) (e : EdgeSelect)
    (stable : Byte) : ((s.setInput i (s.requestedInput i r a f p e stable)).reportInhibit old).inputReply i =
      ([0, levelCode s.pins[i], boolCode (decide (s.pins[i] = a))],
        (s.setInput i (s.requestedInput i r a f p e stable)).reportInhibit old) := by
  rw [State.inputReply, reportInhibit_inputs, setInput_get]
  rfl

/-- R190: SET_INPUT with a value that names nothing. -/
theorem reqSetInput_bad (s : State) {input role active filter period stable edge : Byte}
    (h : 15 < input.toNat ∨ 4 < role.toNat ∨ 1 < active.toNat ∨ 1 < filter.toNat ∨ 7 < period.toNat ∨
      stable.toNat < 2 ∨ 16 < stable.toNat ∨ 2 < edge.toNat) :
    s.reqSetInput input role active filter period stable edge = s.refuse .badValue := by
  rw [State.reqSetInput, State.named]
  cases hi : finOf 16 input with
  | none => rfl
  | some i =>
    simp only
    split
    · next hrole hactive hfilter hperiod hedge =>
      refine if_pos ?_
      obtain hbad | hbad | hbad | hbad | hbad | hbad | hbad | hbad := h
      · rw [finOf_none (by omega)] at hi; cases hi
      · rw [inputRoleOf_none hbad] at hrole; cases hrole
      · rw [levelOf_none hbad] at hactive; cases hactive
      · rw [levelOf_none hbad] at hfilter; cases hfilter
      · rw [finOf_none (by omega)] at hperiod; cases hperiod
      · exact Or.inl hbad
      · exact Or.inr hbad
      · rw [edgeSelectOf_none hbad] at hedge; cases hedge
    · rfl

end Sys2Proof.Machine
end

section
/-! SUPPORT. The moment at which INHIBIT becomes active (R62, R81, R140): its events in any order, and what they leave. -/

namespace Sys2Proof.Machine

/-! ### Outputs under INHIBIT -/

/-- What the events of the moment leave of an output: no new holder, no new pulse, the same role. -/
structure Output.Calms (x y : Output) : Prop where
  role : y.role = x.role
  holders : y.holders.Sublist x.holders
  pulse : x.pulse = none → y.pulse = none

theorem Output.Calms.refl (x : Output) : x.Calms x :=
  ⟨rfl, .refl _, id⟩

theorem Output.Calms.trans {x y z : Output} (h : x.Calms y) (k : y.Calms z) : x.Calms z :=
  ⟨k.role.trans h.role, k.holders.trans h.holders, k.pulse ∘ h.pulse⟩

/-- R81: the output has nothing left that INHIBIT's activation takes. -/
def Output.Cleared (x : Output) : Prop :=
  (x.role = .actuator → .test ∉ x.holders) ∧ (x.role = .general → x.pulse = none)

theorem Output.Calms.cleared {x y : Output} (h : x.Calms y) (hx : x.Cleared) : y.Cleared := by
  obtain ⟨htest, hpulse⟩ := hx
  rw [Output.Cleared, h.role]
  exact ⟨fun hr hin => htest hr (h.holders.subset hin), fun hr => h.pulse (hpulse hr)⟩

theorem inhibited_calms (x : Output) : x.Calms x.inhibited := by
  rw [Output.inhibited]
  cases hr : x.role with
  | actuator => exact ⟨hr.symm ▸ rfl, List.erase_sublist, id⟩
  | general => exact ⟨hr.symm ▸ rfl, .refl _, fun _ => rfl⟩
  | hold => exact .refl x
  | unused => exact .refl x

theorem inhibited_cleared {x : Output} (h : x.holders.count .test ≤ 1) : x.inhibited.Cleared := by
  obtain ⟨role, polarity, lane, holders, latch, pulse⟩ := x
  cases role with
  | actuator =>
    refine ⟨fun _ => ?_, nofun⟩
    show Holder.test ∉ holders.erase .test
    rw [← List.count_eq_zero, List.count_erase_self]
    exact Nat.sub_eq_zero_of_le h
  | general => exact ⟨nofun, fun _ => rfl⟩
  | hold => exact ⟨nofun, nofun⟩
  | unused => exact ⟨nofun, nofun⟩

/-- Every output calms, and neither the inputs nor the schedule changes. -/
structure State.Calms (s t : State) : Prop where
  inputs : t.inputs = s.inputs
  schedule : t.schedule = s.schedule
  outputs : ∀ o : OutputId, s.outputs[o].Calms t.outputs[o]

theorem State.Calms.trans {s t u : State} (h : s.Calms t) (k : t.Calms u) : s.Calms u :=
  ⟨k.inputs.trans h.inputs, k.schedule.trans h.schedule, fun o => (h.outputs o).trans (k.outputs o)⟩

theorem State.Calms.of_changes {s t : State}
    (h : OnlyChanges [.items, .notices, .lanes, .timers, .reactions, .agenda, .choices] s t) : s.Calms t := by
  refine ⟨h .inputs (by decide), h .schedule (by decide), fun o => ?_⟩
  have houtputs : t.outputs = s.outputs := h .outputs (by decide)
  rw [houtputs]
  exact .refl _

theorem State.Calms.inhibit {s t : State} (h : s.Calms t) (hs : s.inhibit = true) : t.inhibit = true :=
  (inhibit_congr h.inputs).trans hs

theorem mapGeneral_calms (s : State) (o : OutputId) {f : Output → Output} (h : ∀ x : Output, x.Calms (f x)) :
    s.Calms (s.mapGeneral o f) := by
  rw [mapGeneral_eq]
  split
  · refine ⟨rfl, rfl, fun o' => ?_⟩
    show s.outputs[o'].Calms (tset s.outputs o (f s.outputs[o]))[o']
    rw [tset_get]
    split
    · next ho =>
      subst ho
      exact h _
    · exact .refl _
  · exact .of_changes (.refl _ s)

/-- R79: under INHIBIT no action starts a pulse. -/
theorem perform_calms {s : State} (h : s.inhibit = true) (r : ReactionId) : s.Calms (s.perform r) := by
  rw [State.perform]
  cases s.reactions[r].action with
  | none => exact .of_changes (.refl _ s)
  | outSet o => exact mapGeneral_calms s o fun x => ⟨rfl, .refl _, id⟩
  | outClear o => exact mapGeneral_calms s o fun x => ⟨rfl, .refl _, fun _ => rfl⟩
  | outPulse o ms =>
    have hnone : s.outPulse o ms = s := if_pos h
    simp only [hnone]
    exact .of_changes (.refl _ s)
  | timerStart t => exact .of_changes ((mapTimer_changes s _ _).mono (by decide))
  | timerStop t => exact .of_changes ((mapTimer_changes s _ _).mono (by decide))
  | laneHold l =>
    by_cases hrun : s.lanes[l].running = true
    · simp only [laneHold_faults hrun]
      exact .of_changes (((struck_changes s l .reaction).mono (by decide)).trans ((push_changes _ _).mono (by decide)))
    · simp only [laneHold_rests (Bool.eq_false_iff.mpr hrun)]
      exact .of_changes (.refl _ s)
  | capture => exact .of_changes ((produce_changes s _ _).mono (by decide))
  | notify => exact .of_changes ((produce_changes s _ _).mono (by decide))

theorem performs_calm (rs : List ReactionId) : ∀ {s : State}, s.inhibit = true → s.Calms (rs.foldl State.perform s) := by
  induction rs with
  | nil => exact fun {s} _ => .of_changes (.refl _ s)
  | cons r rs ih => exact fun h => (perform_calms h r).trans (ih ((perform_calms h r).inhibit h))

theorem takeTrigger_calms {s : State} (h : s.inhibit = true) (te : TriggerEvent) : s.Calms (s.takeTrigger te) :=
  (performs_calm _ h).trans (.of_changes
    ((OnlyChanges.foldl _ (fun s r => mapReaction_changes s r _) _ _).mono (by decide)))

/-! ### The moment -/

/-- A state of the moment at which INHIBIT has become active, which began in `s`. -/
structure State.Inhibiting (s u : State) : Prop where
  chains : ∀ ch ∈ u.agenda, ch ≠ []
  events : ∀ e ∈ u.agenda.flatten, e = .inhibitOutputs ∨ (∃ k, e = .cut k) ∨ ∃ te, e = .trigger te
  active : u.inhibit = true
  ok : u.schedule.Ok
  entries : ∀ e ∈ u.schedule.entries, (e.phase = .waiting ∧ e ∈ s.schedule.positionList) ∨
    (e.phase ≠ .waiting ∧ .cut e.serial ∈ u.agenda.flatten)
  tests : ∀ o : OutputId, u.outputs[o].holders.count .test ≤ 1
  roles : ∀ o : OutputId, u.outputs[o].role = s.outputs[o].role
  outputs : .inhibitOutputs ∈ u.agenda.flatten ∨ ∀ o : OutputId, u.outputs[o].Cleared

section
variable {s u t : State} {e : Event} {rest more : List (List Event)} (h : s.Inhibiting u)
  (hrest : ∀ ch ∈ rest, ch ≠ []) (hperm : u.agenda.flatten.Perm (e :: rest.flatten)) (hagenda : t.agenda = rest ++ more)
  (hmore : ∀ ch ∈ more, ch ≠ [] ∧ ∀ x ∈ ch, ∃ te, x = Event.trigger te)

include hperm hagenda in
/-- An event that was handed out is still to come, or is the one taken. -/
theorem still_to_come {x : Event} (hx : x ∈ u.agenda.flatten) : x = e ∨ x ∈ t.agenda.flatten :=
  (List.mem_cons.mp (hperm.mem_iff.mp hx)).imp id fun hr => (mem_rest_append hagenda x).mpr (Or.inl hr)

include h hrest hperm hagenda hmore in
/-- One event of the moment, by what it does to the outputs and the schedule. -/
theorem State.Inhibiting.next (hactive : t.inhibit = true) (hok : t.schedule.Ok)
    (hentries : ∀ x ∈ t.schedule.entries, x ∈ u.schedule.entries ∧ (x.phase ≠ .waiting → e ≠ .cut x.serial))
    (hcalm : ∀ o : OutputId, u.outputs[o].Calms t.outputs[o])
    (hclear : e = .inhibitOutputs → ∀ o : OutputId, t.outputs[o].Cleared) : s.Inhibiting t where
  chains := State.Offered.chains_after hrest hagenda hmore
  events x hx := by
    obtain hr | hm := (mem_rest_append hagenda x).mp hx
    · exact h.events x (hperm.mem_iff.mpr (List.mem_cons_of_mem _ hr))
    · obtain ⟨ch, hch, hxc⟩ := List.mem_flatten.mp hm
      exact Or.inr (Or.inr ((hmore ch hch).2 x hxc))
  active := hactive
  ok := hok
  entries x hx := by
    obtain ⟨hu, hnot⟩ := hentries x hx
    refine (h.entries x hu).imp id fun ⟨hphase, hcut⟩ => ⟨hphase, ?_⟩
    exact (still_to_come hperm hagenda hcut).resolve_left fun heq => hnot hphase heq.symm
  tests o := Nat.le_trans ((hcalm o).holders.count_le _) (h.tests o)
  roles o := (hcalm o).role.trans (h.roles o)
  outputs := by
    obtain hpending | hcleared := h.outputs
    · exact (still_to_come hperm hagenda hpending).elim (fun heq => Or.inr (hclear heq.symm)) Or.inl
    · exact Or.inr fun o => (hcalm o).cleared (hcleared o)

end

/-- A completed item gives its OUTCOME trigger and nothing else. -/
theorem checkDone_agenda (s : State) (rid : Nat) : ∃ more : List (List Event), (s.checkDone rid).agenda = s.agenda ++ more ∧
    ∀ ch ∈ more, ch ≠ [] ∧ ∀ e ∈ ch, ∃ te, e = Event.trigger te := by
  rw [State.checkDone]
  split
  · exact ⟨[], (List.append_nil _).symm, by simp⟩
  · next it _ =>
    split
    · have hdone : ((s.dropRecord rid).becomeDone it it.summary).agenda = s.agenda :=
        (becomeDone_agenda _ it it.summary).trans rfl
      refine ⟨[[it.outcomeEvent it.summary]], ?_, ?_⟩
      · rw [push_agenda, hdone]
        rfl
      · simp [Item.outcomeEvent]
    · exact ⟨[], (List.append_nil _).symm, by simp⟩

/-- R62: what a cut leaves of the outputs and the schedule. -/
structure State.Cuts (k : Nat) (s t : State) : Prop where
  inputs : t.inputs = s.inputs
  ok : s.schedule.Ok → t.schedule.Ok
  entries : s.schedule.Ok → ∀ x ∈ t.schedule.entries, x ∈ s.schedule.entries ∧ (x.phase ≠ .waiting → x.serial ≠ k)
  outputs : ∀ o : OutputId, s.outputs[o].Calms t.outputs[o]
  agenda : ∃ more : List (List Event), t.agenda = s.agenda ++ more ∧
    ∀ ch ∈ more, ch ≠ [] ∧ ∀ e ∈ ch, ∃ te, e = Event.trigger te

theorem State.Cuts.none {k : Nat} {s : State}
    (h : s.schedule.Ok → ∀ x ∈ s.schedule.entries, x.phase ≠ .waiting → x.serial ≠ k) : s.Cuts k s :=
  ⟨rfl, id, fun ok x hx => ⟨hx, h ok x hx⟩, fun _ => .refl _, [], (List.append_nil _).symm, by simp⟩

theorem entryEnded_cuts (s : State) (e : ScheduleEntry) (r : FiringResult) (rid : Nat) :
    s.Cuts e.serial (State.checkDone (s.entryEnded e r) rid) := by
  let v := s.entryEnded e r
  have hchanges := checkDone_changes v rid
  have hschedule : (v.checkDone rid).schedule = v.schedule := hchanges .schedule (by decide)
  have houtputs : (v.checkDone rid).outputs = v.outputs := hchanges .outputs (by decide)
  refine ⟨hchanges .inputs (by decide), fun ok => ?_, fun ok x hx => ?_, fun o => ?_, checkDone_agenda v rid⟩
  · rw [hschedule]
    exact ok.filter _
  · rw [hschedule] at hx
    obtain hp | ht := List.mem_append.mp hx
    · obtain ⟨hin, hne⟩ := List.mem_filter.mp hp
      exact ⟨mem_entries_position hin, fun _ => of_decide_eq_true hne⟩
    · obtain ⟨hin, hne⟩ := List.mem_filter.mp ht
      exact ⟨mem_entries_time hin, fun _ => of_decide_eq_true hne⟩
  · rw [houtputs]
    show s.outputs[o].Calms (tset s.outputs e.output _)[o]
    rw [tset_get]
    split
    · next ho =>
      subst ho
      exact ⟨rfl, List.erase_sublist, id⟩
    · exact .refl _

theorem find_entry {t : Schedule} {k : Nat} {e : ScheduleEntry} (h : t.find k = some e) : e ∈ t.entries ∧ e.serial = k := by
  rw [Schedule.find] at h
  exact ⟨List.mem_of_find?_eq_some h, by simpa using List.find?_some h⟩

theorem cutEntry_cuts (s : State) (k : Nat) : s.Cuts k (s.cutEntry k) := by
  rw [State.cutEntry]
  cases hfind : s.schedule.find k with
  | none =>
    refine .none fun _ x hx _ hk => ?_
    exact absurd (decide_eq_true hk) (List.find?_eq_none.mp hfind x hx)
  | some e =>
    obtain ⟨he, rfl⟩ := find_entry hfind
    show s.Cuts e.serial (if e.isOn then s.endReported e .cut else s)
    by_cases hon : e.isOn = true
    · rw [if_pos hon, endReported_on hon]
      exact entryEnded_cuts s e .cut e.rid
    · rw [if_neg hon]
      refine .none fun ok x hx hphase hk => hon ((isOn_iff e).mpr ?_)
      rwa [ok.only he hx hk] at hphase

/-- One event of the moment. -/
theorem State.Inhibiting.takeOne {s u : State} (h : s.Inhibiting u) (hne : u.agenda ≠ []) : s.Inhibiting u.takeOne := by
  obtain ⟨e, rest, heq, hrest, hperm⟩ := takeOne_eq h.chains hne
  let v := (u.choose u.agenda.length).2.withAgenda rest
  have hv : OnlyChanges [.choices, .agenda] u v :=
    ((choose_changes u _).mono (by decide)).trans ((withAgenda_changes _ rest).mono (by decide))
  have hinputs : v.inputs = u.inputs := hv .inputs (by decide)
  have hschedule : v.schedule = u.schedule := hv .schedule (by decide)
  have houtputs : v.outputs = u.outputs := hv .outputs (by decide)
  have hactive : v.inhibit = true := (inhibit_congr hinputs).trans h.active
  rw [heq]
  obtain he | ⟨k, he⟩ | ⟨te, he⟩ := h.events e (hperm.mem_iff.mpr List.mem_cons_self)
  · have htake : v.handle e = v.inhibitOutputs := by rw [he]; rfl
    rw [htake]
    have hrow (o : OutputId) : v.inhibitOutputs.outputs[o] = u.outputs[o].inhibited := by
      rw [← houtputs]
      exact tmap_get _ _ _
    refine h.next hrest hperm (more := []) (List.append_nil _).symm (by simp) hactive
      (hschedule ▸ h.ok) (fun x hx => ⟨hschedule ▸ hx, fun _ => by rw [he]; exact nofun⟩)
      (fun o => ?_) (fun _ o => ?_)
    · rw [hrow]
      exact inhibited_calms _
    · rw [hrow]
      exact inhibited_cleared (h.tests o)
  · have htake : v.handle e = v.cutEntry k := by rw [he]; rfl
    rw [htake]
    have hcuts := cutEntry_cuts v k
    have hok : v.schedule.Ok := hschedule ▸ h.ok
    obtain ⟨more, hagenda, hmore⟩ := hcuts.agenda
    refine h.next hrest hperm hagenda hmore ((inhibit_congr hcuts.inputs).trans hactive) (hcuts.ok hok) (fun x hx => ?_)
      (fun o => houtputs ▸ hcuts.outputs o) (fun hio => by rw [he] at hio; cases hio)
    obtain ⟨hin, hnot⟩ := hcuts.entries hok x hx
    refine ⟨hschedule ▸ hin, fun hphase hcut => hnot hphase ?_⟩
    rw [he] at hcut
    cases hcut
    rfl
  · have htake : v.handle e = v.takeTrigger te := by rw [he]; rfl
    rw [htake]
    have hcalms := takeTrigger_calms hactive te
    obtain ⟨more, hagenda, hmore⟩ := (takeTrigger_reacts v te).agenda
    have hsame : (v.takeTrigger te).schedule = u.schedule := hcalms.schedule.trans hschedule
    exact h.next hrest hperm hagenda hmore (hcalms.inhibit hactive) (hsame ▸ h.ok)
      (fun x hx => ⟨hsame ▸ hx, fun _ => by rw [he]; exact nofun⟩) (fun o => houtputs ▸ hcalms.outputs o)
      (fun hio => by rw [he] at hio; cases hio)

end Sys2Proof.Machine
end

section
/-! SUPPORT. INHIBIT ends test holds, pulses and ON firings (R62, R81, R140, R143, R144). -/

namespace Sys2Proof.Machine

/-! ### The moment begins and ends -/

/-- What the statement asks of the state in which INHIBIT becomes active. -/
def State.InhibitSound (s : State) : Prop :=
  s.items.inUse ≤ 192 ∧ s.schedule.Ok ∧ ∀ o : OutputId, s.outputs[o].Ok

/-- What INHIBIT's activation leaves. -/
def State.InhibitEnded (s t : State) : Prop :=
  t.inhibit = true ∧ (∀ e ∈ t.schedule.entries, e.phase = .waiting ∧ e ∈ s.schedule.positionList) ∧
    (∀ o : OutputId, (t.outputs[o].role = .actuator → .test ∉ t.outputs[o].holders) ∧
      (t.outputs[o].role = .general → t.outputs[o].pulse = none) ∧ t.outputs[o].role = s.outputs[o].role)

theorem raised_flatten (s : State) : s.raised.agenda.flatten =
    .inhibitOutputs :: (s.schedule.entries.filter (fun e => decide (e.phase ≠ .waiting))).map (fun e => .cut e.serial) := by
  show [Event.inhibitOutputs] ++ List.flatten _ = _
  rw [← flatten_singletons (List.map (fun e : ScheduleEntry => Event.cut e.serial) _), List.map_map]
  rfl

section
variable {s u w : State} (hsound : s.InhibitSound) (hw : OnlyChanges [.pins, .inputs, .notices, .link] s w)
  (hactive : w.inhibit = true) (hu : OnlyChanges [.notices, .link] w.raised u)
include hsound hw hu

include hactive in
theorem inhibiting_begins : s.Inhibiting u := by
  obtain ⟨_, hok, houtputs⟩ := hsound
  have hagenda : u.agenda = w.raised.agenda := hu .agenda (by decide)
  have hschedule : u.schedule = s.schedule := (hu .schedule (by decide)).trans (hw .schedule (by decide))
  have hwschedule : w.schedule = s.schedule := hw .schedule (by decide)
  have hsame : u.outputs = s.outputs := (hu .outputs (by decide)).trans (hw .outputs (by decide))
  have hflat : u.agenda.flatten = .inhibitOutputs ::
      (s.schedule.entries.filter (fun e => decide (e.phase ≠ .waiting))).map (fun e => .cut e.serial) := by
    rw [hagenda, raised_flatten, hwschedule]
  refine ⟨fun ch hch => ?_, fun e he => ?_, ?_, hschedule ▸ hok, fun e he => ?_, fun o => ?_, fun o => by rw [hsame], ?_⟩
  · rw [hagenda] at hch
    obtain rfl | hin := List.mem_cons.mp hch
    · exact List.cons_ne_nil _ _
    · obtain ⟨e, _, rfl⟩ := List.mem_map.mp hin
      exact List.cons_ne_nil _ _
  · rw [hflat] at he
    obtain rfl | hin := List.mem_cons.mp he
    · exact Or.inl rfl
    · obtain ⟨x, _, rfl⟩ := List.mem_map.mp hin
      exact Or.inr (Or.inl ⟨x.serial, rfl⟩)
  · exact (inhibit_congr (hu .inputs (by decide))).trans hactive
  · rw [hschedule] at he
    by_cases hphase : e.phase = .waiting
    · refine Or.inl ⟨hphase, (List.mem_append.mp he).resolve_right fun htime => ?_⟩
      obtain ⟨_, _, htimes, _, _⟩ := hok
      obtain ⟨off, hoff⟩ := htimes e htime
      rw [hoff] at hphase
      cases hphase
    · refine Or.inr ⟨hphase, ?_⟩
      rw [hflat]
      exact List.mem_cons_of_mem _ (List.mem_map_of_mem (List.mem_filter.mpr ⟨he, decide_eq_true hphase⟩))
  · obtain ⟨_, htest, _⟩ := houtputs o
    rw [hsame]
    exact htest
  · rw [hflat]
    exact Or.inl List.mem_cons_self

theorem inhibiting_load : u.load ≤ 4096 := by
  obtain ⟨hinUse, hok, _⟩ := hsound
  have hschedule : w.schedule = s.schedule := hw .schedule (by decide)
  have hitems : u.items = s.items := (hu .items (by decide)).trans (hw .items (by decide))
  have hagenda : u.agenda = w.raised.agenda := hu .agenda (by decide)
  have hlength : (s.schedule.entries.filter (fun e => decide (e.phase ≠ .waiting))).length ≤ 64 := by
    obtain ⟨hlen, _⟩ := hok
    refine Nat.le_trans List.filter_sublist.length_le ?_
    rw [Schedule.entries, List.length_append]
    exact hlen
  have hweight : agendaWeight u.agenda ≤ 65 := by
    have hcuts := eventsWeight_map (fun e : ScheduleEntry => Event.cut e.serial) (fun _ => rfl)
      (s.schedule.entries.filter (fun e => decide (e.phase ≠ .waiting)))
    rw [hagenda, agendaWeight, raised_flatten, hschedule, ← List.singleton_append, eventsWeight_append, hcuts]
    exact Nat.add_le_add_left (Nat.le_trans (Nat.le_of_eq (Nat.one_mul _)) hlength) 1
  have htracked := tracked_le_inUse s.items
  have hrunning := runningCount_le_four u
  rw [State.load, hitems]
  omega

include hactive in
theorem inhibiting_ends : s.InhibitEnded u.finish := by
  have hsteps : s.Inhibiting (State.settle 4096 u) ∧ (State.settle 4096 u).agenda = [] :=
    settle_rests (weight := State.load) (fun v hv hne => ⟨hv.takeOne hne, takeOne_load hv.chains hne⟩) 4096 u
      (inhibiting_begins hsound hw hactive hu) (inhibiting_load hsound hw hu)
  obtain ⟨hmoment, hagenda⟩ := hsteps
  show s.InhibitEnded (State.settle 4096 u).grant
  generalize State.settle 4096 u = v at hmoment hagenda
  have hgrant := grant_changes v
  have hinputs : v.grant.inputs = v.inputs := hgrant .inputs (by decide)
  have hschedule : v.grant.schedule = v.schedule := hgrant .schedule (by decide)
  have houtputs : v.grant.outputs = v.outputs := hgrant .outputs (by decide)
  have hflat : v.agenda.flatten = [] := by rw [hagenda]; rfl
  refine ⟨(inhibit_congr hinputs).trans hmoment.active, fun e he => ?_, fun o => ?_⟩
  · rw [hschedule] at he
    refine (hmoment.entries e he).resolve_right fun ⟨_, hcut⟩ => ?_
    rw [hflat] at hcut
    cases hcut
  · have hcleared : v.outputs[o].Cleared := by
      refine (hmoment.outputs.resolve_left fun hpending => ?_) o
      rw [hflat] at hpending
      cases hpending
    obtain ⟨htest, hpulse⟩ := hcleared
    rw [houtputs]
    exact ⟨htest, hpulse, hmoment.roles o⟩

end

/-! ### The rows that make INHIBIT active -/

theorem accepted_changes (s : State) (i : InputId) (level : Level) : OnlyChanges [.pins, .inputs] s (s.accepted i level) :=
  ((showPin_changes s i level).mono (by decide)).trans ((mapInput_changes (s.showPin i level) i
    (fun _ => { s.inputs[i] with accepted := level, run := none, mark := .taken })).mono (by decide))

theorem accepted_inhibits {s : State} {i : InputId} (hrole : s.inputs[i].role = .inhibit) :
    (s.accepted i s.inputs[i].active).inhibit = true :=
  inhibit_of_input (accepted_input s i _) hrole rfl

/-- R144: a comparison after a SET_INPUT of the same moment. -/
theorem compare_requested {s : State} {i : InputId} (raw : Level) (hawaiting : s.inputs[i].awaiting = false)
    (hrun : s.inputs[i].run = none) (hmark : s.inputs[i].mark = .requested) :
    s.compare i raw = ({ s with
      pins := tset s.pins i raw
      inputs := tset s.inputs i { s.inputs[i] with accepted := raw } } : State).reportInhibit s.inhibit := by
  have hnoRun : ¬ s.inputs[i].run.isSome = true := by rw [hrun]; decide
  rw [State.compare, if_neg (Bool.eq_false_iff.mp hawaiting), if_neg hnoRun, hmark]
  rfl

/-- Settles O34: the rows that make INHIBIT active hand out the same events, whose moment `inhibiting_ends` follows. -/
theorem inhibitEndsEveryPulse : Obligations.InhibitEndsEveryPulse := by
  unfold Obligations.InhibitEndsEveryPulse
  intro raised sound ended
  refine ⟨inhibit_iff, fun s k o => ⟨rfl, inhibitOutputs_changes s, ?_⟩,
    fun s i c ha hrole haccepts hidle => ?_, fun s i level c hq hrole haccepts hrests => ?_, ?_,
    fun s i ha hrole hawaiting hrun hmark hidle => ?_⟩
  · show (tmap Output.inhibited s.outputs)[o] = _
    rw [tmap_get]
    rfl
  · have hactive := accepted_inhibits hrole
    have hagenda : (s.accepted i s.inputs[i].active).agenda = [] := ha
    have hexec : exec (.acceptedTransition i) s = State.done (s.accepted i s.inputs[i].active).raised := by
      rw [exec_acceptedTransition haccepts, accept_inhibit _ _ hrole, hidle, reportInhibit_raises hactive hagenda]
    exact ⟨hexec, fun hsound => ⟨_, hexec, inhibiting_ends hsound
      ((accepted_changes s i _).mono (by decide)) hactive (.refl _ _)⟩⟩
  · have hquiet : (s.accepted i level).quiet := hq
    rw [exec_acceptedTransition haccepts, accept_inhibit _ _ hrole, reportInhibit_rests hrests]
    exact done_quiet _ hquiet
  · intro s seq stable i f p e hs hstable hmost hentry hconfirm hidle request x reply
    have hfree : ¬ s.received.inputBusy i := by
      rintro (⟨l, hl, h⟩ | ⟨hrole, hwindows⟩)
      · exact hentry l hl h
      · exact hwindows (hconfirm hrole)
    have ⟨_, _, _, ha⟩ := hs
    let w := s.received.setInput i x
    have hactive : w.inhibit = true := inhibit_of_input (setInput_get _ i x) rfl rfl
    have hdispatch : s.received.dispatch 0x1C [natByte i, InputRole.inhibit.code, levelCode s.pins[i], levelCode f,
        natByte p, stable, e.code] = ([0, levelCode s.pins[i], 1], w.raised) := by
      refine (dispatch_setInput _ _ _ _ _ _ _ _).trans ((reqSetInput_takes _ _ _ _ _ hstable hmost hfree).trans
        ((inputReply_eq _ _ _ _ _ _ _ _ _).trans ?_))
      refine congrArg₂ Prod.mk ?_ ((congrArg w.reportInhibit hidle).trans (reportInhibit_raises hactive ha))
      rw [received_pins, decide_eq_true rfl]
      rfl
    have hexec : exec request s = State.done { raised { s with inputs := tset s.inputs i x } with
        notices := s.notices.endStall
        link := { s.link with
          receiver := .hunting
          slot := some { frame := reply, begun := false, resets := false }
          last := some { kind := 0x1C, seq := seq, reply := reply } } } := by
      refine (request_taken s 0x1C seq _ hs).trans ?_
      rw [hdispatch]
      rfl
    have hw : OnlyChanges [.pins, .inputs, .notices, .link] s w :=
      (received_changes s).mono.trans (mapInput_changes s.received i (fun _ => x)).mono
    exact ⟨hexec, fun hsound => ⟨_, hexec, inhibiting_ends hsound hw hactive (link_changes w.raised _).mono⟩⟩
  · have hchanges : OnlyChanges [.pins, .inputs, .notices, .link] s { s with
        pins := tset s.pins i s.inputs[i].active
        inputs := tset s.inputs i { s.inputs[i] with accepted := s.inputs[i].active } } :=
      ((showPin_changes s i _).mono (by decide)).trans
        ((mapInput_changes _ i (fun x => { x with accepted := x.active })).mono (by decide))
    have hactive : State.inhibit { s with
        pins := tset s.pins i s.inputs[i].active
        inputs := tset s.inputs i { s.inputs[i] with accepted := s.inputs[i].active } } = true :=
      inhibit_of_input (tset_get_self _ _ _) hrole rfl
    have hexec : exec (.firstSample i s.inputs[i].active) s = State.done (State.raised { s with
        pins := tset s.pins i s.inputs[i].active
        inputs := tset s.inputs i { s.inputs[i] with accepted := s.inputs[i].active } }) := by
      show State.done (s.compare i s.inputs[i].active) = _
      rw [compare_requested _ hawaiting hrun hmark, hidle, reportInhibit_raises hactive ha]
    exact ⟨hexec, fun hsound => ⟨_, hexec, inhibiting_ends hsound hchanges hactive (.refl _ _)⟩⟩

end Sys2Proof.Machine
end

section
/-! SUPPORT. SET_INPUT (R142, R143) and the comparisons of an input (R133, R135, R137, R144). -/

namespace Sys2Proof.Machine

/-- Settles O35: the checks of SET_INPUT, the row it writes, and the reply. -/
theorem setInputWritesTheInput : Obligations.SetInputWritesTheInput := by
  refine fun s seq input role active filter period stable edge hs => ⟨fun hbad => ?_, ?_⟩
  · exact request_refused s 0x1C seq _ .badValue hs
      ((dispatch_setInput _ _ _ _ _ _ _ _).trans (reqSetInput_bad _ hbad)) rfl
  · rintro i r a f p e rfl rfl rfl rfl rfl rfl hstable hmost inUse x u reply
    have hreq := dispatch_setInput s.received (natByte i) r.code (levelCode a) (levelCode f) (natByte p) stable e.code
    have htakes (hfree : ¬ inUse) : s.received.dispatch 0x1C [natByte i, r.code, levelCode a, levelCode f, natByte p,
        stable, e.code] = (reply, (s.received.setInput i x).reportInhibit s.inhibit) :=
      hreq.trans ((reqSetInput_takes (s := s.received) _ _ _ _ _ hstable hmost hfree).trans
        (inputReply_eq _ _ _ _ _ _ _ _ _))
    refine ⟨fun hbusy => ?_, fun hfree hrests => ?_, fun hfree => ?_⟩
    · exact request_refused s 0x1C seq _ .inUse hs (hreq.trans (reqSetInput_busy _ _ _ _ _ hstable hmost hbusy)) rfl
    · have ⟨_, _, _, hagenda⟩ := hs
      have hrest : (s.received.setInput i x).reportInhibit s.inhibit = s.received.setInput i x :=
        reportInhibit_rests hrests
      exact request_writes s u 0x1C seq _ reply hs ((htakes hfree).trans (congrArg _ hrest)) hagenda rfl rfl
    · obtain ⟨hexec, hreply⟩ := request_executed hs (htakes hfree) rfl
      exact ⟨_, hexec, (finish_changes _ .inputs (by decide)).trans (reportInhibit_inputs _ _), hreply⟩

/-! ### Comparisons (R133, R135, R137) -/

section
variable {s : State} {i : InputId} (raw : Level)

/-- R133: the first comparison after a reset. -/
theorem compare_awaiting (h : s.inputs[i].awaiting = true) : s.compare i raw = { s with
    pins := tset s.pins i raw
    inputs := tset s.inputs i { s.inputs[i] with accepted := raw, awaiting := false, mark := .taken } } := by
  have hwaits : (s.showPin i raw).inputs[i].awaiting = true := h
  have hraw : (s.showPin i raw).pins[i] = raw := tset_get_self _ _ _
  rw [State.compare, if_pos h, State.settleInput, if_pos hwaits, hraw]
  rfl

variable (hawaiting : s.inputs[i].awaiting = false)
include hawaiting

theorem compare_rests (h : s.inputs[i].run ≠ none ∨ s.inputs[i].mark = .taken) : s.compare i raw = s.showPin i raw := by
  rw [State.compare, if_neg (Bool.eq_false_iff.mp hawaiting)]
  by_cases hrun : s.inputs[i].run.isSome = true
  · exact if_pos hrun
  · rw [if_neg hrun, h.resolve_left fun hne => hrun (Option.isSome_iff_ne_none.mpr hne)]

variable (hrun : s.inputs[i].run = none) (hmark : s.inputs[i].mark = .due)
include hrun hmark

/-- A comparison that is due, by the level it shows. -/
theorem compare_due : s.compare i raw =
    if raw = s.inputs[i].accepted then (s.showPin i raw).mapInput i (fun x => { x with mark := .taken })
    else if s.inputs[i].filterOn then
      (s.showPin i raw).mapInput i (fun x => { x with
        mark := .taken, run := some { candidate := raw, count := 1, capture := s.position.capture } })
    else (s.showPin i raw).accept i raw s.position.capture := by
  have hnoRun : ¬ s.inputs[i].run.isSome = true := by rw [hrun]; decide
  rw [State.compare, if_neg (Bool.eq_false_iff.mp hawaiting), if_neg hnoRun, hmark]

/-- R135, R137: a difference on an unfiltered input is accepted at once. -/
theorem compare_accepts (hraw : raw ≠ s.inputs[i].accepted) (hfilter : s.inputs[i].filterOn = false) :
    s.compare i raw = (s.showPin i raw).accept i raw s.position.capture ∧ s.compare i raw = s.transition i := by
  have hnoRun : ¬ s.inputs[i].run.isSome = true := by rw [hrun]; decide
  have hflip : raw = s.inputs[i].accepted.flip := by
    revert hraw
    cases raw <;> cases s.inputs[i].accepted <;> simp [Level.flip]
  refine ⟨?_, ?_⟩
  · rw [compare_due raw hawaiting hrun hmark, if_neg hraw, if_neg (Bool.eq_false_iff.mp hfilter)]
  · rw [State.transition, if_neg hnoRun, if_neg, hflip]
    rw [hfilter, hmark]
    decide

end

theorem exec_firstSample (s : State) (i : InputId) (raw : Level) :
    exec (.firstSample i raw) s = (s.compare i raw).done := rfl

/-- Settles O36: one comparison, by the state of the input. -/
theorem firstSampleBeginsARun : Obligations.FirstSampleBeginsARun := by
  intro s i raw hq x put run
  have hput (y : Input) : (put y).quiet := hq
  have hdone {y : Input} (h : s.compare i raw = put y) : exec (.firstSample i raw) s = .next (put y) := by
    rw [exec_firstSample, h]
    exact done_quiet _ (hput y)
  refine ⟨fun haw => ?_, fun haw hrests => ?_, fun haw hrun hmark hraw => ?_, fun haw hrun hmark hraw hfilter => ?_,
    fun haw hrun hmark hraw hfilter hrole => ?_, fun haw hrun hmark hraw hfilter => ?_, fun haw hrun hmark hinhibit => ?_⟩
  · exact hdone (compare_awaiting raw haw)
  · refine hdone ((compare_rests raw haw hrests).trans ?_)
    show s.showPin i raw = { s with pins := tset s.pins i raw, inputs := tset s.inputs i s.inputs[i] }
    rw [tset_same]
    rfl
  · exact hdone ((compare_due raw haw hrun hmark).trans (if_pos hraw))
  · exact hdone ((compare_due raw haw hrun hmark).trans ((if_neg hraw).trans (if_pos hfilter)))
  · obtain ⟨haccepts, _⟩ := compare_accepts raw haw hrun hmark hraw hfilter
    have hrow : ({ s.inputs[i] with accepted := raw, run := none, mark := .taken } : Input) =
        { s.inputs[i] with accepted := raw, mark := .taken } :=
      congrArg (fun r => { s.inputs[i] with accepted := raw, run := r, mark := .taken }) hrun.symm
    exact hdone (haccepts.trans ((accept_unused raw _ hrole).trans (congrArg put hrow)))
  · obtain ⟨_, htransition⟩ := compare_accepts raw haw hrun hmark hraw hfilter
    rw [exec_firstSample, htransition]
    rfl
  · exact hdone ((compare_requested raw haw hrun hmark).trans (reportInhibit_rests hinhibit))

end Sys2Proof.Machine
end

section
/-! SUPPORT. The Confirm Monitor: a window's resolution and the HOLDING windows at the end of a run (R84, R89 to R91). -/

namespace Sys2Proof.Machine

/-! ### The completion check among the records (R19) -/

/-- R19: a completed item leaves the PASSED records alone: no record of a queue changes but for its flags. -/
theorem checkDone_queue {s : State} (ok : s.items.Ok) (rid : Nat) (l : LaneId) :
    (s.checkDone rid).items.queues[l].map Item.sansFlags = s.items.queues[l].map Item.sansFlags := by
  rw [State.checkDone]
  cases hfind : s.items.passed.find? (fun it => it.rid = rid) with
  | none => rfl
  | some it =>
    have hpassed : it ∈ s.items.passed := List.mem_of_find?_eq_some hfind
    have hrid : it.rid = rid := by simpa using List.find?_some hfind
    show (if it.workDone then _ else s).items.queues[l].map _ = _
    split
    · rw [push_eq]
      show ((s.dropRecord rid).becomeDone it it.summary).items.queues[l].map _ = _
      rw [(becomeDone_records _ it it.summary).1 l, dropRecord_queue, dropRid_of_ne]
      intro x hx hxr
      obtain ⟨_, _, hnot⟩ := rid_only_in_queue s.items l x ok hx
      exact hnot it hpassed (hrid.trans hxr.symm)
    · rfl

theorem checkDone_itemsOk {s : State} (ok : s.items.Ok) (rid : Nat) : (s.checkDone rid).items.Ok := by
  have hqueue := checkDone_queue ok rid
  rw [State.checkDone] at hqueue ⊢
  cases hfind : s.items.passed.find? (fun it => it.rid = rid) with
  | none => exact ok
  | some it =>
    have hrid : it.rid = rid := by simpa using List.find?_some hfind
    rw [hfind] at hqueue
    subst hrid
    revert hqueue
    show (∀ l : LaneId, (if it.workDone then _ else s).items.queues[l].map Item.sansFlags = _) →
      (if it.workDone then _ else s).items.Ok
    split
    · intro hqueue
      have hrids : it.rid ∈ s.items.rids :=
        List.mem_map_of_mem (List.mem_append_right _ (List.mem_of_find?_eq_some hfind))
      refine (dropRecord_becomeDone_sheds hrids it.summary).itemsOk (fun l x hx => ?_) ok
      obtain ⟨y, hy, hyx⟩ := mem_of_sansFlags (hqueue l) hx
      exact ⟨y, hy, sansFlags_lane hyx⟩
    · exact fun _ => ok

/-! ### A window resolves (R84, R91) -/

theorem resolveWindow_eq (s : State) (i : InputId) (rid : Nat) (r : ConfirmResult) : s.resolveWindow i rid r =
    State.checkDone { (s.mapRecord rid (fun it => it.endConfirm r)) with
      windows := tset s.windows i (s.windows[i].filter (fun v => v.rid ≠ rid)) } rid := rfl

theorem resolveWindow_windows (s : State) (i : InputId) (rid : Nat) (r : ConfirmResult) :
    (s.resolveWindow i rid r).windows = tset s.windows i (s.windows[i].filter (fun v => v.rid ≠ rid)) := by
  rw [resolveWindow_eq]
  exact checkDone_changes _ rid .windows (by decide)

theorem resolveWindow_own (s : State) (i : InputId) (rid : Nat) (r : ConfirmResult) :
    (s.resolveWindow i rid r).windows[i] = s.windows[i].filter (fun v => v.rid ≠ rid) := by
  rw [resolveWindow_windows]
  exact tset_get_self _ _ _

theorem resolveWindow_other (s : State) {i j : InputId} (h : j ≠ i) (rid : Nat) (r : ConfirmResult) :
    (s.resolveWindow i rid r).windows[j] = s.windows[j] := by
  rw [resolveWindow_windows]
  exact tset_get_ne _ _ _ _ h.symm

theorem resolveWindow_agenda (s : State) (i : InputId) (rid : Nat) (r : ConfirmResult) :
    ∃ more : List (List Event), (s.resolveWindow i rid r).agenda = s.agenda ++ more ∧
      ∀ ch ∈ more, ch ≠ [] ∧ ∀ e ∈ ch, ∃ te, e = Event.trigger te :=
  checkDone_agenda _ rid

theorem Items.InPlace.ok {t u : Items} (h : t.InPlace u) (ok : t.Ok) : u.Ok := by
  refine ok.of_subperm (by rw [h.rids]) (Nat.le_of_eq h.nextRid.symm) fun l it hit => ?_
  obtain ⟨x, hx, hfollows⟩ := (h.queues l).mem hit
  obtain ⟨_, hlanes, _⟩ := ok
  exact hfollows.lane_eq.trans (hlanes l x hx)

section
variable {s : State} (ok : s.items.Ok) (i : InputId) (rid : Nat) (r : ConfirmResult)
include ok

theorem mapRecord_confirm_itemsOk : (s.mapRecord rid (fun it => it.endConfirm r)).items.Ok :=
  (mapRecord_inPlace s rid (fun it => mapCommitted_follows it _)).ok ok

theorem resolveWindow_itemsOk : (s.resolveWindow i rid r).items.Ok := by
  let u : State := { (s.mapRecord rid (fun it => it.endConfirm r)) with
    windows := tset s.windows i (s.windows[i].filter (fun v => v.rid ≠ rid)) }
  have hu : u.items.Ok := mapRecord_confirm_itemsOk ok rid r
  exact checkDone_itemsOk hu rid

/-- R91: the record of the window takes the result, the others stay as they are. -/
theorem resolveWindow_queue (l : LaneId) : (s.resolveWindow i rid r).items.queues[l].map Item.sansFlags =
    (mapRid rid (fun it => it.endConfirm r) s.items.queues[l]).map Item.sansFlags := by
  let u : State := { (s.mapRecord rid (fun it => it.endConfirm r)) with
    windows := tset s.windows i (s.windows[i].filter (fun v => v.rid ≠ rid)) }
  have hu : u.items.Ok := mapRecord_confirm_itemsOk ok rid r
  refine (checkDone_queue hu rid l).trans ?_
  show (tmap (mapRid rid _) s.items.queues)[l].map _ = _
  rw [tmap_get]

theorem resolveWindow_record {l : LaneId} {it : Item} (hit : it ∈ s.items.queues[l]) :
    ∃ it' ∈ (s.resolveWindow i rid r).items.queues[l],
      it'.sansFlags = (if it.rid = rid then it.endConfirm r else it).sansFlags :=
  mem_of_sansFlags (resolveWindow_queue ok i rid r l).symm (List.mem_map_of_mem hit)

end

theorem endConfirm_sansFlags {x y : Item} (h : x.sansFlags = y.sansFlags) (r : ConfirmResult) :
    (x.endConfirm r).sansFlags = (y.endConfirm r).sansFlags := by
  show (x.sansFlags.endConfirm r).sansFlags = (y.sansFlags.endConfirm r).sansFlags
  rw [h]

/-! ### The HOLDING windows (R90) -/

theorem mem_holding (s : State) (i : InputId) (w : Window) :
    w ∈ s.holding i ↔ w ∈ s.windows[i] ∧ w.phase = .holding := by
  rw [State.holding, List.mem_filter, decide_eq_true_eq]

theorem holding_congr {s t : State} (h : t.windows = s.windows) (i : InputId) : t.holding i = s.holding i := by
  rw [State.holding, State.holding, h]

/-- What holds of a state without HOLDING windows, and is kept back over the resolution of one of them, holds at the end
of a run. -/
theorem resolveHolding_ends {R : State → State → Prop} (i : InputId) (rests : ∀ s, s.holding i = [] → R s s)
    (resolves : ∀ (s s1 : State) (w : Window) (t : State), w ∈ s.windows[i] → w.phase = .holding →
      OnlyChanges [.choices] s s1 → R (s1.resolveWindow i w.rid w.expect.unmatched) t → R s t) :
    ∀ (n : Nat) (s : State), (s.holding i).length ≤ n → R s (State.resolveHolding n i s) := by
  intro n
  induction n with
  | zero => exact fun s h => rests s (List.eq_nil_of_length_eq_zero (Nat.le_zero.mp h))
  | succ n ih =>
    intro s h
    rw [State.resolveHolding]
    by_cases hnone : s.holding i = []
    · rw [hnone]
      exact rests s hnone
    · have hlt := choose_lt s (List.length_pos_iff.mpr hnone)
      have hchoose := choose_changes s (s.holding i).length
      have hget := List.getElem?_eq_getElem hlt
      have hin := (mem_holding s i _).mp (List.getElem_mem hlt)
      generalize (s.holding i)[(s.choose (s.holding i).length).1] = w at hget hin
      obtain ⟨hw, hphase⟩ := hin
      simp only [hget]
      refine resolves s _ w _ hw hphase hchoose (ih _ ?_)
      have hwindows : (s.choose (s.holding i).length).2.windows = s.windows := hchoose .windows (by decide)
      have hshort : ((((s.choose (s.holding i).length).2.resolveWindow i w.rid w.expect.unmatched).holding i)).length <
          (s.holding i).length := by
        rw [State.holding, resolveWindow_own, hwindows, List.filter_comm]
        exact List.length_filter_lt_length_iff_exists.mpr ⟨w, (mem_holding s i w).mpr ⟨hw, hphase⟩, by simp⟩
      omega

end Sys2Proof.Machine
end

section
/-! SUPPORT. Moments of trigger events alone, and the samples of a run (R90, R136, R144). -/

namespace Sys2Proof.Machine

/-! ### Moments of trigger events alone (R152 to R154) -/

/-- What a reaction's action can touch. -/
theorem perform_touches (s : State) (r : ReactionId) :
    OnlyChanges [.items, .notices, .lanes, .outputs, .agenda, .timers] s (s.perform r) := by
  rw [State.perform]
  cases s.reactions[r].action with
  | none => exact .refl _ s
  | outSet o => exact (mapGeneral_changes s _ _).mono
  | outClear o => exact (mapGeneral_changes s _ _).mono
  | outPulse o ms => exact (outPulse_changes s _ _).mono
  | timerStart t => exact (mapTimer_changes s _ _).mono
  | timerStop t => exact (mapTimer_changes s _ _).mono
  | laneHold l =>
    by_cases hrun : s.lanes[l].running = true
    · simp only [laneHold_faults hrun]
      exact (struck_changes s l .reaction).mono.trans (push_changes _ _).mono
    · simp only [laneHold_rests (Bool.eq_false_iff.mpr hrun)]
      exact .refl _ s
  | capture => exact (produce_changes s _ _).mono
  | notify => exact (produce_changes s _ _).mono

theorem takeTrigger_touches (s : State) (te : TriggerEvent) :
    OnlyChanges [.items, .notices, .lanes, .outputs, .agenda, .timers, .reactions] s (s.takeTrigger te) :=
  (OnlyChanges.foldl _ perform_touches _ s).mono.trans
    (OnlyChanges.foldl _ (fun s r => mapReaction_changes s r _) _ _).mono

/-- The agenda holds trigger events alone. -/
def TriggersOnly (a : List (List Event)) : Prop :=
  ∀ ch ∈ a, ch ≠ [] ∧ ∀ e ∈ ch, ∃ te, e = Event.trigger te

/-- A state of a moment of trigger events that began in `s`. -/
structure State.Triggering (s u : State) : Prop where
  agenda : TriggersOnly u.agenda
  changes : OnlyChanges [.items, .notices, .lanes, .outputs, .agenda, .timers, .reactions, .choices] s u
  records : s.sameRecords u

theorem State.Triggering.takeOne {s u : State} (h : s.Triggering u) (hne : u.agenda ≠ []) : s.Triggering u.takeOne := by
  obtain ⟨e, rest, heq, hrest, hperm⟩ := takeOne_eq (fun ch hch => (h.agenda ch hch).1) hne
  let v := (u.choose u.agenda.length).2.withAgenda rest
  have hv : OnlyChanges [.choices, .agenda] u v :=
    (choose_changes u _).mono.trans (withAgenda_changes _ rest).mono
  have hevents : ∀ x ∈ u.agenda.flatten, ∃ te, x = Event.trigger te := fun x hx => by
    obtain ⟨ch, hch, hxc⟩ := List.mem_flatten.mp hx
    exact (h.agenda ch hch).2 x hxc
  obtain ⟨te, rfl⟩ := hevents e (hperm.mem_iff.mpr List.mem_cons_self)
  have hreacts := takeTrigger_reacts v te
  obtain ⟨more, hagenda, hmore⟩ := hreacts.agenda
  rw [heq]
  show s.Triggering (v.takeTrigger te)
  refine ⟨fun ch hch => ?_, (h.changes.trans hv.mono).trans (takeTrigger_touches v te).mono, ?_⟩
  · rw [hagenda] at hch
    obtain hr | hm := List.mem_append.mp hch
    · exact ⟨hrest ch hr, fun x hx =>
        hevents x (hperm.mem_iff.mpr (List.mem_cons_of_mem _ (List.mem_flatten.mpr ⟨ch, hr, hx⟩)))⟩
    · exact hmore ch hm
  · exact (h.records.trans (sameRecords_of_items (hv .items (by decide)))).trans hreacts.records

theorem settle_preserves {P : State → Prop} (step : ∀ s, P s → s.agenda ≠ [] → P s.takeOne) (n : Nat) :
    ∀ {s : State}, P s → P (State.settle n s) := by
  induction n with
  | zero => exact fun h => h
  | succ n ih =>
    intro s h
    by_cases hs : s.agenda = []
    · rw [settle_empty _ s hs]
      exact h
    · rw [settle_succ hs]
      exact ih (step s h hs)

/-- The end of a moment of trigger events alone. -/
theorem triggers_finish {s : State} (h : TriggersOnly s.agenda) :
    OnlyChanges [.items, .notices, .lanes, .outputs, .agenda, .timers, .reactions, .choices, .link] s s.finish ∧
      s.sameRecords s.finish := by
  have hsettled : s.Triggering (State.settle Config.momentBound s) :=
    settle_preserves (fun _ hu hne => hu.takeOne hne) _ ⟨h, .refl _ s, .refl s⟩
  exact ⟨hsettled.changes.mono.trans (grant_changes _).mono, hsettled.records.trans (grant_sameRecords _)⟩

/-! ### The end of a run on a CONFIRM input (R90) -/

theorem resolveWindow_triggers (s : State) (i : InputId) (rid : Nat) (r : ConfirmResult) (h : TriggersOnly s.agenda) :
    TriggersOnly (s.resolveWindow i rid r).agenda := by
  obtain ⟨more, hagenda, hmore⟩ := resolveWindow_agenda s i rid r
  rw [hagenda]
  exact fun ch hch => (List.mem_append.mp hch).elim (h ch) (hmore ch)

/-- At the end of a run no HOLDING window is left, and what was handed out are trigger events. -/
theorem resolveHolding_leaves (i : InputId) (s : State) :
    (∀ w ∈ (s.endRun i none).windows[i], w.phase ≠ .holding ∧ w ∈ s.windows[i]) ∧
      (TriggersOnly s.agenda → TriggersOnly (s.endRun i none).agenda) := by
  show (∀ w ∈ (State.resolveHolding _ i s).windows[i], _) ∧ (_ → TriggersOnly (State.resolveHolding _ i s).agenda)
  refine resolveHolding_ends (R := fun s t => (∀ w ∈ t.windows[i], w.phase ≠ .holding ∧ w ∈ s.windows[i]) ∧
    (TriggersOnly s.agenda → TriggersOnly t.agenda)) i (fun s hnone => ⟨fun w hw => ⟨fun hphase => ?_, hw⟩, id⟩)
    (fun s s1 w t _ _ hs1 ⟨hwindows, hagenda⟩ => ⟨fun x hx => ?_, fun hs => hagenda ?_⟩) _ s (Nat.le_refl _)
  · have hin := (mem_holding s i w).mpr ⟨hw, hphase⟩
    rw [hnone] at hin
    cases hin
  · obtain ⟨hphase, hin⟩ := hwindows x hx
    rw [resolveWindow_own] at hin
    have hsame : s1.windows = s.windows := hs1 .windows (by decide)
    exact ⟨hphase, hsame ▸ (List.mem_filter.mp hin).1⟩
  · refine resolveWindow_triggers s1 i _ _ ?_
    have hsame : s1.agenda = s.agenda := hs1 .agenda (by decide)
    rw [hsame]
    exact hs

/-! ### Samples of a run (R136) -/

section
variable {s : State} {i : InputId} {r : Run} (h : s.awaitsSample i r)
include h

theorem exec_runSample_awaits : exec (.runSample i) s = (s.sample i r r.candidate).done := by
  show (s.sampleCandidate i).done = _
  rw [State.sampleCandidate, runDue_of_awaits h]

theorem exec_runAbandoned_awaits : exec (.runAbandoned i) s = (s.sample i r r.candidate.flip).done := by
  show (s.sampleAccepted i).done = _
  rw [State.sampleAccepted, runDue_of_awaits h]

theorem exec_transition_awaits : exec (.acceptedTransition i) s = exec (.runSample i) s := by
  obtain ⟨hrun, _⟩ := h
  have hsome : s.inputs[i].run.isSome = true := by rw [hrun]; rfl
  show (s.transition i).done = (s.sampleCandidate i).done
  rw [State.transition, if_pos hsome]

end

theorem sample_counts {s : State} {i : InputId} {r : Run} (h : r.count + 1 < s.inputs[i].stable) :
    s.sample i r r.candidate = { s with
      pins := tset s.pins i r.candidate
      inputs := tset s.inputs i { s.inputs[i] with run := some { r with count := r.count + 1 }, mark := .taken } } := by
  rw [State.sample, if_pos rfl, if_neg (Nat.not_le.mpr h)]
  rfl

theorem sample_accepts {s : State} {i : InputId} {r : Run} (h : s.inputs[i].stable ≤ r.count + 1) :
    s.sample i r r.candidate = (s.showPin i r.candidate).accept i r.candidate r.capture := by
  rw [State.sample, if_pos rfl, if_pos h]

/-- R136: the state in which a run has been abandoned. -/
def State.runEnded (s : State) (i : InputId) (level : Level) : State :=
  { s with pins := tset s.pins i level, inputs := tset s.inputs i { s.inputs[i] with run := none, mark := .taken } }

theorem sample_abandons (s : State) (i : InputId) (r : Run) : s.sample i r r.candidate.flip =
    if s.inputs[i].role = .confirm then (s.runEnded i r.candidate.flip).endRun i none
    else s.runEnded i r.candidate.flip := by
  rw [State.sample, if_neg (flip_ne _)]
  rfl

section
variable {s : State} {i : InputId} (h : ∀ r, ¬ s.awaitsSample i r)
include h

theorem samples_rest : s.sampleCandidate i = s ∧ s.sampleAccepted i = s := by
  rw [State.sampleCandidate, State.sampleAccepted, runDue_eq_none.mpr h]
  exact ⟨rfl, rfl⟩

theorem transition_rests (hr : s.inputs[i].run ≠ none ∨ s.inputs[i].filterOn = true ∨ s.inputs[i].mark ≠ .due) :
    s.transition i = s := by
  rw [State.transition]
  by_cases hrun : s.inputs[i].run.isSome = true
  · rw [if_pos hrun]
    exact (samples_rest h).1
  · rw [if_neg hrun, if_pos (hr.resolve_left fun hne => hrun (Option.isSome_iff_ne_none.mpr hne))]

end

/-- Settles O37: the samples of a run, by what they show; on a CONFIRM input the HOLDING windows go with the run. -/
theorem runCountsAcceptsOrEnds : Obligations.RunCountsAcceptsOrEnds := by
  refine ⟨fun s i r hq hawaits => ?_, fun s i hq hnone => ?_, fun s i r ha hawaits hrole => ?_⟩
  · intro x put
    have hput (raw : Level) (y : Input) : State.done (put raw y) = .next (put raw y) := done_quiet (put raw y) hq
    refine ⟨fun hcount => ?_, exec_transition_awaits hawaits, fun hstable hrole => ?_, fun hrole => ?_⟩
    · rw [exec_runSample_awaits hawaits, sample_counts hcount]
      exact hput _ _
    · rw [exec_runSample_awaits hawaits, sample_accepts hstable, accept_unused _ _ hrole]
      exact hput _ _
    · rw [exec_runAbandoned_awaits hawaits, sample_abandons, if_neg hrole]
      exact hput _ _
  · obtain ⟨hcandidate, haccepted⟩ := samples_rest hnone
    refine ⟨?_, ?_, fun hr => ?_⟩
    · show (s.sampleCandidate i).done = _
      rw [hcandidate]
      exact done_quiet s hq
    · show (s.sampleAccepted i).done = _
      rw [haccepted]
      exact done_quiet s hq
    · show (s.transition i).done = _
      rw [transition_rests hnone hr]
      exact done_quiet s hq
  · let u := s.runEnded i r.candidate.flip
    have hexec : exec (.runAbandoned i) s = State.done (u.endRun i none) := by
      rw [exec_runAbandoned_awaits hawaits, sample_abandons, if_pos hrole]
    refine ⟨hexec, _, hexec, ?_⟩
    obtain ⟨hwindows, htriggers⟩ := resolveHolding_leaves i u
    have hagenda : TriggersOnly u.agenda := by
      show TriggersOnly s.agenda
      rw [ha]
      exact fun ch hch => absurd hch List.not_mem_nil
    obtain ⟨hchanges, _⟩ := triggers_finish (htriggers hagenda)
    have hinputs : (u.endRun i none).finish.inputs = u.inputs :=
      (hchanges .inputs (by decide)).trans (endRun_changes u i none .inputs (by decide))
    have hsame : (u.endRun i none).finish.windows = (u.endRun i none).windows := hchanges .windows (by decide)
    have hrow : u.inputs[i] = { s.inputs[i] with run := none, mark := .taken } := tset_get_self _ _ _
    refine ⟨?_, ?_, fun w hw => ?_⟩
    · rw [hinputs, hrow]
    · rw [hinputs, hrow]
    · rw [hsame] at hw
      exact hwindows w hw

end Sys2Proof.Machine
end

section
/-! SUPPORT. Edges of GENERAL and CONFIRM inputs (R86 to R88, R90, R139, R141, R165). -/

namespace Sys2Proof.Machine

/-! ### GENERAL inputs (R141) -/

theorem takes_iff (x : EdgeSelect) (e : Edge) : x.takes e = true ↔
    x = .both ∨ (x = .activate ∧ e = .activation) ∨ (x = .deactivate ∧ e = .deactivation) := by
  cases x <;> cases e <;> simp [EdgeSelect.takes]

/-- A trigger event that no enabled reaction waits for ends its moment. -/
theorem unmatched_trigger_done {v : State} {te : TriggerEvent} (ha : v.agenda = []) (hbusy : v.link.transmitter ≠ .idle)
    (h : v.matching te = []) : (v.push [.trigger te]).done = .next v := by
  have hpushed : (v.push [.trigger te]).agenda = [[.trigger te]] := by
    show v.agenda ++ [[Event.trigger te]] = _
    rw [ha, List.nil_append]
  have hback : (v.push [.trigger te]).withAgenda [] = v := by
    rw [← ha]
    rfl
  have hquiet : v.quiet := ⟨ha, Or.inl hbusy⟩
  exact done_single hpushed ((congrArg (fun w => w.handle (.trigger te)) hback).trans (takeTrigger_unmatched h)) hquiet

theorem matching_input_nil {s : State} {i : InputId} (e : Edge)
    (h : ∀ r : ReactionId, s.reactions[r].enabled = true → s.reactions[r].trigger ≠ .input i) :
    s.matching (.input i e) = [] := by
  refine (matching_nil_iff s _).mpr fun r hr => Bool.eq_false_iff.mpr fun hm => h r hr ?_
  obtain ⟨j, edge, heq, ht⟩ | ⟨k, heq, _⟩ | ⟨l, q, heq, _⟩ | ⟨l, heq, _⟩ := (matchedBy_iff _ _).mp hm
  · cases heq
    exact ht
  · cases heq
  · cases heq
  · cases heq

/-- Settles O38: an edge of a GENERAL input, by its edge select, the enable bit and the room of the queue. -/
theorem generalEdgeGivesItsNotice : Obligations.GeneralEdgeGivesItsNotice := by
  intro s i level c ha hbusy hrole haccepts hreactions edge u taken
  have hexec : exec (.acceptedTransition i) s = (u.deliverGeneral i edge c).done := by
    rw [exec_acceptedTransition haccepts, accept_general _ _ hrole]
    rfl
  have htakes : u.inputs[i].edge.takes edge = true ↔ taken := by
    rw [accepted_input]
    exact takes_iff _ _
  have hdone (n : Notices) :
      (State.push { u with notices := n } [.trigger (.input i edge)]).done = .next { u with notices := n } :=
    unmatched_trigger_done (v := { u with notices := n }) ha hbusy (matching_input_nil edge hreactions)
  have hquiet : u.quiet := ⟨ha, Or.inl hbusy⟩
  refine ⟨fun h => ?_, fun ht hon hroom => ?_, fun ht hon hfull => ?_⟩
  · rw [hexec]
    by_cases ht : taken
    · rw [deliverGeneral_silent c (htakes.mpr ht) (h.resolve_left (not_not_intro ht))]
      exact hdone s.notices
    · rw [deliverGeneral_ignored c (Bool.eq_false_iff.mpr (ht ∘ htakes.mp))]
      exact done_quiet u hquiet
  · rw [hexec, deliverGeneral_notice c (htakes.mpr ht) hon, produce_room (s := u) .input _ hroom]
    exact hdone _
  · rw [hexec, deliverGeneral_notice c (htakes.mpr ht) hon, produce_full (s := u) .input _ hfull]
    exact hdone _

/-! ### CONFIRM inputs (R86 to R88, R139) -/

theorem confirmEdge_found {s : State} {i : InputId} {c : Capture} {w : Window}
    (h : s.windows[i].find? (fun w => w.contains c.bp) = some w) :
    s.confirmEdge i c = s.resolveWindow i w.rid w.expect.matched := by
  rw [State.confirmEdge, h]

theorem confirmEdge_stray {s : State} {i : InputId} {c : Capture}
    (h : s.windows[i].find? (fun w => w.contains c.bp) = none) : s.confirmEdge i c = s.stray i c := by
  rw [State.confirmEdge, h]

theorem stray_off {s : State} (i : InputId) (c : Capture) (h : s.notices.settings.confirmOn = false) : s.stray i c = s :=
  if_neg (Bool.eq_false_iff.mp h)

theorem stray_on {s : State} (i : InputId) (c : Capture) (h : s.notices.settings.confirmOn = true) :
    s.stray i c = s.produce .stray (natByte i :: (wordBytes c.bp ++ wordBytes c.ts)) :=
  if_pos h

theorem endRun_none {s : State} {i : InputId} (h : ∀ w ∈ s.windows[i], w.phase ≠ .holding) : s.endRun i none = s := by
  have hnone : s.holding i = [] := List.eq_nil_iff_forall_not_mem.mpr fun w hw => by
    obtain ⟨hin, hphase⟩ := (mem_holding s i w).mp hw
    exact h w hin hphase
  show State.resolveHolding (s.holding i).length i s = s
  rw [hnone]
  rfl

theorem endRun_some (s : State) (i : InputId) (c : Capture) : s.endRun i (some c) = (s.confirmEdge i c).endRun i none := rfl

theorem edgeTo_activation (x : Input) (level : Level) : x.edgeTo level = .activation ↔ level = x.active := by
  rw [Input.edgeTo]
  by_cases h : level = x.active
  · simp [h]
  · simp [h]

/-- R86, R139: an accepted transition of a CONFIRM input is a confirmation edge when it activates under fresh travel. -/
theorem exec_confirmTransition {s : State} {i : InputId} {level : Level} {c : Capture}
    (hrole : s.inputs[i].role = .confirm) (haccepts : s.acceptsAs i level c) :
    exec (.acceptedTransition i) s = ((s.accepted i level).endRun i
      (if level = s.inputs[i].active ∧ c.rd.toInt ≤ (c.ft.toNat : Int) then some c else none)).done := by
  have hfresh : (s.inputs[i].edgeTo level = .activation ∧ c.fresh = true) ↔
      (level = s.inputs[i].active ∧ c.rd.toInt ≤ (c.ft.toNat : Int)) := by
    rw [edgeTo_activation, Capture.fresh, decide_eq_true_eq]
  rw [exec_acceptedTransition haccepts, accept_confirm _ _ hrole, State.deliverConfirm]
  simp only [hfresh]

/-- Settles O39: the edge, by the captured travel, and what it finds in the window list. -/
theorem confirmationEdgeMatchesTheOldestWindow : Obligations.ConfirmationEdgeMatchesTheOldestWindow := by
  refine ⟨fun s i level c hrole haccepts => ?_, fun s i c => ?_, ?_⟩
  · intro u fresh
    refine ⟨fun h => ?_, fun h => ?_⟩
    · rw [exec_confirmTransition hrole haccepts, if_pos h, endRun_some]
    · rw [exec_confirmTransition hrole haccepts, if_neg h]
      refine ⟨rfl, fun hq hwindows => ?_⟩
      have hquiet : u.quiet := hq
      exact (congrArg State.done (endRun_none (s := u) hwindows)).trans (done_quiet u hquiet)
  · intro holds
    refine ⟨fun w hw => ?_, fun hnone => ⟨fun hoff => ?_, fun hon hroom => ?_, fun hon hfull => ?_⟩⟩
    · exact (confirmEdge_found hw).trans (resolveWindow_eq _ _ _ _)
    · rw [confirmEdge_stray hnone, stray_off i c hoff]
    · rw [confirmEdge_stray hnone, stray_on i c hon, produce_room .stray _ hroom]
      rfl
    · rw [confirmEdge_stray hnone, stray_on i c hon, produce_full .stray _ hfull]
      rfl
  · intro s i c ha ok hrole haccepts hfresh hwindows holds u
    have hexec : exec (.acceptedTransition i) s = ((u.confirmEdge i c).endRun i none).done := by
      rw [exec_confirmTransition hrole haccepts, if_pos ⟨rfl, hfresh⟩, endRun_some]
    refine ⟨fun w hw => ?_, fun hnone hbusy => ?_⟩
    · let v := u.resolveWindow i w.rid w.expect.matched
      have hv : v.windows[i] = s.windows[i].filter (fun v => v.rid ≠ w.rid) := resolveWindow_own u i _ _
      have hrest : v.endRun i none = v :=
        endRun_none fun x hx => hwindows x (List.mem_filter.mp (hv ▸ hx)).1
      have hdone : exec (.acceptedTransition i) s = v.done := by
        rw [hexec, show u.confirmEdge i c = v from confirmEdge_found hw, hrest]
      have hagenda : TriggersOnly u.agenda := by
        show TriggersOnly s.agenda
        rw [ha]
        exact fun ch hch => absurd hch List.not_mem_nil
      obtain ⟨hchanges, hqueues, _⟩ := triggers_finish (resolveWindow_triggers u i w.rid w.expect.matched hagenda)
      have hsame : v.finish.windows = v.windows := hchanges .windows (by decide)
      refine ⟨v.finish, hdone, by rw [hsame]; exact hv, fun l it hit hrid => ?_⟩
      obtain ⟨x, hx, hxit⟩ := resolveWindow_record (s := u) ok i w.rid w.expect.matched hit
      rw [if_pos hrid] at hxit
      obtain ⟨y, hy, hyx⟩ := mem_of_sansFlags (hqueues l).symm hx
      exact ⟨y, hy, hyx.trans hxit⟩
    · have hstray : u.confirmEdge i c = u.stray i c := confirmEdge_stray hnone
      have hchanges := stray_changes u i c
      have hrest : (u.stray i c).endRun i none = u.stray i c := endRun_none fun x hx => by
        have hsame : (u.stray i c).windows = u.windows := hchanges .windows (by decide)
        rw [hsame] at hx
        exact hwindows x hx
      have hlink : (u.stray i c).link = s.link := hchanges .link (by decide)
      have hquiet : (u.stray i c).quiet :=
        ⟨(hchanges .agenda (by decide)).trans ha, Or.inl (by rw [hlink]; exact hbusy)⟩
      rw [hexec, hstray, hrest]
      exact done_quiet _ hquiet

end Sys2Proof.Machine
end

section
/-! SUPPORT. Windows open, close and hold (R84, R85, R89 to R91). -/

namespace Sys2Proof.Machine

/-! ### One window (R85, R89) -/

section
variable {s : State} {i : InputId} {w : Window} (hw : w ∈ s.windows[i]) (honly : ∀ v ∈ s.windows[i], v.rid = w.rid → v = w)
include hw honly

theorem findWindow_only : s.findWindow i w.rid = some w :=
  find_of_unique hw (decide_eq_true rfl) fun v hv h => honly v hv (of_decide_eq_true h)

omit hw in
theorem setPhase_only (p : WindowPhase) : s.setPhase i w.rid p = { s with
    windows := tset s.windows i (s.windows[i].map (fun v => if v.rid = w.rid then { w with phase := p } else v)) } := by
  have hmap : s.windows[i].map (fun v => if v.rid = w.rid then { v with phase := p } else v) =
      s.windows[i].map (fun v => if v.rid = w.rid then { w with phase := p } else v) := by
    refine List.map_congr_left fun v hv => ?_
    by_cases h : v.rid = w.rid
    · rw [if_pos h, if_pos h, honly v hv h]
    · rw [if_neg h, if_neg h]
  show { s with windows := tset s.windows i (s.windows[i].map _) } = _
  rw [hmap]

theorem openWindow_due (hphase : w.phase = .pending) (h : 0 ≤ (s.position.hw - w.openPos).toInt) :
    s.openWindow i w.rid = s.setPhase i w.rid .opened := by
  rw [State.openWindow, findWindow_only hw honly]
  exact if_pos ⟨hphase, (reached_iff _ _).mpr h⟩

theorem openWindow_rests (h : w.phase ≠ .pending ∨ (s.position.hw - w.openPos).toInt < 0) : s.openWindow i w.rid = s := by
  rw [State.openWindow, findWindow_only hw honly]
  refine if_neg fun ⟨hphase, hreached⟩ => ?_
  exact absurd ((reached_iff _ _).mp hreached) (Int.not_le.mpr (h.resolve_left (not_not_intro hphase)))

theorem closeWindow_due (hphase : w.phase = .opened) (h : 0 ≤ (s.position.hw - (w.closePos + 1)).toInt) :
    s.closeWindow i w.rid = if s.inputs[i].run.isSome then s.setPhase i w.rid .holding
      else s.resolveWindow i w.rid w.expect.unmatched := by
  rw [State.closeWindow, findWindow_only hw honly]
  exact if_pos ⟨hphase, (reached_iff _ _).mpr h⟩

theorem closeWindow_rests (h : w.phase ≠ .opened ∨ (s.position.hw - (w.closePos + 1)).toInt < 0) :
    s.closeWindow i w.rid = s := by
  rw [State.closeWindow, findWindow_only hw honly]
  refine if_neg fun ⟨hphase, hreached⟩ => ?_
  exact absurd ((reached_iff _ _).mp hreached) (Int.not_le.mpr (h.resolve_left (not_not_intro hphase)))

end

/-! ### The end of a run (R90) -/

/-- What the end of a run leaves of the windows and of the records in the queues. -/
structure State.RunEnds (i : InputId) (s t : State) : Prop where
  own : (s.windows[i].map (·.rid)).Nodup → t.windows[i] = s.windows[i].filter (fun w => w.phase ≠ .holding)
  others : ∀ j : InputId, j ≠ i → t.windows[j] = s.windows[j]
  resolved : s.items.Ok → (s.windows[i].map (·.rid)).Nodup → ∀ w ∈ s.windows[i], w.phase = .holding →
    ∀ l : LaneId, ∀ it ∈ s.items.queues[l], it.rid = w.rid →
      ∃ it' ∈ t.items.queues[l], it'.sansFlags = (it.endConfirm w.expect.unmatched).sansFlags
  kept : s.items.Ok → ∀ l : LaneId, ∀ it ∈ s.items.queues[l],
    (∀ w ∈ s.windows[i], w.phase = .holding → w.rid ≠ it.rid) → ∃ it' ∈ t.items.queues[l], it'.sansFlags = it.sansFlags

theorem State.RunEnds.rests {s : State} {i : InputId} (h : s.holding i = []) : s.RunEnds i s := by
  have hnone (w : Window) (hw : w ∈ s.windows[i]) : w.phase ≠ .holding := fun hphase => by
    have hin := (mem_holding s i w).mpr ⟨hw, hphase⟩
    rw [h] at hin
    cases hin
  exact ⟨fun _ => (List.filter_eq_self.mpr fun w hw => decide_eq_true (hnone w hw)).symm, fun _ _ => rfl,
    fun _ _ w hw hphase => absurd hphase (hnone w hw), fun _ l it hit _ => ⟨it, hit, rfl⟩⟩

theorem State.RunEnds.resolves {s u t : State} {i : InputId} {w : Window} (hw : w ∈ s.windows[i])
    (hphase : w.phase = .holding) (hu : OnlyChanges [.choices] s u)
    (h : (u.resolveWindow i w.rid w.expect.unmatched).RunEnds i t) : s.RunEnds i t := by
  have hwindows : u.windows = s.windows := hu .windows (by decide)
  have hitems : u.items = s.items := hu .items (by decide)
  have hown : (u.resolveWindow i w.rid w.expect.unmatched).windows[i] = s.windows[i].filter (fun v => v.rid ≠ w.rid) := by
    rw [resolveWindow_own, hwindows]
  have hok (ok : s.items.Ok) : (u.resolveWindow i w.rid w.expect.unmatched).items.Ok :=
    resolveWindow_itemsOk (by rw [hitems]; exact ok) i _ _
  have hnodup (hn : (s.windows[i].map (·.rid)).Nodup) :
      ((u.resolveWindow i w.rid w.expect.unmatched).windows[i].map (·.rid)).Nodup := by
    rw [hown]
    exact hn.sublist (List.filter_sublist.map _)
  have hrecord (ok : s.items.Ok) {l : LaneId} {it : Item} (hit : it ∈ s.items.queues[l]) :
      ∃ x ∈ (u.resolveWindow i w.rid w.expect.unmatched).items.queues[l],
        x.sansFlags = (if it.rid = w.rid then it.endConfirm w.expect.unmatched else it).sansFlags :=
    resolveWindow_record (by rw [hitems]; exact ok) i _ _ (by rw [hitems]; exact hit)
  refine ⟨fun hn => ?_, fun j hj => ?_, fun ok hn v hv hvphase l it hit hrid => ?_, fun ok l it hit hnone => ?_⟩
  · rw [h.own (hnodup hn), hown, List.filter_filter]
    refine List.filter_congr fun v hv => ?_
    by_cases hvp : v.phase = .holding
    · simp [hvp]
    · have hne : v.rid ≠ w.rid := fun he => hvp (by rw [List.inj_on_of_nodup_map hn hv hw he]; exact hphase)
      simp [hne]
  · rw [h.others j hj, resolveWindow_other u hj, hwindows]
  · obtain ⟨x, hx, hxit⟩ := hrecord ok hit
    by_cases hsame : it.rid = w.rid
    · obtain rfl := List.inj_on_of_nodup_map hn hv hw (hrid.symm.trans hsame)
      rw [if_pos hsame] at hxit
      obtain ⟨y, hy, hyx⟩ := h.kept (hok ok) l x hx fun z hz _ => by
        rw [hown] at hz
        have hxr : x.rid = it.rid := (sansFlags_rid hxit).trans rfl
        rw [hxr, hsame]
        exact of_decide_eq_true (List.mem_filter.mp hz).2
      exact ⟨y, hy, hyx.trans hxit⟩
    · rw [if_neg hsame] at hxit
      have hin : v ∈ (u.resolveWindow i w.rid w.expect.unmatched).windows[i] := by
        rw [hown]
        exact List.mem_filter.mpr ⟨hv, decide_eq_true fun he => hsame (hrid.trans he)⟩
      obtain ⟨y, hy, hyx⟩ := h.resolved (hok ok) (hnodup hn) v hin hvphase l x hx ((sansFlags_rid hxit).trans hrid)
      exact ⟨y, hy, hyx.trans (endConfirm_sansFlags hxit _)⟩
  · obtain ⟨x, hx, hxit⟩ := hrecord ok hit
    rw [if_neg (hnone w hw hphase).symm] at hxit
    obtain ⟨y, hy, hyx⟩ := h.kept (hok ok) l x hx fun z hz hzp => by
      rw [hown] at hz
      rw [sansFlags_rid hxit]
      exact hnone z (List.mem_filter.mp hz).1 hzp
    exact ⟨y, hy, hyx.trans hxit⟩

theorem endRun_ends (s : State) (i : InputId) : s.RunEnds i (s.endRun i none) :=
  resolveHolding_ends (R := State.RunEnds i) i (fun _ h => .rests h)
    (fun _ _ _ _ hw hphase hu h => .resolves hw hphase hu h) _ s (Nat.le_refl _)

/-! ### Confirm results (R91) -/

theorem endConfirm_confirm (it : Item) (r : ConfirmResult) : (it.endConfirm r).confirm = it.confirm.map (·.ends r) := by
  rw [Item.endConfirm, Item.mapCommitted, Item.confirm, Item.confirm]
  cases it.committed <;> rfl

theorem endConfirm_result (it : Item) (r : ConfirmResult) : (it.endConfirm r).confirmResult =
    if it.confirmResult = some .waiting then some r else it.confirmResult := by
  rw [Item.confirmResult, Item.confirmResult, endConfirm_confirm]
  cases it.confirm with
  | none => rfl
  | some c =>
    show some (c.ends r).result = if some c.result = some .waiting then some r else some c.result
    rw [CommittedConfirm.ends]
    by_cases h : c.result = .waiting
    · rw [if_pos h, if_pos (congrArg some h)]
    · rw [if_neg h, if_neg (h ∘ Option.some.inj)]

/-- Settles O40: one window at its positions, and the HOLDING windows at the end of a run. -/
theorem windowsOpenCloseAndHold : Obligations.WindowsOpenCloseAndHold := by
  refine ⟨fun s i w hw honly => ?_, fun s i ok hnodup => ?_, endConfirm_result⟩
  · intro inPhase resolved
    refine ⟨fun hphase h => (openWindow_due hw honly hphase h).trans (setPhase_only honly _),
      openWindow_rests hw honly, fun hphase h => ⟨fun hrun => ?_, fun hrun => ?_⟩, closeWindow_rests hw honly⟩
    · rw [closeWindow_due hw honly hphase h, if_pos (Option.isSome_iff_ne_none.mpr hrun)]
      exact setPhase_only honly _
    · rw [closeWindow_due hw honly hphase h, hrun]
      exact resolveWindow_eq s i w.rid w.expect.unmatched
  · intro t
    have hends := endRun_ends s i
    exact ⟨hends.own hnodup, hends.others, hends.resolved ok hnodup, fun c => rfl⟩

end Sys2Proof.Machine
end

section
/-! SUPPORT. SET_LANE (R98, R99). -/

namespace Sys2Proof.Machine

/-! ### The fields (R98, R190) -/

theorem absentOr_none_iff (n : Nat) (b : Byte) : absentOr n b = none ↔ n ≤ b.toNat ∧ b ≠ 0xFF := by
  rw [absentOr]
  by_cases h : b = absentByte
  · rw [if_pos h]
    exact ⟨nofun, fun ⟨_, hne⟩ => absurd h hne⟩
  · rw [if_neg h, Option.map_eq_none_iff, finOf_none_iff]
    exact ⟨fun hn => ⟨hn, h⟩, And.left⟩

theorem absentOr_some {n : Nat} {b : Byte} {e : Option (Fin n)} (hn : n ≤ 255) (h : absentOr n b = some e) (i : Fin n) :
    e = some i ↔ b = natByte i := by
  rw [absentOr] at h
  by_cases hb : b = absentByte
  · rw [if_pos hb] at h
    cases h
    refine ⟨nofun, fun hi => absurd (congrArg BitVec.toNat (hb.symm.trans hi)) ?_⟩
    have hlt := i.isLt
    rw [toNat_natByte (by omega)]
    show 255 ≠ i.val
    omega
  · rw [if_neg hb, Option.map_eq_some_iff] at h
    obtain ⟨j, hj, rfl⟩ := h
    rw [Option.some_inj, ← finOf_some_iff (by omega), hj, Option.some_inj]

theorem stationOf_none_iff (f : StationField) : stationOf f = none ↔
    f.offset ≠ 0xFFFFFFFF ∧ (f.offset = 0 ∨ 1048575 < f.offset.toNat ∨ 15 < f.output.toNat) := by
  have hzero : f.offset = 0 ↔ f.offset.toNat = 0 := by
    rw [← BitVec.toNat_inj]
    rfl
  rw [stationOf]
  by_cases habsent : f.offset = absentWord
  · rw [if_pos habsent]
    exact ⟨nofun, fun ⟨hne, _⟩ => absurd habsent hne⟩
  · rw [if_neg habsent, hzero]
    cases ho : finOf 16 f.output with
    | none => exact ⟨fun _ => ⟨habsent, Or.inr (Or.inr ((finOf_none_iff _ _).mp ho))⟩, fun _ => rfl⟩
    | some o =>
      have hout : ¬ 15 < f.output.toNat := fun hbad => by rw [finOf_none hbad] at ho; cases ho
      show (if 1 ≤ f.offset.toNat ∧ f.offset.toNat ≤ 1048575 then _ else none) = none ↔ _
      split
      · next hrange => exact ⟨nofun, fun ⟨_, hbad⟩ => by omega⟩
      · next hrange => exact ⟨fun _ => ⟨habsent, by omega⟩, fun _ => rfl⟩

theorem stationOf_some {f : StationField} {x : Option Station} (h : stationOf f = some x) :
    (x = none ↔ f.offset = 0xFFFFFFFF) ∧
      ∀ st, x = some st → st.offset = f.offset.toNat ∧ f.output = natByte st.output := by
  rw [stationOf] at h
  by_cases habsent : f.offset = absentWord
  · rw [if_pos habsent] at h
    cases h
    exact ⟨⟨fun _ => habsent, fun _ => rfl⟩, nofun⟩
  · rw [if_neg habsent] at h
    cases ho : finOf 16 f.output with
    | none =>
      rw [ho] at h
      cases h
    | some o =>
      rw [ho] at h
      have hif : (if 1 ≤ f.offset.toNat ∧ f.offset.toNat ≤ maxOffset then
          some (some ({ offset := f.offset.toNat, output := o } : Station)) else none) = some x := h
      split at hif
      · cases hif
        refine ⟨⟨nofun, fun hall => absurd hall habsent⟩, fun st hst => ?_⟩
        cases hst
        exact ⟨rfl, (finOf_some_iff (by decide) _ _).mp ho⟩
      · cases hif

/-! ### The whole payload (R98, R99) -/

theorem laneConfigOf_some {f : LaneFields} {c : LaneConfig} (h : laneConfigOf f = some c) : (f.d.toNat ≤ maxOffset ∧ f.x.toNat ≤ maxOffset ∧
      f.l.toNat ≤ maxOffset ∧ 1 ≤ f.limit.toNat ∧ f.limit.toNat ≤ 192 ∧ f.holdMark.toNat ≤ 192) ∧
    ∃ s0 s1 s2 s3, absentOr 16 f.entryInput = some c.entryInput ∧ stationOf f.station0 = some s0 ∧
      stationOf f.station1 = some s1 ∧ stationOf f.station2 = some s2 ∧ stationOf f.station3 = some s3 ∧
      finOf 16 f.default = some c.default ∧ absentOr 16 f.holdOutput = some c.holdOutput ∧
      c = { entryInput := c.entryInput, d := f.d.toNat, x := f.x.toNat, l := f.l.toNat, stations := #v[s0, s1, s2, s3]
            default := c.default, limit := f.limit.toNat, holdOutput := c.holdOutput, holdMark := f.holdMark.toNat } := by
  rw [laneConfigOf] at h
  split at h
  · next entry s0 s1 s2 s3 dflt hold he h0 h1 h2 h3 hd hh =>
    split at h
    · next hrange =>
      cases h
      exact ⟨hrange, s0, s1, s2, s3, he, h0, h1, h2, h3, hd, hh, rfl⟩
    · cases h
  · cases h

theorem laneConfigOf_none_iff (f : LaneFields) : laneConfigOf f = none ↔
    absentOr 16 f.entryInput = none ∨ ¬ f.d.toNat ≤ maxOffset ∨ ¬ f.x.toNat ≤ maxOffset ∨ ¬ f.l.toNat ≤ maxOffset ∨
      (∃ st ∈ [f.station0, f.station1, f.station2, f.station3], stationOf st = none) ∨ finOf 16 f.default = none ∨
      ¬ 1 ≤ f.limit.toNat ∨ ¬ f.limit.toNat ≤ 192 ∨ absentOr 16 f.holdOutput = none ∨ ¬ f.holdMark.toNat ≤ 192 := by
  constructor
  · intro h
    by_contra hnot
    simp only [not_or, Option.ne_none_iff_exists', not_not, not_exists, not_and] at hnot
    obtain ⟨⟨entry, he⟩, hd', hx, hl, hstations, ⟨dflt, hd⟩, hlow, hhigh, ⟨hold, hh⟩, hmark⟩ := hnot
    obtain ⟨s0, h0⟩ := hstations f.station0 (by simp)
    obtain ⟨s1, h1⟩ := hstations f.station1 (by simp)
    obtain ⟨s2, h2⟩ := hstations f.station2 (by simp)
    obtain ⟨s3, h3⟩ := hstations f.station3 (by simp)
    rw [laneConfigOf, he, h0, h1, h2, h3, hd, hh] at h
    exact absurd ((if_pos ⟨hd', hx, hl, hlow, hhigh, hmark⟩).symm.trans h) nofun
  · intro h
    cases hc : laneConfigOf f with
    | none => rfl
    | some c =>
      obtain ⟨⟨hd', hx, hl, hlow, hhigh, hmark⟩, s0, s1, s2, s3, he, h0, h1, h2, h3, hd, hh, _⟩ := laneConfigOf_some hc
      simp [he, h0, h1, h2, h3, hd, hh, hd', hx, hl, hlow, hhigh, hmark] at h

theorem reqSetLane_coded (s : State) (l : LaneId) {f : LaneFields} {c : LaneConfig} (h : laneConfigOf f = some c) :
    s.reqSetLane (natByte l) f = if s.lanes[l].live then s.refuse .wrongState
      else ([Status.ok.code], s.mapLane l (fun x => { x with config := c })) := by
  rw [State.reqSetLane, named_natByte s l (by decide), h]

theorem reqSetLane_bad (s : State) {lane : Byte} {f : LaneFields} (h : 3 < lane.toNat ∨ laneConfigOf f = none) :
    s.reqSetLane lane f = s.refuse .badValue := by
  rw [State.reqSetLane, State.named]
  cases hl : finOf 4 lane with
  | none => rfl
  | some l =>
    obtain hbad | hbad := h
    · rw [finOf_none (by omega)] at hl
      cases hl
    · simp only [hbad]

/-- Settles O41: the fields one by one, and the request by them and the lane's state. -/
theorem setLaneWritesAnOffLane : Obligations.SetLaneWritesAnOffLane := by
  refine ⟨fun f => ?_, fun f c hc => ?_, fun s seq lane f hs => ⟨fun hbad => ?_, ?_⟩⟩
  · have hlimit : f.limit = 0 ↔ f.limit.toNat < 1 := by
      rw [← BitVec.toNat_inj, Nat.lt_one_iff]
      rfl
    simp only [laneConfigOf_none_iff, stationOf_none_iff, absentOr_none_iff, finOf_none_iff, hlimit, Nat.not_le]
    exact Iff.rfl
  · obtain ⟨_, s0, s1, s2, s3, he, h0, h1, h2, h3, hd, hh, hc⟩ := laneConfigOf_some hc
    have hdefault := (finOf_some_iff (by decide) _ _).mp hd
    refine ⟨by rw [hc], by rw [hc], by rw [hc], ?_, by rw [hc], by rw [hc], absentOr_some (by decide) he,
      absentOr_some (by decide) hh, fun k field hfield => ?_⟩
    · rw [hdefault, toNat_natByte (by omega)]
    · have hstations : c.stations = #v[s0, s1, s2, s3] := by rw [hc]
      rw [hstations]
      fin_cases k
      · cases hfield
        exact stationOf_some h0
      · cases hfield
        exact stationOf_some h1
      · cases hfield
        exact stationOf_some h2
      · cases hfield
        exact stationOf_some h3
  · exact request_refused s 0x08 seq _ .badValue hs ((dispatch_setLane _ _ _).trans (reqSetLane_bad _ hbad)) rfl
  · rintro l c rfl hc
    have hreq := (dispatch_setLane s.received (natByte l) f).trans (reqSetLane_coded s.received l hc)
    refine ⟨fun hlive => ?_, fun hoff => ?_⟩
    · exact request_refused s 0x08 seq _ .wrongState hs (hreq.trans (if_pos (decide_eq_true hlive))) rfl
    · have ⟨_, _, _, hagenda⟩ := hs
      refine request_writes s { s with lanes := tset s.lanes l { s.lanes[l] with config := c } } 0x08 seq _ [0] hs
        (hreq.trans (if_neg fun hlive => ?_)) hagenda rfl rfl
      exact of_decide_eq_true hlive hoff

end Sys2Proof.Machine
end

section
/-! SUPPORT. ARM and DISARM (R103 to R106, R108, R115). -/

namespace Sys2Proof.Machine

/-! ### A request that leaves no event of its moment -/

theorem request_leaves {s u : State} {kind seq : Byte} {p payload : List Byte} (h : s.takesNow kind seq)
    (hd : s.received.dispatch kind p = (payload, u)) (ha : u.agenda = []) (hk : (kind = 0x02 && p.isEmpty) = false) :
    s.request kind seq p = .next { u with link := s.link.answered kind seq payload } ∧
      State.repliesWith { u with link := s.link.answered kind seq payload } kind seq payload := by
  refine ⟨?_, _, rfl, rfl⟩
  rw [request_answered s kind seq p h (by rw [hd]; exact ha) hk, hd]

/-! ### The nine checks (R103) -/

theorem allStations_iff (c : LaneConfig) (p : Station → Bool) : c.allStations p = true ↔
    ∀ (k : Fin 4) (st : Station), c.stations[k] = some st → p st = true := by
  rw [LaneConfig.allStations, List.all_eq_true]
  constructor
  · intro h k st hst
    have hmem : some st ∈ c.stations.toList :=
      Vector.mem_toList_iff.mpr (Vector.mem_iff_getElem.mpr ⟨k, k.isLt, hst⟩)
    exact h _ hmem
  · intro h x hx
    obtain ⟨k, hk, rfl⟩ := Vector.mem_iff_getElem.mp (Vector.mem_toList_iff.mp hx)
    cases hst : c.stations[k] with
    | none => rfl
    | some st => exact h ⟨k, hk⟩ st hst

theorem armEntry_iff (s : State) (c : LaneConfig) : s.armEntry c = true ↔
    ∃ i, c.entryInput = some i ∧ s.inputs[i].role = .entry := by
  rw [State.armEntry]
  cases c.entryInput with
  | none => exact ⟨nofun, fun ⟨_, h, _⟩ => nomatch h⟩
  | some i => exact ⟨fun h => ⟨i, rfl, of_decide_eq_true h⟩, fun ⟨_, h, hr⟩ => by cases h; exact decide_eq_true hr⟩

theorem armEntryFree_iff (s : State) (l : LaneId) : s.armEntryFree l = true ↔ ∀ m : LaneId, m ≠ l →
    s.lanes[m].state ≠ .off → s.lanes[m].config.entryInput ≠ s.lanes[l].config.entryInput := by
  rw [State.armEntryFree, List.all_eq_true]
  have hlane (m : LaneId) : (m = l || !s.lanes[m].live ||
      s.lanes[m].config.entryInput ≠ s.lanes[l].config.entryInput) = true ↔ (m ≠ l → s.lanes[m].state ≠ .off →
        s.lanes[m].config.entryInput ≠ s.lanes[l].config.entryInput) := by
    simp only [Bool.or_eq_true, Bool.not_eq_true', decide_eq_true_eq, Lane.live, decide_eq_false_iff_not]
    tauto
  exact ⟨fun h m => (hlane m).mp (h m (mem_allLanes m)), fun h m _ => (hlane m).mpr (h m)⟩

theorem armHold_iff (s : State) (l : LaneId) : s.armHold l = true ↔
    ∀ o, s.lanes[l].config.holdOutput = some o → s.outputs[o].role = .hold ∧ s.outputs[o].lane = natByte l := by
  rw [State.armHold]
  cases s.lanes[l].config.holdOutput with
  | none => exact ⟨fun _ => nofun, fun _ => rfl⟩
  | some o =>
    show (decide _ && decide _) = true ↔ _
    rw [Bool.and_eq_true, decide_eq_true_eq, decide_eq_true_eq]
    exact ⟨fun h _ ho => by cases ho; exact h, fun h => h o rfl⟩

theorem within_iff (p : Position) : (!p.beyondLimit) = true ↔ p.rd.toInt ≤ (p.rl.toNat : Int) := by
  rw [Position.beyondLimit, Bool.not_eq_true', decide_eq_false_iff_not, Int.not_lt]

theorem firstFailing_fails {st : Status} : ∀ {k n : Nat} {cs : List (Status × Bool)}, cs[k]? = some (st, false) →
    (∀ j p, j < k → cs[j]? = some p → p.2 = true) → firstFailing n cs = some (st, n + k)
  | _, _, [], h, _ => nomatch h
  | 0, n, c :: cs, h, _ => by
    cases h
    rfl
  | k + 1, n, (st', ok) :: cs, h, hpass => by
    have hok : ok = true := hpass 0 (st', ok) (Nat.succ_pos k) rfl
    have hrest := firstFailing_fails (n := n + 1) (cs := cs) (by simpa using h)
      fun j p hj hp => hpass (j + 1) p (Nat.succ_lt_succ hj) (by simpa using hp)
    rw [firstFailing, if_pos hok, hrest, Nat.add_right_comm, Nat.add_assoc]

theorem firstFailing_passes : ∀ {n : Nat} {cs : List (Status × Bool)}, (∀ p ∈ cs, p.2 = true) → firstFailing n cs = none
  | _, [], _ => rfl
  | n, (st, ok) :: cs, h => by
    rw [firstFailing, if_pos (h (st, ok) List.mem_cons_self)]
    exact firstFailing_passes fun p hp => h p (List.mem_cons_of_mem _ hp)

/-! ### ARM (R104, R105, R115) -/

theorem armBlanked_eq (s : State) (l : LaneId) : s.armBlanked l = ((match s.lanes[l].config.entryInput with
    | none => false
    | some i => decide (s.inputs[i].accepted = s.inputs[i].active)) && !s.items.queues[l].any (·.covering)) := by
  rw [State.armBlanked]
  cases s.lanes[l].config.entryInput <;> rfl

/-- The lane as an ARM that passes its checks leaves it, but for its notice flag. -/
theorem armLane_lane (s : State) (l : LaneId) : (s.armLane l).lanes[l].sansNotice = Lane.sansNotice { s.lanes[l] with
    state := .run, causes := CauseSet.empty, first := none, untracked := 0, blanked := s.armBlanked l } := by
  refine (toLaneState_lane _ l .run).trans ?_
  rw [mapLane_lanes, tset_get_self]

theorem armLane_others (s : State) (l : LaneId) : s.sameOtherLanes (s.armLane l) l := by
  have hstart : s.sameOtherLanes (State.mapLane { s with position := { s.position with encoderFault := false } } l
      (fun lane => { lane with
        causes := .empty, first := none, untracked := 0, blanked := s.armBlanked l })) l :=
    fun m hm => congrArg Lane.sansNotice (tset_get_ne _ _ _ _ (Ne.symm hm))
  exact hstart.trans (toLaneState_others _ l .run)

theorem armLane_sameRecords (s : State) (l : LaneId) : s.sameRecords (s.armLane l) :=
  (sameRecords_of_items rfl).trans (toLaneState_sameRecords _ l .run)

theorem armLane_noticed (s : State) (l : LaneId) : (s.armLane l).laneNoticed l :=
  toLaneState_noticed _ l .run

theorem armLane_position (s : State) (l : LaneId) :
    (s.armLane l).position = { s.position with encoderFault := false } :=
  toLaneState_changes _ l .run .position (by decide)

theorem armReply_eq (s : State) (l : LaneId) :
    (s.armLane l).armReply l = [0, 1, flagByte [s.armBlanked l]] := by
  have hlane := armLane_lane s l
  have hstate : (s.armLane l).lanes[l].state = .run := sansNotice_state hlane
  have hblanked : (s.armLane l).lanes[l].blanked = s.armBlanked l := (congrArg Lane.blanked hlane : _)
  rw [State.armReply, hstate, hblanked]
  rfl

section
variable (s : State) {l : LaneId}

theorem reqArm_run (h : s.lanes[l].state = .run) : s.reqArm (natByte l) = (s.armReply l, s) := by
  rw [State.reqArm, named_natByte s l (by decide), if_pos h]

theorem reqArm_refused {st : Status} {k : Nat} (h : s.lanes[l].state ≠ .run)
    (hfail : firstFailing 1 (s.armChecks l) = some (st, k)) : s.reqArm (natByte l) = ([st.code, natByte k], s) := by
  rw [State.reqArm, named_natByte s l (by decide), if_neg h, hfail]

theorem reqArm_passes (h : s.lanes[l].state ≠ .run) (hpass : firstFailing 1 (s.armChecks l) = none) :
    s.reqArm (natByte l) = ((s.armLane l).armReply l, s.armLane l) := by
  rw [State.reqArm, named_natByte s l (by decide), if_neg h, hpass]

end

/-- Settles O42: the checks one by one, and the request by their first failure. -/
theorem armChecksThenRuns : Obligations.ArmChecksThenRuns := by
  refine ⟨fun s l => ?_, fun s seq lane hs => ⟨fun hbad => ?_, ?_⟩⟩
  · intro c
    refine ⟨_, _, _, _, _, _, _, _, _, rfl, armEntry_iff s c, armEntryFree_iff s l, ?_, ?_, ?_, ?_, armHold_iff s l,
      Iff.rfl, within_iff s.position⟩
    · simp only [Bool.and_eq_true, decide_eq_true_eq, and_assoc]
      exact Iff.rfl
    · simp only [allStations_iff, Bool.and_eq_true, decide_eq_true_eq]
      exact Iff.rfl
    · simp only [allStations_iff, decide_eq_true_eq]
      exact Iff.rfl
    · simp only [allStations_iff, testHold_eq, Bool.not_eq_true', decide_eq_false_iff_not]
      exact Iff.rfl
  · exact request_refused s 0x0A seq _ .badValue hs ((dispatch_arm _ _).trans (named_bad _ _ (by omega) _)) rfl
  · rintro l rfl
    have hreq := dispatch_arm s.received (natByte l)
    refine ⟨fun hrun => ?_, fun k st hrun hk hbefore => ?_, fun hrun hpass => ?_⟩
    · refine request_reads s 0x0A seq _ _ hs (hreq.trans ((reqArm_run s.received hrun).trans ?_)) rfl
      show ([0, s.lanes[l].state.code, flagByte [s.lanes[l].blanked]], s.received) = _
      rw [hrun]
      rfl
    · have hfail : firstFailing 1 (s.armChecks l) = some (st, k + 1) := by
        rw [firstFailing_fails hk hbefore, Nat.add_comm]
      exact request_reads s 0x0A seq _ _ hs (hreq.trans (reqArm_refused s.received hrun hfail)) rfl
    · intro b
      have ⟨_, _, _, hagenda⟩ := hs
      have hb : s.received.armBlanked l = b := armBlanked_eq s.received l
      have hchanges := armLane_changes s.received l
      have hd := hreq.trans (reqArm_passes s.received hrun (firstFailing_passes hpass))
      rw [armReply_eq, hb] at hd
      obtain ⟨hexec, hreply⟩ := request_leaves hs hd ((hchanges .agenda (by decide)).trans hagenda) rfl
      refine ⟨_, hexec, ?_, armLane_noticed s.received l, armLane_others s.received l, armLane_sameRecords s.received l,
        armLane_position s.received l, hreply, ?_⟩
      · have hlane := armLane_lane s.received l
        rw [hb] at hlane
        exact hlane
      · exact ((received_changes s).mono.trans hchanges.mono).trans (link_changes _ _).mono

/-! ### OFF (R108) -/

/-- R108: the lane without its Advance Verdict list and its entry-blanked flag. -/
def State.unblanked (s : State) (l : LaneId) : State :=
  (s.emptyAdvance l).mapLane l (fun lane => { lane with blanked := false })

theorem unblanked_lane (s : State) (l : LaneId) : (s.unblanked l).lanes[l] = { s.lanes[l] with blanked := false } :=
  tset_get_self _ _ _

theorem unblanked_others (s : State) (l : LaneId) : s.sameOtherLanes (s.unblanked l) l :=
  fun _ hm => congrArg Lane.sansNotice (tset_get_ne _ _ _ _ (Ne.symm hm))

theorem enterOff_idle {s : State} {l : LaneId} (h : s.lanes[l].state = .off) : s.enterOff l = s.unblanked l := by
  have hstate : (s.unblanked l).lanes[l].state = .off := by
    rw [unblanked_lane]
    exact h
  exact if_pos hstate

theorem enterOff_live {s : State} {l : LaneId} (h : s.lanes[l].state ≠ .off) :
    s.enterOff l = (s.unblanked l).toLaneState l .off := by
  have hstate : (s.unblanked l).lanes[l].state ≠ .off := by
    rw [unblanked_lane]
    exact h
  exact if_neg hstate

/-- The lane that enters OFF, but for its notice flag. -/
theorem enterOff_lane (s : State) (l : LaneId) :
    (s.enterOff l).lanes[l].sansNotice = Lane.sansNotice { s.lanes[l] with state := .off, blanked := false } := by
  by_cases h : s.lanes[l].state = .off
  · rw [enterOff_idle h, unblanked_lane, ← h]
  · rw [enterOff_live h, toLaneState_lane, unblanked_lane]

theorem enterOff_others (s : State) (l : LaneId) : s.sameOtherLanes (s.enterOff l) l := by
  by_cases h : s.lanes[l].state = .off
  · rw [enterOff_idle h]
    exact unblanked_others s l
  · rw [enterOff_live h]
    exact (unblanked_others s l).trans (toLaneState_others _ l .off)

theorem enterOff_sameRecords (s : State) (l : LaneId) : s.sameRecords (s.enterOff l) := by
  have hown : s.sameRecords (s.unblanked l) := sameRecords_of_items rfl
  by_cases h : s.lanes[l].state = .off
  · rw [enterOff_idle h]
    exact hown
  · rw [enterOff_live h]
    exact hown.trans (toLaneState_sameRecords _ l .off)

theorem enterOff_verdicts (s : State) (l : LaneId) :
    (s.enterOff l).verdicts = { s.verdicts with advance := tset s.verdicts.advance l [] } := by
  by_cases h : s.lanes[l].state = .off
  · rw [enterOff_idle h]
    rfl
  · rw [enterOff_live h]
    exact toLaneState_changes _ l .off .verdicts (by decide)

theorem enterOff_noticed {s : State} {l : LaneId} (h : s.lanes[l].state ≠ .off) : (s.enterOff l).laneNoticed l := by
  rw [enterOff_live h]
  exact toLaneState_noticed _ l .off

/-! ### DISARM (R106) -/

section
variable (s : State) {l : LaneId}

theorem reqDisarm_keeps (h : s.lanes[l].state = .off ∨ s.lanes[l].state = .drain) :
    s.reqDisarm (natByte l) = ([0, s.lanes[l].state.code], s) := by
  rw [State.reqDisarm, named_natByte s l (by decide)]
  obtain h | h := h
  · rw [h]
    show ([0, s.lanes[l].state.code], s) = _
    rw [h]
  · rw [h]
    show ([0, s.lanes[l].state.code], s) = _
    rw [h]

theorem reqDisarm_stops (h : s.lanes[l].state = .run ∨ s.lanes[l].state = .fault) (hempty : s.items.queues[l] = []) :
    s.reqDisarm (natByte l) = ([0, 0], s.enterOff l) := by
  have hcount : s.queueCount l = 0 := by rw [State.queueCount, hempty]; rfl
  have hstate : (s.enterOff l).lanes[l].state = .off := sansNotice_state (enterOff_lane s l)
  have hreply : (s.enterOff l).disarmReply l = ([0, 0], s.enterOff l) := by
    rw [State.disarmReply, hstate]
    rfl
  rw [State.reqDisarm, named_natByte s l (by decide)]
  obtain h | h := h
  · rw [h]
    exact (if_pos hcount).trans hreply
  · rw [h]
    exact (if_pos hcount).trans hreply

theorem reqDisarm_drains (h : s.lanes[l].state = .run ∨ (s.lanes[l].state = .fault ∧ s.position.beyondLimit = false))
    (hitems : s.items.queues[l] ≠ []) : s.reqDisarm (natByte l) = ([0, 2], s.toLaneState l .drain) := by
  have hcount : s.queueCount l ≠ 0 := fun hzero => hitems (List.eq_nil_of_length_eq_zero hzero)
  have hreply : (s.toLaneState l .drain).disarmReply l = ([0, 2], s.toLaneState l .drain) := by
    rw [State.disarmReply, toLaneState_state]
    rfl
  rw [State.reqDisarm, named_natByte s l (by decide)]
  obtain h | ⟨h, hwithin⟩ := h
  · rw [h]
    exact (if_neg hcount).trans hreply
  · rw [h]
    exact (if_neg hcount).trans ((if_neg (Bool.eq_false_iff.mp hwithin)).trans hreply)

theorem reqDisarm_beyond (h : s.lanes[l].state = .fault) (hbeyond : s.position.beyondLimit = true)
    (hitems : s.items.queues[l] ≠ []) : s.reqDisarm (natByte l) = s.refuse .wrongState := by
  have hcount : s.queueCount l ≠ 0 := fun hzero => hitems (List.eq_nil_of_length_eq_zero hzero)
  rw [State.reqDisarm, named_natByte s l (by decide), h]
  exact (if_neg hcount).trans (if_pos hbeyond)

end

/-- Settles O43: DISARM by the lane's state, its queue and its depth. -/
theorem disarmDrainsOrStops : Obligations.DisarmDrainsOrStops := by
  refine fun s seq lane hs => ⟨fun hbad => ?_, ?_⟩
  · exact request_refused s 0x0B seq _ .badValue hs ((dispatch_disarm _ _).trans (named_bad _ _ (by omega) _)) rfl
  · rintro l rfl
    have hreq := dispatch_disarm s.received (natByte l)
    have ⟨_, _, _, hagenda⟩ := hs
    refine ⟨fun hoff => ?_, fun hdrain => ?_, fun hstate hempty => ?_, fun hstate hitems => ?_,
      fun hfault hbeyond hitems => ?_⟩
    · have hd := hreq.trans (reqDisarm_keeps s.received (Or.inl hoff))
      rw [received_lanes, hoff] at hd
      exact request_reads s 0x0B seq _ _ hs hd rfl
    · have hd := hreq.trans (reqDisarm_keeps s.received (Or.inr hdrain))
      rw [received_lanes, hdrain] at hd
      exact request_reads s 0x0B seq _ _ hs hd rfl
    · have hchanges := enterOff_changes s.received l
      have hlive : s.received.lanes[l].state ≠ .off := by
        rw [received_lanes]
        obtain h | h := hstate <;> rw [h] <;> exact nofun
      obtain ⟨hexec, hreply⟩ := request_leaves hs (hreq.trans (reqDisarm_stops s.received hstate hempty))
        ((hchanges .agenda (by decide)).trans hagenda) rfl
      exact ⟨_, hexec, enterOff_lane s.received l, enterOff_noticed hlive, enterOff_others s.received l,
        enterOff_sameRecords s.received l, enterOff_verdicts s.received l, hreply,
        ((received_changes s).mono.trans hchanges.mono).trans (link_changes _ _).mono⟩
    · have hchanges := toLaneState_changes s.received l .drain
      have hwithin : s.received.lanes[l].state = .run ∨
          (s.received.lanes[l].state = .fault ∧ s.received.position.beyondLimit = false) :=
        hstate.imp id fun ⟨hf, hrd⟩ => ⟨hf, by simpa using (within_iff s.position).mpr hrd⟩
      obtain ⟨hexec, hreply⟩ := request_leaves hs (hreq.trans (reqDisarm_drains s.received hwithin hitems))
        ((hchanges .agenda (by decide)).trans hagenda) rfl
      exact ⟨_, hexec, toLaneState_lane s.received l .drain, toLaneState_noticed s.received l .drain,
        toLaneState_others s.received l .drain, toLaneState_sameRecords s.received l .drain, hreply,
        ((received_changes s).mono.trans hchanges.mono).trans (link_changes _ _).mono⟩
    · exact request_refused s 0x0B seq _ .wrongState hs
        (hreq.trans (reqDisarm_beyond s.received hfault (decide_eq_true hbeyond) hitems)) rfl

end Sys2Proof.Machine
end

section
/-! SUPPORT. Admission (R162 to R164): the reference taken, what one admission does, and where admission ends. -/

namespace Sys2Proof.Machine

theorem nextRef_mem {n : Notices} {r : NoticeRef} (h : n.nextRef = some r) : r ∈ n.refs :=
  List.mem_of_find?_eq_some h

/-! ### One reference (R163) -/

/-- What one admission makes of the Notice Queue. -/
structure Notices.AdmitsOne (n : Notices) (r : NoticeRef) (m : Notices) : Prop where
  rest : m = { n with refs := n.refs.erase r, unsent := m.unsent }
  unsent : m.unsent = n.unsent ∨ (n.depth < 32 ∧ ∃ e, m.unsent = n.unsent ++ [e] ∧ e.number = none ∧ e.resend = false ∧
    ((∃ rid sub, r = .item rid sub ∧ e.link = .item rid) ∨ ∃ l, r = .lane l ∧ e.link = .lane l))

theorem admitRef_admits {s t : State} {r : NoticeRef} (h : s.admitRef r = some t) : s.notices.AdmitsOne r t.notices := by
  cases r with
  | item rid sub =>
    rw [State.admitRef] at h
    split at h
    · cases h
      exact ⟨rfl, Or.inl rfl⟩
    · split at h
      · next hroom =>
        split at h
        · cases h
          exact ⟨rfl, Or.inl rfl⟩
        · cases h
          exact ⟨rfl, Or.inr ⟨hroom, _, rfl, rfl, rfl, Or.inl ⟨rid, sub, rfl, rfl⟩⟩⟩
      · cases h
  | lane l =>
    rw [State.admitRef] at h
    split at h
    · next hroom =>
      cases h
      exact ⟨rfl, Or.inr ⟨hroom, _, rfl, rfl, rfl, Or.inr ⟨l, rfl, rfl⟩⟩⟩
    · cases h

/-- R163: a reference that is not admitted needs a slot and there is none. -/
theorem admitRef_none {s : State} {r : NoticeRef} (h : s.admitRef r = none) : 32 ≤ s.notices.depth := by
  refine Nat.not_lt.mp fun (hroom : s.notices.depth < Config.queueSize) => ?_
  cases r with
  | item rid sub =>
    rw [State.admitRef, if_pos hroom] at h
    split at h
    · cases h
    · split at h <;> cases h
  | lane l =>
    rw [State.admitRef, if_pos hroom] at h
    cases h

/-! ### Admission (R163) -/

theorem admitUpTo_next {s t : State} {r : NoticeRef} (n : Nat) (hr : s.notices.nextRef = some r)
    (ht : s.admitRef r = some t) : State.admitUpTo (n + 1) s = State.admitUpTo n t := by
  rw [State.admitUpTo, hr]
  simp only [ht]

theorem admitUpTo_stuck {s : State} {r : NoticeRef} (n : Nat) (hr : s.notices.nextRef = some r)
    (ht : s.admitRef r = none) : State.admitUpTo n s = s := by
  cases n with
  | zero => rfl
  | succ n =>
    rw [State.admitUpTo, hr]
    simp only [ht]

theorem admitUpTo_empty {s : State} (n : Nat) (h : s.notices.refs = []) : State.admitUpTo n s = s := by
  cases n with
  | zero => rfl
  | succ n => rw [State.admitUpTo, (nextRef_none_iff s.notices).mpr h]

theorem admitAll_empty {s : State} (h : s.notices.refs = []) : s.admitAll = s :=
  admitUpTo_empty _ h

theorem admitAll_stuck {s : State} {r : NoticeRef} (hr : s.notices.nextRef = some r) (ht : s.admitRef r = none) :
    s.admitAll = s :=
  admitUpTo_stuck _ hr ht

theorem Notices.AdmitsOne.refs_length {n m : Notices} {r : NoticeRef} (h : n.AdmitsOne r m) (hr : r ∈ n.refs) :
    m.refs.length + 1 = n.refs.length := by
  rw [h.rest]
  exact List.length_erase_add_one hr

theorem admitAll_next {s t : State} {r : NoticeRef} (hr : s.notices.nextRef = some r) (ht : s.admitRef r = some t) :
    s.admitAll = t.admitAll := by
  have hlength := (admitRef_admits ht).refs_length (nextRef_mem hr)
  rw [State.admitAll, ← hlength, admitUpTo_next _ hr ht]
  rfl

/-- Admission case by case: it rests, or takes the next reference and goes on. -/
theorem admitAll_induction {P : State → State → Prop} (rests : ∀ s, (s.notices.refs = [] ∨ 32 ≤ s.notices.depth) → P s s)
    (next : ∀ s t u r, r ∈ s.notices.refs → s.admitRef r = some t → P t u → P s u) (s : State) : P s s.admitAll := by
  induction hn : s.notices.refs.length generalizing s with
  | zero =>
    have hempty := List.eq_nil_of_length_eq_zero hn
    rw [admitAll_empty hempty]
    exact rests s (Or.inl hempty)
  | succ n ih =>
    cases hr : s.notices.nextRef with
    | none =>
      rw [(nextRef_none_iff s.notices).mp hr] at hn
      cases hn
    | some r =>
      cases ht : s.admitRef r with
      | none =>
        rw [admitAll_stuck hr ht]
        exact rests s (Or.inr (admitRef_none ht))
      | some t =>
        have hlength := (admitRef_admits ht).refs_length (nextRef_mem hr)
        rw [admitAll_next hr ht]
        exact next s t _ r (nextRef_mem hr) ht (ih t (by omega))

/-- What admission makes of the Notice Queue. -/
structure Notices.Admits (n m : Notices) : Prop where
  rest : m = { n with refs := m.refs, unsent := m.unsent }
  refs : ∀ r ∈ m.refs, r ∈ n.refs
  unsent : ∃ added, m.unsent = n.unsent ++ added ∧ ∀ e ∈ added, e.number = none ∧ e.resend = false ∧
    ((∃ rid sub, .item rid sub ∈ n.refs ∧ e.link = .item rid) ∨ ∃ l, .lane l ∈ n.refs ∧ e.link = .lane l)
  depth : n.depth ≤ 32 → m.depth ≤ 32
  ends : m.refs = [] ∨ 32 ≤ m.depth

theorem Notices.AdmitsOne.admits {n m k : Notices} {r : NoticeRef} (hr : r ∈ n.refs) (h : n.AdmitsOne r m)
    (hk : m.Admits k) : n.Admits k := by
  have hrefs : ∀ x ∈ m.refs, x ∈ n.refs := fun x hx => by
    rw [h.rest] at hx
    exact List.mem_of_mem_erase hx
  have hlength : m.sent = n.sent := by rw [h.rest]
  obtain ⟨added, hadded, hof⟩ := hk.unsent
  have hlater : ∀ e ∈ added, e.number = none ∧ e.resend = false ∧
      ((∃ rid sub, .item rid sub ∈ n.refs ∧ e.link = .item rid) ∨ ∃ l, .lane l ∈ n.refs ∧ e.link = .lane l) :=
    fun e he => by
      obtain ⟨hnumber, hresend, hlink⟩ := hof e he
      exact ⟨hnumber, hresend, hlink.imp (fun ⟨rid, sub, hin, hl⟩ => ⟨rid, sub, hrefs _ hin, hl⟩)
        (fun ⟨l, hin, hl⟩ => ⟨l, hrefs _ hin, hl⟩)⟩
  refine ⟨by rw [hk.rest, h.rest], fun x hx => hrefs x (hk.refs x hx), ?_, fun hdepth => hk.depth ?_, hk.ends⟩
  · obtain hsame | ⟨_, e, hone, hnumber, hresend, hlink⟩ := h.unsent
    · exact ⟨added, by rw [hadded, hsame], hlater⟩
    · refine ⟨e :: added, by rw [hadded, hone, List.append_assoc]; rfl, fun x hx => ?_⟩
      obtain rfl | hx := List.mem_cons.mp hx
      · refine ⟨hnumber, hresend, hlink.imp (fun ⟨rid, sub, heq, hl⟩ => ⟨rid, sub, heq ▸ hr, hl⟩)
          (fun ⟨l, heq, hl⟩ => ⟨l, heq ▸ hr, hl⟩)⟩
      · exact hlater x hx
  · obtain hsame | ⟨hroom, e, hone, _⟩ := h.unsent
    · rw [Notices.depth, hlength, hsame]
      exact hdepth
    · rw [Notices.depth] at hroom ⊢
      rw [hlength, hone, List.length_append, List.length_singleton]
      omega

theorem admitAll_admits (s : State) : s.notices.Admits s.admitAll.notices :=
  admitAll_induction (P := fun s t => s.notices.Admits t.notices)
    (fun s h => ⟨rfl, fun _ hr => hr, ⟨[], (List.append_nil _).symm, by simp⟩, id, h⟩)
    (fun _ _ _ _ hr ht hu => (admitRef_admits ht).admits hr hu) s

/-- R163: admission ends with no reference left or a full queue. -/
theorem admitAll_full {s : State} (h : s.notices.depth ≤ 32) :
    s.admitAll.notices.refs = [] ∨ s.admitAll.notices.depth = 32 := by
  have hadmits := admitAll_admits s
  exact hadmits.ends.imp id fun hfull => Nat.le_antisymm (hadmits.depth h) hfull

end Sys2Proof.Machine
end

section
/-! SUPPORT. What a discard of records leaves (R24, R64, R74, R95, R172). -/

namespace Sys2Proof.Machine

/-! ### The Notice Queue without discarded records (R172) -/

/-- An entry linked to one of these records. -/
def NoticeEntry.ofAny (rids : List Nat) (e : NoticeEntry) : Bool :=
  rids.any (fun rid => e.link = .item rid)

/-- R172: the Notice Queue after these records have been discarded. -/
def Notices.discards (n : Notices) (rids : List Nat) : Notices :=
  { n with
    refs := n.refs.filter (fun r => !rids.any r.isOf)
    sent := n.sent.map (fun e => if e.ofAny rids then { e with link := .none } else e)
    unsent := n.unsent.filter (fun e => !e.ofAny rids) }

theorem ofAny_append (rs qs : List Nat) (e : NoticeEntry) : e.ofAny (rs ++ qs) = (e.ofAny rs || e.ofAny qs) := by
  rw [NoticeEntry.ofAny, List.any_append]
  rfl

theorem discards_nil (n : Notices) : n.discards [] = n := by
  have hsent : n.sent.map (fun e => if e.ofAny [] then { e with link := .none } else e) = n.sent := List.map_id _
  have hrefs : n.refs.filter (fun r => !([] : List Nat).any r.isOf) = n.refs := List.filter_eq_self.mpr fun _ _ => rfl
  have hunsent : n.unsent.filter (fun e => !e.ofAny []) = n.unsent := List.filter_eq_self.mpr fun _ _ => rfl
  rw [Notices.discards, hsent, hrefs, hunsent]

theorem discard_eq (n : Notices) (rid : Nat) : n.discard rid = n.discards [rid] := by
  have hone (e : NoticeEntry) : e.ofAny [rid] = decide (e.link = .item rid) := by
    simp [NoticeEntry.ofAny]
  have hsent : n.sent.map (·.unlink rid) =
      n.sent.map (fun e => if e.ofAny [rid] then { e with link := .none } else e) :=
    List.map_congr_left fun e _ => by simp [hone, NoticeEntry.unlink]
  have hunsent : n.unsent.filter (fun e => e.link ≠ .item rid) = n.unsent.filter (fun e => !e.ofAny [rid]) :=
    List.filter_congr fun e _ => by simp [hone]
  have hrefs : n.refs.filter (fun r => !r.isOf rid) = n.refs.filter (fun r => !([rid].any r.isOf)) :=
    List.filter_congr fun r _ => by simp
  rw [Notices.discard, Notices.discards, hsent, hunsent, hrefs]

theorem discards_append (n : Notices) (rs qs : List Nat) : (n.discards rs).discards qs = n.discards (rs ++ qs) := by
  have hsent : (n.discards rs).sent.map (fun e => if e.ofAny qs then { e with link := .none } else e) =
      n.sent.map (fun e => if e.ofAny (rs ++ qs) then { e with link := .none } else e) := by
    show (n.sent.map _).map _ = _
    rw [List.map_map]
    refine List.map_congr_left fun e _ => ?_
    have hcut (x : NoticeEntry) : NoticeEntry.ofAny qs { x with link := .none } = false := by
      simp [NoticeEntry.ofAny]
    rw [ofAny_append]
    cases h : e.ofAny rs with
    | true => simp [Function.comp, h, hcut]
    | false => simp [Function.comp, h]
  have hunsent : (n.discards rs).unsent.filter (fun e => !e.ofAny qs) = n.unsent.filter (fun e => !e.ofAny (rs ++ qs)) := by
    show (n.unsent.filter _).filter _ = _
    rw [List.filter_filter]
    exact List.filter_congr fun e _ => by rw [ofAny_append, Bool.not_or, Bool.and_comm]
  have hrefs : (n.discards rs).refs.filter (fun r => !qs.any r.isOf) =
      n.refs.filter (fun r => !(rs ++ qs).any r.isOf) := by
    show (n.refs.filter _).filter _ = _
    rw [List.filter_filter]
    exact List.filter_congr fun r _ => by rw [List.any_append, Bool.not_or, Bool.and_comm]
  have houter : (n.discards rs).discards qs = { n.discards rs with
      refs := (n.discards rs).refs.filter (fun r => !qs.any r.isOf)
      sent := (n.discards rs).sent.map (fun e => if e.ofAny qs then { e with link := .none } else e)
      unsent := (n.discards rs).unsent.filter (fun e => !e.ofAny qs) } := rfl
  rw [houter, hsent, hunsent, hrefs]
  rfl

theorem discards_unmentioned (n : Notices) {rids : List Nat} {rid : Nat} (h : rid ∈ rids) (sub : SubKind) :
    NoticeRef.item rid sub ∉ (n.discards rids).refs := by
  intro hin
  obtain ⟨_, hnot⟩ := List.mem_filter.mp hin
  rw [Bool.not_eq_true', List.any_eq_false] at hnot
  exact hnot rid h (decide_eq_true rfl)

/-- A discard that takes an unsent entry frees a slot. -/
theorem discards_depth_lt {n : Notices} {rids : List Nat} (h : ∃ e ∈ n.unsent, e.ofAny rids = true) :
    (n.discards rids).depth < n.depth := by
  obtain ⟨e, he, hof⟩ := h
  have hshort : (n.unsent.filter (fun e => !e.ofAny rids)).length < n.unsent.length :=
    List.length_filter_lt_length_iff_exists.mpr ⟨e, he, by simp [hof]⟩
  show (n.sent.map _).length + (n.unsent.filter _).length < n.sent.length + n.unsent.length
  rw [List.length_map]
  omega

theorem discards_depth_le (n : Notices) (rids : List Nat) : (n.discards rids).depth ≤ n.depth := by
  have hle : (n.unsent.filter (fun e => !e.ofAny rids)).length ≤ n.unsent.length := List.filter_sublist.length_le
  show (n.sent.map _).length + (n.unsent.filter _).length ≤ n.sent.length + n.unsent.length
  rw [List.length_map]
  omega

/-! ### The records discarded (R24) -/

/-- The records `rids` have been discarded with their work and their notices. -/
structure State.Discards (rids : List Nat) (s t : State) : Prop where
  drops : s.DropsWork rids t
  queues : ∀ l : LaneId, t.items.queues[l] = without rids s.items.queues[l]
  done : t.items.done = without rids s.items.done
  passed : t.items.passed = without rids s.items.passed
  notices : t.notices = s.notices.discards rids

theorem State.Discards.nil (s : State) : s.Discards [] s :=
  ⟨.nil s, fun _ => (without_nil _).symm, (without_nil _).symm, (without_nil _).symm, (discards_nil _).symm⟩

theorem State.Discards.trans {rs qs : List Nat} {s t u : State} (h : s.Discards rs t) (k : t.Discards qs u) :
    s.Discards (rs ++ qs) u where
  drops := h.drops.trans k.drops
  queues l := by rw [k.queues, h.queues, without_append]
  done := by rw [k.done, h.done, without_append]
  passed := by rw [k.passed, h.passed, without_append]
  notices := by rw [k.notices, h.notices, discards_append]

theorem discardRecord_discards (s : State) (rid : Nat) : s.Discards [rid] (s.discardRecord rid) := by
  have hitems : ((s.dropEntries rid).dropWindows rid).items = s.items := dropWork_items s rid
  have hnotices : ((s.dropEntries rid).dropWindows rid).notices = s.notices := dropWork_settings s rid
  let u := ((s.dropEntries rid).dropWindows rid).dropRecord rid
  refine ⟨(dropWork_drops s rid).keeps ((dropRecord_changes _ rid).mono.trans (notices_changes u _).mono)
    (bs := [.items, .notices]) (by decide) (by decide) (by decide), fun l => ?_, ?_, ?_, ?_⟩
  · show u.items.queues[l] = _
    rw [dropRecord_queue, hitems, without_singleton]
  · show u.items.done = _
    rw [dropRecord_done, hitems]
  · show u.items.passed = _
    rw [dropRecord_passed, hitems]
  · show u.notices.discard rid = _
    rw [discard_eq, show u.notices = s.notices from hnotices]

theorem discardRecords_discards (rids : List Nat) : ∀ s : State, s.Discards rids (rids.foldl State.discardRecord s) := by
  induction rids with
  | nil => exact State.Discards.nil
  | cons rid rids ih => exact fun s => (discardRecord_discards s rid).trans (ih (s.discardRecord rid))

/-- R24: the serial numbers of the records of a lane. -/
def State.gone (s : State) (l : LaneId) : List Nat :=
  (s.items.ofLane l).map (·.rid)

theorem discardAll_discards (s : State) (l : LaneId) : s.Discards (s.gone l) (s.discardAll l) :=
  discardRecords_discards _ s

/-! ### The records of one lane -/

section
variable {s : State} (ok : s.items.Ok) (l : LaneId)
include ok

/-- A retired record is one of the lane's exactly by its lane. -/
theorem mem_gone_retired {it : Item} (h : it ∈ s.items.done ∨ it ∈ s.items.passed) : it.rid ∈ s.gone l ↔ it.lane = l := by
  have hall : it ∈ s.items.all := (mem_all_iff _ _).mpr (Or.inr h)
  refine ⟨fun hr => ?_, fun hl => List.mem_map_of_mem (mem_ofLane.mpr (Or.inr ⟨h, hl⟩))⟩
  obtain ⟨x, hx, hrid⟩ := List.mem_map.mp hr
  have hxall : x ∈ s.items.all := by
    obtain hq | ⟨hret, _⟩ := mem_ofLane.mp hx
    · exact (mem_all_iff _ _).mpr (Or.inl ⟨l, hq⟩)
    · exact (mem_all_iff _ _).mpr (Or.inr hret)
  obtain ⟨_, hlanes, hnodup, _⟩ := ok
  obtain rfl := List.inj_on_of_nodup_map hnodup hxall hall hrid
  obtain hq | ⟨_, hl⟩ := mem_ofLane.mp hx
  · exact hlanes l x hq
  · exact hl

theorem without_gone_retired {xs : List Item} (h : ∀ it ∈ xs, it ∈ s.items.done ∨ it ∈ s.items.passed) :
    without (s.gone l) xs = xs.filter (fun it => it.lane ≠ l) :=
  List.filter_congr fun it hit => by simp only [mem_gone_retired ok l (h it hit), ne_eq]

theorem without_gone_other {m : LaneId} (hm : m ≠ l) : without (s.gone l) s.items.queues[m] = s.items.queues[m] :=
  without_other_queue ok hm fun _ hx => (mem_ofLane.mp hx).imp_right And.left

omit ok in
theorem without_gone_own : without (s.gone l) s.items.queues[l] = [] :=
  without_all fun _ hx => List.mem_map_of_mem (mem_ofLane.mpr (Or.inl hx))

end

end Sys2Proof.Machine
end

section
/-! SUPPORT. CLEAR (R24, R64, R74, R95, R108, R110, R172). -/

namespace Sys2Proof.Machine

/-! ### The Notice Queue after a discard (R163, R172) -/

/-- The Notice Queue goes on from `n` without entries or references of the records `gone`. -/
structure Notices.Extends (gone : List Nat) (n m : Notices) : Prop where
  rest : m = { n with refs := m.refs, unsent := m.unsent }
  refs : ∀ rid ∈ gone, ∀ sub : SubKind, .item rid sub ∉ m.refs
  unsent : ∃ added, m.unsent = n.unsent ++ added ∧ ∀ e ∈ added, e.ofAny gone = false

theorem Notices.Extends.begin (n : Notices) (gone : List Nat) : (n.discards gone).Extends gone (n.discards gone) :=
  ⟨rfl, fun _ h sub => discards_unmentioned n h sub, [], (List.append_nil _).symm, by simp⟩

theorem ofAny_false {gone : List Nat} {e : NoticeEntry} (h : ∀ rid ∈ gone, e.link ≠ .item rid) : e.ofAny gone = false := by
  simpa [NoticeEntry.ofAny] using h

theorem Notices.Extends.admits {gone : List Nat} {n m k : Notices} (h : n.Extends gone m) (hk : m.Admits k) :
    n.Extends gone k := by
  obtain ⟨added, hadded, hof⟩ := h.unsent
  obtain ⟨more, hmore, hlinks⟩ := hk.unsent
  refine ⟨by rw [hk.rest, h.rest], fun rid hrid sub hin => h.refs rid hrid sub (hk.refs _ hin), added ++ more,
    by rw [hmore, hadded, List.append_assoc], fun e he => ?_⟩
  obtain he | he := List.mem_append.mp he
  · exact hof e he
  · obtain ⟨_, _, hlink⟩ := hlinks e he
    refine ofAny_false fun rid hrid hitem => ?_
    obtain ⟨rid', sub, hin, hl⟩ | ⟨l, _, hl⟩ := hlink
    · rw [hl] at hitem
      cases hitem
      exact h.refs _ hrid sub hin
    · rw [hl] at hitem
      cases hitem

theorem Notices.Extends.addLane {gone : List Nat} {n m : Notices} (h : n.Extends gone m) (l : LaneId) :
    n.Extends gone { m with refs := m.refs ++ [.lane l] } := by
  refine ⟨by rw [h.rest], fun rid hrid sub hin => ?_, h.unsent⟩
  obtain hin | hin := List.mem_append.mp hin
  · exact h.refs rid hrid sub hin
  · cases List.mem_singleton.mp hin

/-- R115, R163: what the notice of a lane makes of the Notice Queue. -/
theorem raiseLane_notices (s : State) (l : LaneId) : (s.raiseLane l).notices = s.notices ∨
    ((s.raiseLane l).notices = { s.notices with refs := s.notices.refs ++ [.lane l] } ∧ 32 ≤ s.notices.depth) ∨
    Notices.Admits { s.notices with refs := s.notices.refs ++ [.lane l] } (s.raiseLane l).notices := by
  rw [State.raiseLane]
  split
  · exact Or.inl rfl
  · split
    · exact Or.inl rfl
    · rw [State.admitIfRoom]
      split
      · exact Or.inr (Or.inr (admitAll_admits
          ((s.mapLane l (fun lane => { lane with noticeFlag := true })).addRef (.lane l))))
      · next hfull => exact Or.inr (Or.inl ⟨rfl, Nat.not_lt.mp hfull⟩)

/-- The Notice Queue is full, or has no reference left. -/
def Notices.Settled (n : Notices) : Prop :=
  n.depth ≤ 32 ∧ (n.refs = [] ∨ n.depth = 32)

theorem Notices.Admits.settled {n m : Notices} (h : n.Admits m) (hn : n.depth ≤ 32) : m.Settled :=
  ⟨h.depth hn, h.ends.imp id fun hfull => Nat.le_antisymm (h.depth hn) hfull⟩

theorem raiseLane_settled {s : State} (l : LaneId) (h : s.notices.Settled) : (s.raiseLane l).notices.Settled := by
  obtain ⟨hdepth, hends⟩ := h
  obtain hsame | ⟨hadded, hfull⟩ | hadmits := raiseLane_notices s l
  · rw [hsame]
    exact ⟨hdepth, hends⟩
  · rw [hadded]
    exact ⟨hdepth, Or.inr (Nat.le_antisymm hdepth hfull)⟩
  · exact hadmits.settled hdepth

theorem raiseLane_extends {gone : List Nat} {n : Notices} {s : State} (l : LaneId) (h : n.Extends gone s.notices) :
    n.Extends gone (s.raiseLane l).notices := by
  obtain hsame | ⟨hadded, _⟩ | hadmits := raiseLane_notices s l
  · rw [hsame]
    exact h
  · rw [hadded]
    exact h.addLane l
  · exact (h.addLane l).admits hadmits

/-- What the Notice Queue keeps as a lane enters OFF. -/
theorem enterOff_carries {P : Notices → Prop} (h : ∀ (s : State) (l : LaneId), P s.notices → P (s.raiseLane l).notices)
    {s : State} {l : LaneId} (hs : P s.notices) : P (s.enterOff l).notices := by
  by_cases hstate : s.lanes[l].state = .off
  · rw [enterOff_idle hstate]
    exact hs
  · rw [enterOff_live hstate]
    exact h _ l hs

/-! ### A lane without a notice (R115, R164) -/

/-- The lane has no notice pending, referenced or unsent. -/
structure State.Silent (s : State) (l : LaneId) : Prop where
  flag : s.lanes[l].noticeFlag = false
  refs : .lane l ∉ s.notices.refs
  unsent : s.notices.hasUnsentLane l = false

theorem admitRef_lane {s t : State} {r : NoticeRef} {l : LaneId} (h : s.admitRef r = some t) (hr : r ≠ .lane l) :
    t.lanes[l] = s.lanes[l] := by
  cases r with
  | item rid sub =>
    rw [State.admitRef] at h
    split at h
    · cases h
      rfl
    · split at h
      · split at h
        · cases h
          rfl
        · cases h
          rfl
      · cases h
  | lane m =>
    rw [State.admitRef] at h
    split at h
    · cases h
      exact tset_get_ne _ _ _ _ fun heq => hr (congrArg NoticeRef.lane heq)
    · cases h

theorem admitRef_silent {s t : State} {r : NoticeRef} {l : LaneId} (hin : r ∈ s.notices.refs) (h : s.admitRef r = some t)
    (hs : s.Silent l) : t.Silent l := by
  have hr : r ≠ .lane l := fun heq => hs.refs (heq ▸ hin)
  have hadmits := admitRef_admits h
  refine ⟨by rw [admitRef_lane h hr]; exact hs.flag, fun hl => ?_, ?_⟩
  · rw [hadmits.rest] at hl
    exact hs.refs (List.mem_of_mem_erase hl)
  · obtain hsame | ⟨_, e, hone, _, _, hlink⟩ := hadmits.unsent
    · rw [Notices.hasUnsentLane, hsame]
      exact hs.unsent
    · have hnot : e.link ≠ .lane l := by
        obtain ⟨rid, sub, _, hl⟩ | ⟨m, hm, hl⟩ := hlink
        · rw [hl]
          exact nofun
        · rw [hl]
          exact fun heq => hr (by rw [hm]; cases heq; rfl)
      rw [Notices.hasUnsentLane, hone, List.any_append, Bool.or_eq_false_iff]
      exact ⟨hs.unsent, by simp [hnot]⟩

theorem admitAll_silent {s : State} {l : LaneId} (h : s.Silent l) : s.admitAll.Silent l :=
  admitAll_induction (P := fun s t => s.Silent l → t.Silent l) (fun _ _ h => h)
    (fun _ _ _ _ hin hr hu hs => hu (admitRef_silent hin hr hs)) s h

/-! ### A lane is discarded (R24, R172) -/

/-- What a discard of the lane leaves, from the state in which its records have gone. -/
theorem discardLane_of {P : State → State → Prop} (s : State) (l : LaneId) (rests : ∀ u, P u u) (admits : ∀ u, P u u.admitAll) :
    P (s.discardAll l) (s.discardLane l) := by
  rw [State.discardLane]
  split
  · exact admits _
  · exact rests _

theorem discardLane_sameRecords (s : State) (l : LaneId) : (s.discardAll l).sameRecords (s.discardLane l) :=
  discardLane_of (P := State.sameRecords) s l .refl admit_sameRecords

theorem discardLane_sameLanes (s : State) (l : LaneId) : (s.discardAll l).sameLanes (s.discardLane l) :=
  discardLane_of (P := State.sameLanes) s l .refl admit_sameLanes

theorem discardLane_admits (s : State) (l : LaneId) :
    OnlyChanges [.items, .notices, .lanes] (s.discardAll l) (s.discardLane l) :=
  discardLane_of (P := OnlyChanges [.items, .notices, .lanes]) s l (.refl _) admit_changes

theorem discardLane_extends (s : State) (l : LaneId) :
    (s.notices.discards (s.gone l)).Extends (s.gone l) (s.discardLane l).notices := by
  have hdiscards := discardAll_discards s l
  have hbegin : (s.notices.discards (s.gone l)).Extends (s.gone l) (s.discardAll l).notices := by
    rw [hdiscards.notices]
    exact .begin _ _
  exact discardLane_of (P := fun u v => (s.notices.discards (s.gone l)).Extends (s.gone l) u.notices →
    (s.notices.discards (s.gone l)).Extends (s.gone l) v.notices) s l (fun _ h => h)
    (fun u h => h.admits (admitAll_admits u)) hbegin

theorem discardLane_settled {s : State} {l : LaneId} (hdepth : s.notices.depth ≤ 32)
    (h : ∃ e ∈ s.notices.unsent, e.ofAny (s.gone l) = true) : (s.discardLane l).notices.Settled := by
  have hnotices : (s.discardAll l).notices = s.notices.discards (s.gone l) := (discardAll_discards s l).notices
  have hfreed : (s.discardAll l).notices.depth < s.notices.depth := by
    rw [hnotices]
    exact discards_depth_lt h
  rw [State.discardLane, if_pos hfreed]
  exact (admitAll_admits _).settled (by omega)

theorem discardLane_silent {s : State} {l : LaneId} (h : s.Silent l) : (s.discardLane l).Silent l := by
  have hnotices : (s.discardAll l).notices = s.notices.discards (s.gone l) := (discardAll_discards s l).notices
  have hlanes : (s.discardAll l).lanes = s.lanes := discardAll_changes s l .lanes (by decide)
  refine discardLane_of (P := fun u v => u.Silent l → v.Silent l) s l (fun _ hu => hu) (fun _ hu => admitAll_silent hu) ?_
  refine ⟨by rw [hlanes]; exact h.flag, fun hin => ?_, ?_⟩
  · rw [hnotices] at hin
    exact h.refs (List.mem_filter.mp hin).1
  · have hnone := h.unsent
    rw [Notices.hasUnsentLane, List.any_eq_false] at hnone
    rw [hnotices, Notices.hasUnsentLane, List.any_eq_false]
    exact fun e he => hnone e (List.mem_filter.mp he).1

/-! ### CLEAR (R110) -/

/-- The state after CLEAR, before its reply. -/
def State.laneCleared (s : State) (l : LaneId) : State :=
  (s.discardLane l).enterOff l

theorem laneCleared_changes (s : State) (l : LaneId) :
    OnlyChanges [.items, .notices, .outputs, .schedule, .windows, .lanes, .verdicts] s (s.laneCleared l) :=
  (discardLane_changes s l).mono.trans (enterOff_changes _ l).mono

theorem laneCleared_drops (s : State) (l : LaneId) : s.DropsWork (s.gone l) (s.laneCleared l) :=
  (discardAll_discards s l).drops.keeps ((discardLane_admits s l).mono.trans (enterOff_changes _ l).mono)
    (bs := [.items, .notices, .lanes, .verdicts]) (by decide) (by decide) (by decide)

theorem laneCleared_sameRecords (s : State) (l : LaneId) : (s.discardAll l).sameRecords (s.laneCleared l) :=
  (discardLane_sameRecords s l).trans (enterOff_sameRecords _ l)

theorem laneCleared_lane (s : State) (l : LaneId) : (s.laneCleared l).lanes[l].sansNotice =
    Lane.sansNotice { s.lanes[l] with state := .off, blanked := false } := by
  have hlanes : (s.discardAll l).lanes = s.lanes := discardAll_changes s l .lanes (by decide)
  have hsame : (s.discardLane l).lanes[l].sansNotice = s.lanes[l].sansNotice := by
    rw [← hlanes]
    exact discardLane_sameLanes s l l
  rw [State.laneCleared, enterOff_lane]
  show ({ (s.discardLane l).lanes[l].sansNotice with state := .off, blanked := false } : Lane) =
    { s.lanes[l].sansNotice with state := .off, blanked := false }
  rw [hsame]

theorem laneCleared_state (s : State) (l : LaneId) : (s.discardLane l).lanes[l].state = s.lanes[l].state := by
  have hlanes : (s.discardAll l).lanes = s.lanes := discardAll_changes s l .lanes (by decide)
  rw [← hlanes]
  exact sansNotice_state (discardLane_sameLanes s l l)

theorem laneCleared_others (s : State) (l : LaneId) : s.sameOtherLanes (s.laneCleared l) l := by
  have hlanes : (s.discardAll l).lanes = s.lanes := discardAll_changes s l .lanes (by decide)
  have hbegin : s.sameOtherLanes (s.discardAll l) l := fun m _ => by rw [hlanes]
  exact (hbegin.trans ((discardLane_sameLanes s l).others l)).trans (enterOff_others _ l)

theorem laneCleared_verdicts (s : State) (l : LaneId) :
    (s.laneCleared l).verdicts = { s.verdicts with advance := tset s.verdicts.advance l [] } := by
  have hsame : (s.discardLane l).verdicts = s.verdicts := discardLane_changes s l .verdicts (by decide)
  rw [State.laneCleared, enterOff_verdicts, hsame]

theorem laneCleared_extends (s : State) (l : LaneId) :
    (s.notices.discards (s.gone l)).Extends (s.gone l) (s.laneCleared l).notices :=
  enterOff_carries (fun _ l h => raiseLane_extends l h) (discardLane_extends s l)

theorem laneCleared_silent {s : State} {l : LaneId} (hoff : s.lanes[l].state = .off) (h : s.Silent l) :
    (s.laneCleared l).Silent l := by
  have hsilent := discardLane_silent h
  have hstate : (s.discardLane l).lanes[l].state = .off := (laneCleared_state s l).trans hoff
  rw [State.laneCleared, enterOff_idle hstate]
  refine ⟨?_, hsilent.refs, hsilent.unsent⟩
  rw [unblanked_lane]
  exact hsilent.flag

theorem reqClear_named (s : State) (l : LaneId) :
    s.reqClear (natByte l) = ([0, natByte (s.items.ofLane l).length], s.laneCleared l) :=
  named_natByte s l (by decide) _

/-- Settles O44: the records go with `discardAll_discards`, admission and the lane's notice follow. -/
theorem clearDiscardsTheLane : Obligations.ClearDiscardsTheLane := by
  refine fun s seq lane hs => ⟨fun hbad => ?_, ?_⟩
  · exact request_refused s 0x0C seq _ .badValue hs ((dispatch_clear _ _).trans (named_bad _ _ (by omega) _)) rfl
  · rintro l rfl ok records gone
    have ⟨_, _, _, hagenda⟩ := hs
    let r := s.received
    have hchanges := laneCleared_changes r l
    obtain ⟨hexec, hreply⟩ := request_leaves hs ((dispatch_clear r (natByte l)).trans (reqClear_named r l))
      ((hchanges .agenda (by decide)).trans hagenda) rfl
    obtain ⟨hqueues, hdone, hpassed⟩ := laneCleared_sameRecords r l
    have hdiscards := discardAll_discards r l
    have hdrops := laneCleared_drops r l
    have hextends := laneCleared_extends r l
    have okr : r.items.Ok := ok
    refine ⟨_, hexec, hreply, ?_, fun m hm => ?_, ?_, ?_, hdrops.positions, hdrops.times, hdrops.windows,
      laneCleared_lane r l, fun hlive => ?_, fun hoff hflag href hunsent => ?_, laneCleared_others r l,
      laneCleared_verdicts r l, fun o => ?_, ?_, ?_⟩
    · have hempty := hqueues l
      rw [hdiscards.queues, without_gone_own] at hempty
      exact List.map_eq_nil_iff.mp hempty
    · exact (hqueues m).trans (congrArg _ ((hdiscards.queues m).trans (without_gone_other okr l hm)))
    · exact hdone.trans (congrArg _ (hdiscards.done.trans (without_gone_retired okr l fun _ => Or.inl)))
    · exact hpassed.trans (congrArg _ (hdiscards.passed.trans (without_gone_retired okr l fun _ => Or.inr)))
    · have hstate : (r.discardLane l).lanes[l].state ≠ .off := by
        rw [laneCleared_state]
        exact hlive
      exact enterOff_noticed hstate
    · obtain ⟨hsame, hrefs, _⟩ := endStall_keeps s.notices
      have hsilent : r.Silent l := by
        refine ⟨hflag, ?_, ?_⟩
        · rw [received_notices, hrefs]
          exact href
        · rw [received_notices, Notices.hasUnsentLane, hsame]
          exact hunsent
      have hcleared := laneCleared_silent (s := r) hoff hsilent
      exact ⟨hcleared.flag, hcleared.unsent⟩
    · have hreleases := hdrops.outputs o
      refine ⟨hreleases.rest, fun hnodup h => (hreleases.holders hnodup h).trans ?_⟩
      refine and_congr_right fun _ => ⟨fun hall e he hr hp ho => ?_, fun hall e he hp ho => ?_⟩
      · exact hall e (List.mem_filter.mpr ⟨he, decide_eq_true hr⟩) hp ho
      · obtain ⟨hin, hr⟩ := List.mem_filter.mp he
        exact hall e hin (of_decide_eq_true hr) hp ho
    · intro n discarded
      refine ⟨?_, ?_, hextends.unsent, hextends.refs, fun hdepth hfreed => ?_⟩
      · show (r.laneCleared l).notices = _
        rw [hextends.rest]
        rfl
      · exact congrArg Notices.sent hextends.rest
      · obtain ⟨_, hends⟩ := enterOff_carries (fun _ l h => raiseLane_settled l h)
          (discardLane_settled (s := r) (l := l) hdepth hfreed)
        exact hends
    · exact ((received_changes s).mono.trans hchanges.mono).trans (link_changes _ _).mono

end Sys2Proof.Machine
end

section
/-! PROOFS. SET_DISPOSITION: validity for a lane, the contents in range, and the table (R29 to R33). -/

namespace Sys2Proof.Machine

/-! ### Validity (R32, R33) -/

/-- R32: a firing is valid on a present station, with its offsets strictly inside the lane. -/
theorem firingValid_iff (c : LaneConfig) (f : Firing) : c.firingValid f = true ↔
    ∃ st, c.stations[f.station] = some st ∧ (c.d : Int) < st.offset + f.adjust.toInt ∧
      st.offset + f.adjust.toInt < (c.x : Int) ∧
      (f.widthKind = .counts → st.offset + f.adjust.toInt + (f.width.toNat : Int) < (c.x : Int)) := by
  rw [LaneConfig.firingValid]
  cases hst : c.stations[f.station] with
  | none => exact ⟨nofun, fun ⟨_, h, _⟩ => nomatch h⟩
  | some st =>
    have hkind : f.widthKind = .time ∨ f.widthKind = .counts := by cases f.widthKind <;> simp
    simp only [Option.some.injEq, exists_eq_left', Bool.and_eq_true, Bool.or_eq_true, decide_eq_true_eq, and_assoc]
    refine and_congr Iff.rfl (and_congr Iff.rfl ?_)
    obtain hk | hk := hkind
    · simp [hk]
    · simp [hk, Firing.fireOffset]

/-- R33: a confirm spec is valid on a confirm input, with its offsets in order inside the lane. -/
theorem confirmValid_iff (s : State) (c : LaneConfig) (spec : Option ConfirmSpec) : s.confirmValid c spec = true ↔
    ∀ k, spec = some k → s.inputs[k.input].role = .confirm ∧ c.d < k.openOffset.toNat ∧
      k.openOffset.toNat ≤ k.closeOffset.toNat ∧ k.closeOffset.toNat < c.x := by
  cases spec with
  | none => exact ⟨fun _ => nofun, fun _ => rfl⟩
  | some k =>
    simp only [State.confirmValid, Option.some.injEq, forall_eq', Bool.and_eq_true, decide_eq_true_eq, and_assoc]

theorem valid_iff (s : State) (l : LaneId) (d : Disposition) : s.valid l d = true ↔
    (∀ f ∈ d.firings, s.lanes[l].config.firingValid f = true) ∧
      s.confirmValid s.lanes[l].config d.confirm = true := by
  rw [State.valid, Bool.and_eq_true, LaneConfig.firingsValid, List.all_eq_true]

/-- R31: what SET_DISPOSITION asks of the lanes outside OFF. -/
theorem defaultsAccept_iff (s : State) (i : Fin 16) (d : Disposition) : s.defaultsAccept i d = true ↔
    ∀ l : LaneId, s.lanes[l].state ≠ .off → s.lanes[l].config.default = i → s.valid l d = true := by
  rw [State.defaultsAccept, List.all_eq_true]
  have hlane (l : LaneId) : (!s.lanes[l].live || s.lanes[l].config.default ≠ i || s.valid l d) = true ↔
      (s.lanes[l].state ≠ .off → s.lanes[l].config.default = i → s.valid l d = true) := by
    simp only [Bool.or_eq_true, Bool.not_eq_true', decide_eq_true_eq, Lane.live, decide_eq_false_iff_not]
    tauto
  exact ⟨fun h l => (hlane l).mp (h l (mem_allLanes l)), fun h l _ => (hlane l).mpr (h l)⟩

/-! ### The fields of a payload (R29, R30) -/

theorem widthKindOf_some_iff (b : Byte) (k : WidthKind) : widthKindOf b = some k ↔ b = k.code := by
  revert b
  cases k <;> decide

theorem widthKindOf_none_iff (b : Byte) : widthKindOf b = none ↔ 1 < b.toNat := by
  revert b
  decide

theorem expectOf_some_iff (b : Byte) (e : Expect) : expectOf b = some e ↔ b = e.code := by
  revert b
  cases e <;> decide

theorem expectOf_none_iff (b : Byte) : expectOf b = none ↔ 1 < b.toNat := by
  revert b
  decide

theorem firingOf_some_iff (f : FiringField) (x : Firing) : firingOf f = some x ↔
    f.station = natByte x.station ∧ f.widthKind = x.widthKind.code ∧ x.adjust = f.adjust ∧ x.width = f.width ∧
      -4096 ≤ f.adjust.toInt ∧ f.adjust.toInt ≤ 4095 ∧ 1 ≤ f.width.toNat ∧
      (x.widthKind = .time → f.width.toNat ≤ 2000) := by
  rw [← finOf_some_iff (by decide), ← widthKindOf_some_iff, firingOf]
  split
  · next st k hst hk =>
    rw [hst, hk]
    split
    · next hrange =>
      constructor
      · rintro ⟨⟩
        exact ⟨rfl, rfl, rfl, rfl, hrange⟩
      · rintro ⟨hs, hw, ha, hwidth, _⟩
        cases x
        cases hs
        cases hw
        cases ha
        cases hwidth
        rfl
    · next hrange =>
      refine ⟨nofun, ?_⟩
      rintro ⟨_, hw, _, _, hbad⟩
      cases hw
      exact absurd hbad hrange
  · next hnone =>
    exact ⟨nofun, fun h => absurd h.2.1 (hnone _ _ h.1)⟩

theorem firingOf_none_iff (f : FiringField) : firingOf f = none ↔
    3 < f.station.toNat ∨ 1 < f.widthKind.toNat ∨ f.adjust.toInt < -4096 ∨ 4095 < f.adjust.toInt ∨
      f.width = 0 ∨ (f.widthKind = 0 ∧ 2000 < f.width.toNat) := by
  have hwidth : f.width = 0 ↔ f.width.toNat < 1 := by
    rw [← BitVec.toNat_inj, Nat.lt_one_iff]
    rfl
  have hstation : 3 < f.station.toNat ↔ finOf 4 f.station = none := (finOf_none_iff 4 f.station).symm
  have htime : f.widthKind = 0 ↔ widthKindOf f.widthKind = some .time := (widthKindOf_some_iff _ .time).symm
  rw [hwidth, hstation, htime, ← widthKindOf_none_iff, firingOf]
  cases hs : finOf 4 f.station with
  | none => simp
  | some st =>
    cases hk : widthKindOf f.widthKind with
    | none => simp
    | some k =>
      simp only [reduceCtorEq, false_or, Option.some.injEq, ite_eq_right_iff, imp_false]
      cases k with
      | time =>
        simp only [true_implies, true_and]
        omega
      | counts =>
        simp only [reduceCtorEq, false_implies, false_and, and_true, or_false]
        omega

theorem confirmOf_some_iff (f : ConfirmField) (y : ConfirmSpec) : confirmOf f = some y ↔
    f.input = natByte y.input ∧ f.expect = y.expect.code ∧ y.openOffset = f.openOffset ∧
      y.closeOffset = f.closeOffset ∧ 1 ≤ f.openOffset.toNat ∧ f.openOffset.toNat ≤ maxOffset ∧
      1 ≤ f.closeOffset.toNat ∧ f.closeOffset.toNat ≤ maxOffset := by
  rw [← finOf_some_iff (by decide), ← expectOf_some_iff, confirmOf]
  split
  · next i e hi he =>
    rw [hi, he]
    split
    · next hrange =>
      constructor
      · rintro ⟨⟩
        exact ⟨rfl, rfl, rfl, rfl, hrange⟩
      · rintro ⟨hs, hw, ho, hc, _⟩
        cases y
        cases hs
        cases hw
        cases ho
        cases hc
        rfl
    · next hrange =>
      exact ⟨nofun, fun ⟨_, _, _, _, hbad⟩ => absurd hbad hrange⟩
  · next hnone =>
    exact ⟨nofun, fun h => absurd h.2.1 (hnone _ _ h.1)⟩

theorem confirmOf_none_iff (f : ConfirmField) : confirmOf f = none ↔
    15 < f.input.toNat ∨ 1 < f.expect.toNat ∨ f.openOffset = 0 ∨ 1048575 < f.openOffset.toNat ∨
      f.closeOffset = 0 ∨ 1048575 < f.closeOffset.toNat := by
  have hzero (p : Pos) : p = 0 ↔ p.toNat < 1 := by
    rw [← BitVec.toNat_inj, Nat.lt_one_iff]
    rfl
  have hinput : 15 < f.input.toNat ↔ finOf 16 f.input = none := (finOf_none_iff 16 f.input).symm
  rw [hzero, hzero, hinput, ← expectOf_none_iff, confirmOf]
  cases hs : finOf 16 f.input with
  | none => simp
  | some i =>
    cases he : expectOf f.expect with
    | none => simp
    | some e =>
      by_cases hrange : 1 ≤ f.openOffset.toNat ∧ f.openOffset.toNat ≤ maxOffset ∧ 1 ≤ f.closeOffset.toNat ∧
          f.closeOffset.toNat ≤ maxOffset
      · simp only [if_pos hrange, reduceCtorEq, false_or, false_iff]
        rw [maxOffset] at hrange
        omega
      · simp only [if_neg hrange, reduceCtorEq, false_or, true_iff]
        rw [maxOffset] at hrange
        omega

/-! ### The disposition of a payload (R30) -/

theorem firingsOf_none_iff : ∀ fs : List FiringField, firingsOf fs = none ↔ ∃ f ∈ fs, firingOf f = none
  | [] => by simp [firingsOf]
  | f :: fs => by
    rw [firingsOf, List.exists_mem_cons_iff, ← firingsOf_none_iff fs]
    cases firingOf f with
    | none => simp
    | some x => cases firingsOf fs <;> simp

theorem firingsOf_forall₂ : ∀ {fs : List FiringField} {xs : List Firing}, firingsOf fs = some xs →
    List.Forall₂ (fun f x => firingOf f = some x) fs xs
  | [], xs, h => by
    cases h
    exact .nil
  | f :: fs, xs, h => by
    rw [firingsOf] at h
    cases hf : firingOf f with
    | none => simp [hf] at h
    | some y =>
      cases hfs : firingsOf fs with
      | none => simp [hf, hfs] at h
      | some ys =>
        rw [hf, hfs] at h
        cases h
        exact .cons hf (firingsOf_forall₂ hfs)

theorem dispositionOf_none_iff (fs : List FiringField) (c : Option ConfirmField) : dispositionOf fs c = none ↔
    4 < fs.length ∨ (∃ f ∈ fs, firingOf f = none) ∨ ∃ k, c = some k ∧ confirmOf k = none := by
  rw [← firingsOf_none_iff]
  by_cases hlen : 4 < fs.length
  · simp [dispositionOf, hlen]
  · cases hfs : firingsOf fs with
    | none => simp [dispositionOf, hlen, hfs]
    | some xs => cases c <;> simp [dispositionOf, hlen, hfs]

theorem dispositionOf_some {fs : List FiringField} {c : Option ConfirmField} {d : Disposition}
    (h : dispositionOf fs c = some d) : firingsOf fs = some d.firings ∧
      ((c = none ∧ d.confirm = none) ∨ ∃ k y, c = some k ∧ d.confirm = some y ∧ confirmOf k = some y) := by
  have hlen : ¬ 4 < fs.length := fun hlen => by simp [dispositionOf, hlen] at h
  cases hfs : firingsOf fs with
  | none => simp [dispositionOf, hlen, hfs] at h
  | some xs =>
    cases c with
    | none =>
      simp only [dispositionOf, hlen, hfs, if_false, Option.some.injEq] at h
      cases h
      exact ⟨rfl, Or.inl ⟨rfl, rfl⟩⟩
    | some k =>
      simp only [dispositionOf, hlen, hfs, if_false] at h
      obtain ⟨y, hy, hd⟩ := Option.map_eq_some_iff.mp h
      cases hd
      exact ⟨rfl, Or.inr ⟨k, y, rfl, rfl, hy⟩⟩

/-! ### The request (R30, R31) -/

theorem boolCode_le (b : Bool) : ¬ 1 < (boolCode b).toNat := by
  cases b <;> decide

theorem reqSetDisposition_bad (s : State) {index : Byte} {fs : List FiringField} {c : Option ConfirmField}
    (h : 15 < index.toNat ∨ dispositionOf fs c = none) :
    s.reqSetDisposition index fs (boolCode c.isSome) c = s.refuse .badValue := by
  rw [State.reqSetDisposition, State.named]
  cases hi : finOf 16 index with
  | none => rfl
  | some i =>
    obtain hbad | hbad := h
    · rw [finOf_none (by omega)] at hi
      cases hi
    · simp only [hbad, ite_self]

theorem reqSetDisposition_coded (s : State) (i : Fin 16) {fs : List FiringField} {c : Option ConfirmField}
    {d : Disposition} (h : dispositionOf fs c = some d) :
    s.reqSetDisposition (natByte i) fs (boolCode c.isSome) c = if s.defaultsAccept i d then ([Status.ok.code],
      { s with verdicts := { s.verdicts with dispositions := tset s.verdicts.dispositions i d } })
      else s.refuse .geometry := by
  rw [State.reqSetDisposition, named_natByte s i (by decide), if_neg (boolCode_le _), h]

/-- Settles O45: validity condition by condition, the contents field by field, and the request by them. -/
theorem setDispositionWritesTheTable : Obligations.SetDispositionWritesTheTable := by
  refine ⟨fun s l d => ?_, fun fs c => ?_, fun fs c d hd => ?_, fun s seq index fs c hs hwf => ?_⟩
  · intro config
    rw [valid_iff, confirmValid_iff]
    simp only [firingValid_iff]
    exact Iff.rfl
  · rw [dispositionOf_none_iff]
    simp only [firingOf_none_iff, confirmOf_none_iff]
  · obtain ⟨hfs, hc⟩ := dispositionOf_some hd
    have hall := firingsOf_forall₂ hfs
    refine ⟨hall.length_eq.symm, fun k f hf => ?_, ?_, ?_⟩
    · obtain ⟨hk, rfl⟩ := List.getElem?_eq_some_iff.mp hf
      have hk' : k < d.firings.length := hall.length_eq ▸ hk
      have hx := (firingOf_some_iff _ _).mp (List.forall₂_iff_get.mp hall |>.2 k hk hk')
      obtain ⟨hstation, hkind, hadjust, hwidth, _⟩ := hx
      exact ⟨d.firings[k], List.getElem?_eq_getElem hk', hstation, hkind, hadjust, hwidth⟩
    · rintro rfl
      obtain ⟨_, hnone⟩ | ⟨k, _, hk, _⟩ := hc
      · exact hnone
      · cases hk
    · rintro k rfl
      obtain ⟨hk, _⟩ | ⟨_, y, hk, hy, hcode⟩ := hc
      · cases hk
      · cases hk
        obtain ⟨hinput, hexpect, hopen, hclose, _⟩ := (confirmOf_some_iff _ _).mp hcode
        exact ⟨y, hy, hinput, hexpect, hopen, hclose⟩
  · have hlen : fs.length ≤ 255 := by
      have hfits := of_decide_eq_true hwf
      omega
    have hdispatch (index : Byte) := dispatch_setDisposition s.received index fs c hlen
    refine ⟨fun hbad => ?_, ?_⟩
    · exact request_refused s 0x10 seq _ .badValue hs ((hdispatch index).trans (reqSetDisposition_bad _ hbad)) rfl
    · rintro i d rfl hd
      have hreq := (hdispatch (natByte i)).trans (reqSetDisposition_coded s.received i hd)
      refine ⟨fun ⟨l, hlive, hdefault, hbad⟩ => ?_, fun hok => ?_⟩
      · refine request_refused s 0x10 seq _ .geometry hs (hreq.trans (if_neg fun haccept => ?_)) rfl
        have hvalid : s.valid l d = true := (defaultsAccept_iff s.received i d).mp haccept l hlive hdefault
        exact Bool.false_ne_true (hbad.symm.trans hvalid)
      · have ⟨_, _, _, hagenda⟩ := hs
        exact request_writes s
          { s with verdicts := { s.verdicts with dispositions := tset s.verdicts.dispositions i d } } 0x10 seq _ [0] hs
          (hreq.trans (if_pos ((defaultsAccept_iff s.received i d).mpr hok))) hagenda rfl rfl

end Sys2Proof.Machine
end

section
/-! PROOFS. VERDICT: an advance list in tag order, a stored verdict, and the request case by case (R35 to R41). -/

namespace Sys2Proof.Machine

/-! ### Advance lists (R38, R41) -/

theorem mem_insertAdvance_self (next : Half) (e : AdvanceEntry) : ∀ list, e ∈ insertAdvance next e list
  | [] => List.mem_cons_self
  | x :: xs => by
    rw [insertAdvance]
    split
    · exact List.mem_cons_self
    · split
      · exact List.mem_cons_self
      · exact List.mem_cons_of_mem _ (mem_insertAdvance_self next e xs)

/-- R41: the entries of other tags stay. -/
theorem mem_insertAdvance_other {next : Half} {e x : AdvanceEntry} (hx : x.tag ≠ e.tag) :
    ∀ list, x ∈ insertAdvance next e list ↔ x ∈ list
  | [] => by
    have hne : x ≠ e := fun h => hx (congrArg _ h)
    simp [insertAdvance, hne]
  | y :: ys => by
    have hne : x ≠ e := fun h => hx (congrArg _ h)
    rw [insertAdvance]
    split
    · next htag =>
      have hney : x ≠ y := fun h => hx (h ▸ htag)
      simp [hne, hney]
    · split
      · simp [hne]
      · simp [mem_insertAdvance_other hx ys]

/-! ### A stored verdict (R36) -/

theorem bind_eq (it : Item) (k : Fin 16) : it.bind k = { it with
    stored := some { index := k, source := .host }
    amend := if it.stored.isSome then min 15 (it.amend + 1) else it.amend } := by
  rw [Item.bind]
  cases h : it.stored with
  | none => rfl
  | some v => rfl

theorem advanceFor_isSome (s : State) (l : LaneId) (tag : Half) :
    (s.advanceFor l tag).isSome = s.verdicts.advance[l].any (fun e => e.tag = tag) := by
  rw [State.advanceFor, List.isSome_find?]

/-! ### The request (R35) -/

theorem reqVerdict_bad (s : State) {lane index : Byte} (tag : Half) (h : 3 < lane.toNat ∨ 15 < index.toNat) :
    s.reqVerdict lane tag index = s.refuse .badValue := by
  rw [State.reqVerdict, State.named]
  cases hl : finOf 4 lane with
  | none => rfl
  | some l =>
    obtain hbad | hbad := h
    · rw [finOf_none (by omega)] at hl
      cases hl
    · exact named_bad s index hbad _

theorem reqVerdict_off (s : State) (l : LaneId) (tag : Half) (k : Fin 16) (h : s.lanes[l].state = .off) :
    s.reqVerdict (natByte l) tag (natByte k) = s.refuse .wrongState := by
  rw [State.reqVerdict, named_natByte s l (by decide), named_natByte s k (by decide), if_neg]
  rw [Lane.live, h]
  decide

theorem reqVerdict_live (s : State) (l : LaneId) (tag : Half) (k : Fin 16) (h : s.lanes[l].state ≠ .off) :
    s.reqVerdict (natByte l) tag (natByte k) = s.verdictFor l tag k := by
  rw [State.reqVerdict, named_natByte s l (by decide), named_natByte s k (by decide), if_pos]
  exact decide_eq_true h

theorem verdictFor_opened (s : State) {l : LaneId} {tag : Half} (k : Fin 16) {it : Item}
    (h : s.items.queues[l].find? (fun it => it.tag = tag) = some it) (ho : it.state = .opened) :
    s.verdictFor l tag k = s.bindVerdict it k := by
  rw [State.verdictFor, h]
  exact if_pos ho

theorem verdictFor_late (s : State) {l : LaneId} {tag : Half} (k : Fin 16) {it : Item}
    (h : s.items.queues[l].find? (fun it => it.tag = tag) = some it) (ho : it.state ≠ .opened) :
    s.verdictFor l tag k = s.refuse .late := by
  rw [State.verdictFor, h]
  exact if_neg ho

theorem verdictFor_retired (s : State) {l : LaneId} {tag : Half} (k : Fin 16)
    (h : s.items.queues[l].find? (fun it => it.tag = tag) = none)
    (hr : ∃ it ∈ s.items.retired, it.lane = l ∧ it.tag = tag) : s.verdictFor l tag k = s.refuse .late := by
  rw [State.verdictFor, h]
  exact if_pos (List.any_eq_true.mpr (by simpa using hr))

theorem verdictFor_unseen (s : State) {l : LaneId} {tag : Half} (k : Fin 16)
    (h : s.items.queues[l].find? (fun it => it.tag = tag) = none)
    (hr : ∀ it ∈ s.items.retired, ¬ (it.lane = l ∧ it.tag = tag)) :
    s.verdictFor l tag k = if (tag - s.lanes[l].nextTag).toNat ≤ 7 then s.adviseVerdict l tag k
      else s.refuse .unknownItem := by
  rw [State.verdictFor, h]
  refine if_neg fun hany => ?_
  obtain ⟨it, hmem, hit⟩ := List.any_eq_true.mp hany
  exact hr it hmem (by simpa using hit)

theorem exec_verdict_bad {s : State} (seq : Byte) {lane index : Byte} (tag : Half) (hs : s.takesNow 0x11 seq)
    (h : 3 < lane.toNat ∨ 15 < index.toNat) :
    exec (.verdict seq lane tag index) s = .next (s.answers 0x11 seq [3]) :=
  request_refused s 0x11 seq _ .badValue hs ((dispatch_verdict _ _ _ _).trans (reqVerdict_bad _ tag h)) rfl

/-- R35: a VERDICT refused for a lane and an index in range. -/
theorem exec_verdict_refused {s : State} (seq : Byte) {l : LaneId} {tag : Half} {k : Fin 16} (st : Status)
    (hs : s.takesNow 0x11 seq) (h : s.received.reqVerdict (natByte l) tag (natByte k) = s.received.refuse st) :
    exec (.verdict seq (natByte l) tag (natByte k)) s = .next (s.answers 0x11 seq [st.code]) :=
  request_refused s 0x11 seq _ st hs ((dispatch_verdict _ _ _ _).trans h) rfl

/-- R36, R39: a VERDICT for an OPEN item is stored in its record. -/
theorem exec_verdict_binds {s : State} (seq : Byte) {l : LaneId} {tag : Half} (k : Fin 16) {it : Item}
    (hs : s.takesNow 0x11 seq) (hlive : s.lanes[l].state ≠ .off)
    (hq : s.items.queues[l].find? (fun it => it.tag = tag) = some it) (ho : it.state = .opened) :
    exec (.verdict seq (natByte l) tag (natByte k)) s = .next (State.answers
      (s.mapRecord it.rid (fun x => { x with
        stored := some { index := k, source := .host }
        amend := if x.stored.isSome then min 15 (x.amend + 1) else x.amend })) 0x11 seq
      [0, if it.stored.isSome then 1 else 0,
        natByte (if it.stored.isSome then min 15 (it.amend + 1) else it.amend)]) := by
  have hagenda := hs.2.2.2
  have hbind : (fun x : Item => x.bind k) = fun x => { x with
      stored := some { index := k, source := .host }
      amend := if x.stored.isSome then min 15 (x.amend + 1) else x.amend } := funext fun x => bind_eq x k
  have hreq := (reqVerdict_live s.received l tag k hlive).trans (verdictFor_opened s.received k hq ho)
  rw [State.bindVerdict, hbind, bind_eq] at hreq
  exact request_writes s (s.mapRecord it.rid _) 0x11 seq _ _ hs ((dispatch_verdict _ _ _ _).trans hreq) hagenda rfl rfl

/-- R38, R39: a VERDICT for a tag to come joins the advance list of its lane. -/
theorem exec_verdict_advises {s : State} (seq : Byte) {l : LaneId} {tag : Half} (k : Fin 16)
    (hs : s.takesNow 0x11 seq) (h : s.received.reqVerdict (natByte l) tag (natByte k) = s.received.adviseVerdict l tag k) :
    exec (.verdict seq (natByte l) tag (natByte k)) s = .next (State.answers
      { s with verdicts := { s.verdicts with
        advance := tset s.verdicts.advance l (insertAdvance s.lanes[l].nextTag { tag := tag, index := k }
          s.verdicts.advance[l]) } } 0x11 seq
      [0, if s.verdicts.advance[l].any (fun e => e.tag = tag) then 3 else 2,
        natByte (insertAdvance s.lanes[l].nextTag { tag := tag, index := k } s.verdicts.advance[l]).length]) := by
  have hagenda := hs.2.2.2
  rw [State.adviseVerdict, advanceFor_isSome] at h
  exact request_writes s { s with verdicts := { s.verdicts with
    advance := tset s.verdicts.advance l (insertAdvance s.lanes[l].nextTag { tag := tag, index := k }
      s.verdicts.advance[l]) } } 0x11 seq _ _ hs ((dispatch_verdict _ _ _ _).trans h) hagenda rfl rfl

/-- Settles O46: the list by insertion, and the request by where the tag is found. -/
theorem verdictIsBoundOrRefused : Obligations.VerdictIsBoundOrRefused := by
  refine ⟨fun next e list hlist => ⟨insertAdvance_pairwise hlist, mem_insertAdvance_self next e list,
    fun x hx => mem_insertAdvance_other hx list⟩, fun s seq lane tag index hs => ⟨exec_verdict_bad seq tag hs, ?_⟩⟩
  rintro l k rfl rfl
  intro queued
  refine ⟨fun hoff => ?_, fun it hlive hq ho => exec_verdict_binds seq k hs hlive hq ho, fun it hlive hq ho => ?_,
    fun hlive hq hr => ?_, fun hlive hq hr => ⟨fun hnear => ?_, fun hfar => ?_⟩⟩
  · exact exec_verdict_refused seq .wrongState hs (reqVerdict_off s.received l tag k hoff)
  · exact exec_verdict_refused seq .late hs
      ((reqVerdict_live s.received l tag k hlive).trans (verdictFor_late s.received k hq ho))
  · exact exec_verdict_refused seq .late hs
      ((reqVerdict_live s.received l tag k hlive).trans (verdictFor_retired s.received k hq hr))
  · have hreq := (reqVerdict_live s.received l tag k hlive).trans (verdictFor_unseen s.received k hq hr)
    exact exec_verdict_advises seq k hs (hreq.trans (if_pos hnear))
  · have hreq := (reqVerdict_live s.received l tag k hlive).trans (verdictFor_unseen s.received k hq hr)
    exact exec_verdict_refused seq .unknownItem hs (hreq.trans (if_neg (Nat.not_le.mpr hfar)))

end Sys2Proof.Machine
end

section
/-! PROOFS. The commit: the decision, the order of the lists that its entries and its window join, and what it leaves
(R43 to R47, R52 to R54, R83). -/

namespace Sys2Proof.Machine

/-! ### The decision (R43, R44) -/

/-- R43: the source of an item's verdict. -/
def State.sourceOf (it : Item) : VerdictSource :=
  match it.stored with
  | some v => v.source
  | none => .default

/-- R43: the index of an item's verdict. -/
def State.indexOf (s : State) (it : Item) : Fin 16 :=
  match it.stored with
  | some v => v.index
  | none => s.lanes[it.lane].config.default

/-- R43, R44: the disposition chosen where it is valid, else the lane default. -/
theorem decide_eq (s : State) (it : Item) : s.decide it =
    if s.valid it.lane s.verdicts.dispositions[s.indexOf it] then
      { source := State.sourceOf it, index := s.indexOf it, substituted := false
        firings := s.verdicts.dispositions[s.indexOf it].firings
        confirm := s.verdicts.dispositions[s.indexOf it].confirm }
    else s.substitute it.lane := by
  cases hstored : it.stored with
  | none => simp only [State.decide, State.sourceOf, State.indexOf, hstored]
  | some v => simp only [State.decide, State.sourceOf, State.indexOf, hstored]

/-! ### The order of the lists (R53, R54, R83) -/

/-- What joins a list between those before it and those behind it leaves the list in order. -/
theorem pairwise_of_split {α : Type} {R : α → α → Prop} {e : α} {before after : List α}
    (hbefore : ∀ x ∈ before, R x e) (hhead : ∀ x, after.head? = some x → R e x)
    (htrans : ∀ x ∈ after, ∀ y ∈ after, R e x → R x y → R e y) (h : (before ++ after).Pairwise R) :
    (before ++ e :: after).Pairwise R := by
  obtain ⟨hb, ha, hacross⟩ := List.pairwise_append.mp h
  have hafter : ∀ y ∈ after, R e y := by
    cases after with
    | nil => nofun
    | cons x xs =>
      have hx : R e x := hhead x rfl
      intro y hy
      obtain rfl | hmem := List.mem_cons.mp hy
      · exact hx
      · exact htrans x List.mem_cons_self y hy hx ((List.pairwise_cons.mp ha).1 y hmem)
  refine List.pairwise_append.mpr ⟨hb, List.pairwise_cons.mpr ⟨hafter, ha⟩, fun x hx y hy => ?_⟩
  obtain rfl | hmem := List.mem_cons.mp hy
  · exact hbefore x hx
  · exact hacross x hx y hmem

/-- R53, R54: the order of the schedule lists. -/
def ScheduleEntry.Precedes (a b : ScheduleEntry) : Prop :=
  0 < (b.filing - a.filing).toInt ∨ (a.filing = b.filing ∧ a.serial < b.serial)

theorem standsBefore_iff (a b : ScheduleEntry) : a.standsBefore b = true ↔ a.Precedes b := by
  rw [ScheduleEntry.standsBefore, ScheduleEntry.Precedes, before, Bool.or_eq_true, Bool.and_eq_true, decide_eq_true_eq,
    decide_eq_true_eq, decide_eq_true_eq]

/-- Distances from a base tell positions apart. -/
theorem distance_inj (base p q : Pos) : p = q ↔ (p - base).toNat = (q - base).toNat := by
  refine ⟨fun h => by rw [h], fun h => ?_⟩
  have hsub : p - base = q - base := BitVec.eq_of_toNat_eq h
  rw [← BitVec.sub_add_cancel p base, hsub, BitVec.sub_add_cancel]

/-- R53: within half of the circle the order is that of distances, then of creation. -/
theorem precedes_iff_distance {base : Pos} {a b : ScheduleEntry} (ha : (a.filing - base).toNat < 0x80000000)
    (hb : (b.filing - base).toNat < 0x80000000) : a.Precedes b ↔
      (a.filing - base).toNat < (b.filing - base).toNat ∨
        ((a.filing - base).toNat = (b.filing - base).toNat ∧ a.serial < b.serial) := by
  rw [ScheduleEntry.Precedes, before_iff_distance base _ _ ha hb, distance_inj base]

theorem insertEntry_places (e : ScheduleEntry) (list : List ScheduleEntry) :
    ∃ before after, list = before ++ after ∧ insertEntry e list = before ++ e :: after ∧
      (∀ x ∈ before, ¬ e.Precedes x) ∧ ∀ x, after.head? = some x → e.Precedes x := by
  obtain ⟨before, after, hlist, hinsert, hbefore, hhead⟩ := insertEntry_split e list
  refine ⟨before, after, hlist, hinsert, fun x hx hprec => ?_, fun x hx => (standsBefore_iff e x).mp (hhead x hx)⟩
  exact Bool.false_ne_true ((hbefore x hx).symm.trans ((standsBefore_iff e x).mpr hprec))

/-- R53, R54: a list in order stays in order. -/
theorem insertEntry_ordered {e : ScheduleEntry} {list : List ScheduleEntry} {base : Pos}
    (hnear : ∀ x ∈ e :: list, (x.filing - base).toNat < 0x80000000) (hserial : ∀ x ∈ list, x.serial ≠ e.serial)
    (h : list.Pairwise ScheduleEntry.Precedes) : (insertEntry e list).Pairwise ScheduleEntry.Precedes := by
  obtain ⟨before, after, rfl, hinsert, hbefore, hhead⟩ := insertEntry_places e list
  have he := hnear e List.mem_cons_self
  have hx {x : ScheduleEntry} (hx : x ∈ before ++ after) := hnear x (List.mem_cons_of_mem e hx)
  rw [hinsert]
  refine pairwise_of_split (fun x hmem => ?_) hhead (fun x hmem y hmem' hex hxy => ?_) h
  · have hmem := List.mem_append_left after hmem
    have hnot := hbefore x ‹_›
    rw [precedes_iff_distance he (hx hmem)] at hnot
    rw [precedes_iff_distance (hx hmem) he]
    have := hserial x hmem
    omega
  · have hmem := List.mem_append_right before hmem
    have hmem' := List.mem_append_right before hmem'
    rw [precedes_iff_distance he (hx hmem)] at hex
    rw [precedes_iff_distance (hx hmem) (hx hmem')] at hxy
    rw [precedes_iff_distance he (hx hmem')]
    omega

theorem insertWindow_places (w : Window) (list : List Window) :
    ∃ before after, list = before ++ after ∧ insertWindow w list = before ++ w :: after ∧
      (∀ x ∈ before, ¬ 0 < (x.openPos - w.openPos).toInt) ∧
      ∀ x, after.head? = some x → 0 < (x.openPos - w.openPos).toInt := by
  obtain ⟨b, a, hlist, hinsert, hbefore, hhead⟩ := insertWindow_split w list
  exact ⟨b, a, hlist, hinsert, fun x hx => of_decide_eq_false (hbefore x hx),
    fun x hx => of_decide_eq_true (hhead x hx)⟩

/-- R83: within half of the circle positions stand in the order of their distances, equal ones included. -/
theorem notAfter_iff_distance (base p q : Pos) (hp : (p - base).toNat < 0x80000000)
    (hq : (q - base).toNat < 0x80000000) : 0 ≤ (q - p).toInt ↔ (p - base).toNat ≤ (q - base).toNat := by
  rw [BitVec.toInt_eq_toNat_cond]
  simp only [BitVec.toNat_sub] at *
  have := p.isLt
  have := q.isLt
  have := base.isLt
  split <;> omega

/-- R83: windows in order stay in order. -/
theorem insertWindow_ordered {w : Window} {list : List Window} {base : Pos}
    (hnear : ∀ x ∈ w :: list, (x.openPos - base).toNat < 0x80000000)
    (h : list.Pairwise (fun a b => 0 ≤ (b.openPos - a.openPos).toInt)) :
    (insertWindow w list).Pairwise (fun a b => 0 ≤ (b.openPos - a.openPos).toInt) := by
  obtain ⟨before, after, rfl, hinsert, hbefore, hhead⟩ := insertWindow_places w list
  have horder {x y : Window} (hx : x ∈ w :: (before ++ after)) (hy : y ∈ w :: (before ++ after)) :
      0 ≤ (y.openPos - x.openPos).toInt ↔ (x.openPos - base).toNat ≤ (y.openPos - base).toNat :=
    notAfter_iff_distance base _ _ (hnear x hx) (hnear y hy)
  rw [hinsert]
  have hw : w ∈ w :: (before ++ after) := List.mem_cons_self
  refine pairwise_of_split (fun x hmem => ?_) (fun x hx => (hhead x hx).le) (fun x hmem y hmem' hex hxy => ?_) h
  · have hx : x ∈ w :: (before ++ after) := List.mem_cons_of_mem _ (List.mem_append_left _ hmem)
    have hnot := hbefore x hmem
    rw [before_iff_distance base _ _ (hnear w hw) (hnear x hx)] at hnot
    exact (horder hx hw).mpr (by omega)
  · have hx : x ∈ w :: (before ++ after) := List.mem_cons_of_mem _ (List.mem_append_right _ hmem)
    have hy : y ∈ w :: (before ++ after) := List.mem_cons_of_mem _ (List.mem_append_right _ hmem')
    rw [horder hw hx] at hex
    rw [horder hx hy] at hxy
    exact (horder hw hy).mpr (by omega)

end Sys2Proof.Machine
end

section
/-! PROOFS. What a commit leaves: the record, the entries of its firings, and its window (R45 to R47, R52). -/

namespace Sys2Proof.Machine

/-! ### The entries (R46, R52) -/

/-- R46, R52: the entry of firing `k` of an item, WAITING at its ON position. -/
def State.firingEntry (s : State) (it : Item) (f : CommittedFiring) (k : Fin 4) : ScheduleEntry :=
  { serial := s.schedule.nextSerial + k.val, rid := it.rid, owner := { lane := it.lane, tag := it.tag, firing := k }
    output := s.lanes[it.lane].config.stationOutput f.station, widthKind := f.widthKind, width := f.width
    phase := .waiting, onPos := it.entryPos + f.fireOffset }

/-- R46: the position list with the entries of the firings. -/
def State.withEntries (s : State) (it : Item) (fs : List CommittedFiring) : List ScheduleEntry :=
  ((fs.zip [0, 1, 2, 3]).map (fun p => s.firingEntry it p.1 p.2)).foldl (fun list e => insertEntry e list)
    s.schedule.positionList

theorem createEntries_lists (s : State) (it : Item) {fs : List CommittedFiring} (h : fs.length ≤ 4) :
    (s.createEntries it fs).schedule.positionList = s.withEntries it fs ∧
      (s.createEntries it fs).schedule.timeList = s.schedule.timeList := by
  obtain ⟨n, hn⟩ := createEntries_eq s it fs h
  rw [hn]
  exact ⟨rfl, rfl⟩

theorem insertAll_perm : ∀ es list : List ScheduleEntry,
    (es.foldl (fun list e => insertEntry e list) list).Perm (es ++ list)
  | [], _ => .rfl
  | e :: es, list => by
    refine (insertAll_perm es (insertEntry e list)).trans ?_
    exact ((insertEntry_perm e list).append_left es).trans List.perm_middle

theorem withEntries_perm (s : State) (it : Item) (fs : List CommittedFiring) : (s.withEntries it fs).Perm
    ((fs.zip [0, 1, 2, 3]).map (fun p => s.firingEntry it p.1 p.2) ++ s.schedule.positionList) :=
  insertAll_perm _ _

theorem withEntries_length (s : State) (it : Item) {fs : List CommittedFiring} (h : fs.length ≤ 4) :
    (s.withEntries it fs).length = s.schedule.positionList.length + fs.length := by
  have hindices : ([0, 1, 2, 3] : List (Fin 4)).length = 4 := rfl
  rw [(withEntries_perm s it fs).length_eq, List.length_append, List.length_map, List.length_zip, hindices,
    Nat.min_eq_left h, Nat.add_comm]

/-- R46: the entry of each firing stands in the list. -/
theorem mem_withEntries (s : State) (it : Item) {fs : List CommittedFiring} {k : Fin 4} {f : CommittedFiring}
    (h : fs[k.val]? = some f) : s.firingEntry it f k ∈ s.withEntries it fs := by
  refine (withEntries_perm s it fs).symm.subset (List.mem_append_left _ ?_)
  refine List.mem_map.mpr ⟨(f, k), List.mem_of_getElem? (i := k.val) ?_, rfl⟩
  have hall : ∀ k : Fin 4, ([0, 1, 2, 3] : List (Fin 4))[k.val]? = some k := by decide
  have hk := hall k
  exact List.getElem?_zip_eq_some.mpr ⟨h, hk⟩

theorem stationOutput_some {c : LaneConfig} {k : Fin 4} {st : Station} (h : c.stations[k] = some st) :
    c.stationOutput k = st.output := by
  rw [LaneConfig.stationOutput, h]

theorem fireOffset_some {c : LaneConfig} {f : Firing} {st : Station} (h : c.stations[f.station] = some st) :
    (c.commitFiring f).fireOffset = BitVec.ofInt 32 (st.offset + f.adjust.toInt) := by
  rw [LaneConfig.commitFiring, h]
  rfl

/-! ### The commit (R45 to R47) -/

/-- R45: a decision as committed against a lane's configuration. -/
def Decision.against (d : Decision) (c : LaneConfig) : Committed :=
  { source := d.source, index := d.index, substituted := d.substituted, firings := d.firings.map c.commitFiring
    confirm := d.confirm.map ConfirmSpec.commit }

/-- R46: a decision whose item is skipped. -/
def Decision.left (d : Decision) : Committed :=
  { source := d.source, index := d.index, substituted := d.substituted, firings := [], confirm := none }

/-- R45 to R47: the entries and the window of a decision, before its record is written. -/
def State.entered (s : State) (it : Item) (d : Decision) : State :=
  (s.createEntries it (d.firings.map s.lanes[it.lane].config.commitFiring)).createWindow it
    (d.confirm.map ConfirmSpec.commit)

theorem commitDecision_fits {s : State} {it : Item} {d : Decision}
    (h : d.firings.length + (s.schedule.positionList.length + s.schedule.timeList.length) ≤ 64) :
    s.commitDecision it d = ((s.entered it d).mapRecord it.rid (fun x => { x with
      state := .committed, committed := some (d.against s.lanes[it.lane].config) })).raiseItem it.rid .commit := by
  rw [State.commitDecision, if_pos]
  · rfl
  · rw [List.length_map, Schedule.free, Config.scheduleSize]
    omega

theorem commitDecision_skips {s : State} {it : Item} {d : Decision}
    (hused : s.schedule.positionList.length + s.schedule.timeList.length ≤ 64)
    (h : 64 < d.firings.length + (s.schedule.positionList.length + s.schedule.timeList.length)) :
    s.commitDecision it d = (s.mapRecord it.rid (fun x => { x with
      state := .committed, committed := some d.left, skipped := true })).raiseItem it.rid .commit := by
  rw [State.commitDecision, if_neg]
  · rfl
  · rw [List.length_map, Schedule.free, Config.scheduleSize]
    omega

theorem entered_changes (s : State) (it : Item) (d : Decision) : OnlyChanges [.schedule, .windows] s (s.entered it d) :=
  (createEntries_changes s it _).mono.trans (createWindow_changes _ it _).mono

theorem entered_schedule (s : State) (it : Item) (d : Decision) : (s.entered it d).schedule =
    (s.createEntries it (d.firings.map s.lanes[it.lane].config.commitFiring)).schedule :=
  createWindow_changes _ it _ .schedule (by decide)

theorem createEntries_windows (s : State) (it : Item) (fs : List CommittedFiring) :
    (s.createEntries it fs).windows = s.windows :=
  createEntries_changes s it fs .windows (by decide)

theorem entered_unconfirmed (s : State) (it : Item) {d : Decision} (h : d.confirm = none) :
    (s.entered it d).windows = s.windows := by
  rw [State.entered, h]
  exact createEntries_windows s it _

/-- R47: the window of a confirm spec joins the list of its input. -/
theorem entered_confirmed (s : State) (it : Item) {d : Decision} {k : ConfirmSpec} (h : d.confirm = some k) :
    (s.entered it d).windows = tset s.windows k.input (insertWindow
      { rid := it.rid, lane := it.lane, tag := it.tag, openPos := it.entryPos + k.openOffset
        closePos := it.entryPos + k.closeOffset, expect := k.expect, phase := .pending } s.windows[k.input]) := by
  rw [State.entered, h, ← createEntries_windows s it (d.firings.map s.lanes[it.lane].config.commitFiring)]
  rfl

theorem opened_commit {s : State} {l : LaneId} {it : Item} (ok : s.items.Ok) (hq : it ∈ s.items.queues[l])
    (ho : it.state = .opened) : s.commit l it.rid = s.commitDecision it (s.decide it) := by
  have hfind : s.items.queues[l].find? (fun x => x.rid = it.rid) = some it :=
    find_of_unique hq (decide_eq_true rfl) fun x hx hrid =>
      List.inj_on_of_nodup_map (queue_rids_nodup ok l) hx hq (of_decide_eq_true hrid)
  rw [State.commit, hfind]
  exact if_pos ho

/-! ### The record of a queue, and its flag (R45, R165) -/

/-- `t` is a state of the same notices with the record `rid` of the queue of `l` through `f`, its COMMIT flag raised. -/
def State.RaisesCommit (s t : State) (l : LaneId) (rid : Nat) (f : Item → Item) : Prop :=
  ∃ u : State, t = u.raiseItem rid .commit ∧ u.notices = s.notices ∧
    u.items = { s.items with queues := tset s.items.queues l (s.items.queues[l].map (fun x =>
      if x.rid = rid then f x else x)) }

theorem mapRecord_raisesCommit {s u : State} {l : LaneId} {it : Item} (f : Item → Item) (ok : s.items.Ok)
    (hq : it ∈ s.items.queues[l]) (hitems : u.items = s.items) (hnotices : u.notices = s.notices) :
    s.RaisesCommit ((u.mapRecord it.rid f).raiseItem it.rid .commit) l it.rid f := by
  refine ⟨u.mapRecord it.rid f, rfl, hnotices, ?_⟩
  rw [mapRecord_queue u l it f (hitems ▸ ok) (hitems ▸ hq)]
  show ({ u.items with queues := tset u.items.queues l (mapRid it.rid f u.items.queues[l]) } : Items) = _
  rw [hitems]
  rfl

/-- The record stands in its queue as it was written, but for its notice flags. -/
theorem State.RaisesCommit.record {s t : State} {l : LaneId} {it : Item} {f : Item → Item} (h : s.RaisesCommit t l it.rid f)
    (hq : it ∈ s.items.queues[l]) : ∃ it' ∈ t.items.queues[l], it'.sansFlags = (f it).sansFlags := by
  obtain ⟨u, rfl, _, hitems⟩ := h
  have hsame := (raiseItem_sameRecords u it.rid .commit).1 l
  have hmem : f it ∈ u.items.queues[l] := by
    rw [hitems]
    show f it ∈ (tset s.items.queues l _)[l]
    rw [tset_get_self]
    exact List.mem_map.mpr ⟨it, hq, if_pos rfl⟩
  exact List.mem_map.mp (hsame ▸ List.mem_map_of_mem hmem)

/-- Settles O47: the decision by what is valid, the lists by insertion, and the commit by whether its entries fit. -/
theorem commitFixesTheDisposition : Obligations.CommitFixesTheDisposition := by
  refine ⟨fun s it => ?_, fun c f => ⟨rfl, rfl, rfl, rfl, fun _ => fireOffset_some⟩, fun _ => rfl, ?_, fun w list =>
    ⟨insertWindow_places w list, fun _ => insertWindow_ordered⟩, fun s l it ok hq ho => ?_⟩
  · intro dflt source index d e
    have hdecide := decide_eq s it
    refine ⟨fun hvalid => hdecide.trans (if_pos hvalid), fun hbad hvalid => ?_, fun hbad hbad' => ?_⟩
    · have hsubstitute := hdecide.trans (if_neg (by rw [Bool.not_eq_true]; exact hbad))
      rw [State.substitute] at hsubstitute
      exact hsubstitute.trans (congrArg (Decision.mk _ _ _ _) (if_pos hvalid))
    · have hsubstitute := hdecide.trans (if_neg (by rw [Bool.not_eq_true]; exact hbad))
      rw [State.substitute] at hsubstitute
      exact hsubstitute.trans (congrArg (Decision.mk _ _ _ _) (if_neg (by rw [Bool.not_eq_true]; exact hbad')))
  · intro precedes e list
    exact ⟨insertEntry_places e list, fun _ => insertEntry_ordered⟩
  · have hlane : it.lane = l := ok.2.1 l it hq
    subst hlane
    intro d t config firings used raises entry
    have ht : t = s.commitDecision it d := opened_commit ok hq ho
    have hentry (f : CommittedFiring) (k : Fin 4) : entry f k = s.firingEntry it f k := rfl
    refine ⟨fun hfour hroom => ?_, fun hused hfull => ?_⟩
    · have hfour' : firings.length ≤ 4 := by rw [List.length_map]; exact hfour
      have hfits := ht.trans (commitDecision_fits hroom)
      have hunchanged := entered_changes s it d
      have hraises : s.RaisesCommit t it.lane it.rid _ := hfits ▸ mapRecord_raisesCommit _ ok hq
        (hunchanged .items (by decide)) (hunchanged .notices (by decide))
      have hafter := raiseItem_changes ((s.entered it d).mapRecord it.rid (fun x => { x with
        state := .committed, committed := some (d.against s.lanes[it.lane].config) })) it.rid .commit
      have hschedule : t.schedule = (s.createEntries it firings).schedule := by
        rw [hfits]
        exact (hafter .schedule (by decide)).trans (entered_schedule s it d)
      have hwindows : t.windows = (s.entered it d).windows := by
        rw [hfits]
        exact hafter .windows (by decide)
      obtain ⟨hposition, htime⟩ := createEntries_lists s it hfour'
      rw [← hschedule] at hposition htime
      refine ⟨hraises.record hq, hraises, ?_, ?_, htime, fun k f hf => ?_, fun k f st hf hst => ?_, fun hnone => ?_,
        fun k hk => ?_⟩
      · rw [hposition, State.withEntries]
        simp only [hentry]
      · rw [hposition, withEntries_length s it hfour', List.length_map]
      · refine ⟨s.firingEntry it f k, hposition ▸ mem_withEntries s it hf, rfl, rfl, rfl, rfl, rfl, rfl, fun st hst => ?_⟩
        exact stationOutput_some hst
      · have hf' : firings[k.val]? = some (config.commitFiring f) := by rw [List.getElem?_map, hf, Option.map_some]
        refine ⟨s.firingEntry it _ k, hposition ▸ mem_withEntries s it hf', rfl, stationOutput_some hst, ?_⟩
        exact congrArg (it.entryPos + ·) (fireOffset_some hst)
      · exact hwindows.trans (entered_unconfirmed s it hnone)
      · exact hwindows.trans (entered_confirmed s it hk)
    · have hskips := ht.trans (commitDecision_skips hused hfull)
      have hraises : s.RaisesCommit t it.lane it.rid _ := hskips ▸ mapRecord_raisesCommit _ ok hq rfl rfl
      have hafter := raiseItem_changes (s.mapRecord it.rid (fun x => { x with
        state := .committed, committed := some d.left, skipped := true })) it.rid .commit
      refine ⟨hraises.record hq, hraises, ?_, ?_⟩
      · rw [hskips]
        exact hafter .schedule (by decide)
      · rw [hskips]
        exact hafter .windows (by decide)

end Sys2Proof.Machine
end

section
/-! PROOFS. The end of an item: its result, its exit point, and its completion check (R7, R17, R19, R20, R107). -/

namespace Sys2Proof.Machine

/-! ### The result (R20) -/

/-- R17, R19: an item has work left. -/
def Item.Working (it : Item) : Prop :=
  (∃ f ∈ it.firings, f.result = .pending) ∨ it.confirmResult = some .waiting

theorem workDone_of_not_working {it : Item} (h : ¬ it.Working) : it.workDone = true :=
  (workDone_iff it).mpr h

theorem workDone_of_working {it : Item} (h : it.Working) : it.workDone = false := by
  rw [← Bool.not_eq_true, workDone_iff, Classical.not_not]
  exact h

theorem any_result_iff (fs : List CommittedFiring) (r : FiringResult) :
    fs.any (fun f => f.result = r) = true ↔ ∃ f ∈ fs, f.result = r := by
  simp only [List.any_eq_true, decide_eq_true_eq]

/-! ### Becoming DONE (R20) -/

theorem becomeDone_on {s : State} (it : Item) (q : Summary) (h : s.notices.settings.outcomeOn = true) :
    s.becomeDone it q = State.raiseItem { s with items := { s.items with
      done := s.items.done ++ [it.ended q] } } it.rid .outcome :=
  if_pos h

theorem becomeDone_off {s : State} (it : Item) (q : Summary) (h : s.notices.settings.outcomeOn = false) :
    s.becomeDone it q = { s with notices := s.notices.forget it.rid } :=
  if_neg (by rw [Bool.not_eq_true]; exact h)

/-- R8, R162: a freed record's references leave, by any test that tells them from the others. -/
theorem forget_eq (n : Notices) (rid : Nat) {keeps : NoticeRef → Bool}
    (hitem : ∀ r sub, keeps (.item r sub) = decide (r ≠ rid)) (hlane : ∀ l, keeps (.lane l) = true) :
    n.forget rid = { n with
      refs := n.refs.filter keeps
      sent := n.sent.map (fun e => if e.link = .item rid then { e with link := .none } else e)
      unsent := n.unsent.map (fun e => if e.link = .item rid then { e with link := .none } else e) } := by
  have hkeeps : (fun r : NoticeRef => !r.isOf rid) = keeps := funext fun r => by
    cases r with
    | item r sub =>
      rw [hitem, decide_not]
      rfl
    | lane l => rw [hlane, NoticeRef.isOf, Bool.not_false]
  rw [Notices.forget, hkeeps]
  rfl

/-! ### Leaving the queue (R17, R107) -/

section
variable {s : State} {l : LaneId} {it : Item} {rest : List Item}

theorem leaveQueue_working (ok : s.items.Ok) (hq : s.items.queues[l] = it :: rest) (h : it.Working) :
    s.leaveQueue it = { s with items := { s.items with
      queues := tset s.items.queues l rest
      passed := s.items.passed ++ [{ it with covering := false, state := .passed }] } } := by
  rw [leaveQueue_passes s it (workDone_of_working h), dropRecord_head s l it rest ok hq]

theorem leaveQueue_finished (ok : s.items.Ok) (hq : s.items.queues[l] = it :: rest) (h : ¬ it.Working) :
    s.leaveQueue it = { (s.setQueue l rest).becomeDone { it with covering := false } it.summary with
      agenda := s.agenda ++ [[.trigger (.outcome it.lane it.summary)]] } := by
  rw [leaveQueue_ends s it (workDone_of_not_working h), dropRecord_head s l it rest ok hq, push_eq]
  show ({ State.becomeDone (s.setQueue l rest) _ _ with agenda := _ } : State) = _
  rw [becomeDone_agenda]
  rfl

theorem leaveQueue_queue (ok : s.items.Ok) (hq : s.items.queues[l] = it :: rest) :
    (s.leaveQueue it).items.queues[l].map Item.sansFlags = rest.map Item.sansFlags := by
  by_cases h : it.Working
  · rw [leaveQueue_working ok hq h]
    show (tset s.items.queues l rest)[l].map _ = _
    rw [tset_get_self]
  · rw [leaveQueue_finished ok hq h]
    refine ((becomeDone_records (s.setQueue l rest) _ _).1 l).trans ?_
    show (tset s.items.queues l rest)[l].map _ = _
    rw [tset_get_self]

theorem leaveQueue_lanes (ok : s.items.Ok) (hq : s.items.queues[l] = it :: rest) : s.sameLanes (s.leaveQueue it) := by
  by_cases h : it.Working
  · rw [leaveQueue_working ok hq h]
    exact sameLanes_of_lanes rfl
  · rw [leaveQueue_finished ok hq h]
    exact becomeDone_sameLanes (s.setQueue l rest) _ _

theorem reportCount_sameRecords (s : State) (l : LaneId) : s.sameRecords (s.reportCount l) := by
  rw [State.reportCount]
  split
  · exact enterOff_sameRecords s l
  · exact State.sameRecords.refl s

theorem reportCount_agenda (s : State) (l : LaneId) : (s.reportCount l).agenda = s.agenda :=
  reportCount_changes s l .agenda (by decide)

/-- R107, R115: the last item of a lane in DRAIN takes it to OFF. -/
theorem reportCount_drained (hdrain : s.lanes[l].state = .drain) (hempty : s.items.queues[l] = []) :
    (s.reportCount l).lanes[l].state = .off ∧ (s.reportCount l).verdicts.advance[l] = [] ∧
      (s.reportCount l).laneNoticed l := by
  have hoff : s.reportCount l = s.enterOff l := if_pos ⟨hdrain, congrArg List.length hempty⟩
  rw [hoff]
  refine ⟨(congrArg Lane.state (enterOff_lane s l) : _), ?_, enterOff_noticed (by rw [hdrain]; decide)⟩
  rw [enterOff_verdicts]
  exact tset_get_self _ _ _

/-- R107: the last item that leaves a lane in DRAIN ends the drain. -/
theorem leaveQueue_drained (ok : s.items.Ok) (hq : s.items.queues[l] = it :: []) (hdrain : s.lanes[l].state = .drain) :
    ((s.leaveQueue it).reportCount l).lanes[l].state = .off ∧
      ((s.leaveQueue it).reportCount l).verdicts.advance[l] = [] ∧
      ((s.leaveQueue it).reportCount l).laneNoticed l := by
  refine reportCount_drained ?_ ?_
  · exact (congrArg Lane.state (leaveQueue_lanes ok hq l) : _).trans hdrain
  · exact List.map_eq_nil_iff.mp (leaveQueue_queue ok hq)

end

/-! ### The completion check (R19) -/

/-- R1: a PASSED record leaves its list and touches nothing else. -/
theorem dropRecord_of_passed {s : State} (ok : s.items.Ok) {it : Item} (h : it ∈ s.items.passed) : s.dropRecord it.rid =
    { s with items := { s.items with passed := s.items.passed.filter (fun x => x.rid ≠ it.rid) } } := by
  have hdone : dropRid it.rid s.items.done = s.items.done := by
    have hnodup := retired_rids_nodup ok
    rw [List.map_append, List.nodup_append] at hnodup
    obtain ⟨_, _, hapart⟩ := hnodup
    exact dropRid_of_ne _ _ fun x hx => hapart _ (List.mem_map_of_mem hx) _ (List.mem_map_of_mem h)
  have hqueues : tmap (dropRid it.rid) s.items.queues = s.items.queues :=
    vector_ext fun l => by rw [tmap_get, dropRid_queue_of_passed ok h l]
  rw [State.dropRecord, hdone, hqueues]
  rfl

theorem find_passed {s : State} (ok : s.items.Ok) {it : Item} (h : it ∈ s.items.passed) :
    s.items.passed.find? (fun x => x.rid = it.rid) = some it :=
  find_of_unique h (decide_eq_true rfl) fun _ hx hrid =>
    eq_of_rid ok (mem_all_of_passed hx) (mem_all_of_passed h) (of_decide_eq_true hrid)

theorem checkDone_working {s : State} (ok : s.items.Ok) {it : Item} (h : it ∈ s.items.passed) (hw : it.Working) :
    s.checkDone it.rid = s := by
  rw [State.checkDone, find_passed ok h]
  exact if_neg (by rw [workDone_of_working hw]; exact Bool.false_ne_true)

/-- R19, R20: a PASSED item without work left is DONE. -/
theorem checkDone_finished {s : State} (ok : s.items.Ok) {it : Item} (h : it ∈ s.items.passed) (hw : ¬ it.Working) :
    s.checkDone it.rid = { State.becomeDone { s with items := { s.items with
        passed := s.items.passed.filter (fun x => x.rid ≠ it.rid) } } it it.summary with
      agenda := s.agenda ++ [[.trigger (.outcome it.lane it.summary)]] } := by
  rw [State.checkDone, find_passed ok h]
  refine (if_pos (workDone_of_not_working hw)).trans ?_
  rw [dropRecord_of_passed ok h, push_eq]
  show ({ State.becomeDone _ _ _ with agenda := _ } : State) = _
  rw [becomeDone_agenda]
  rfl

/-- Settles O48: the result by its priorities, becoming DONE by the setting, the exit point and the completion check by
whether work is left. -/
theorem itemEndsWithItsResult : Obligations.ItemEndsWithItsResult := by
  refine ⟨fun it => ?_, fun s it q => ?_, fun s l it rest ok hq => ?_, fun s it ok hit => ?_, fun s rid h => ?_⟩
  · rw [Item.summary]
    simp only [any_result_iff]
  · refine ⟨becomeDone_on it q, fun hoff => (becomeDone_off it q hoff).trans ?_⟩
    refine congrArg (fun n => { s with notices := n }) (forget_eq s.notices it.rid ?_ ?_)
    · exact fun _ _ => rfl
    · exact fun _ => rfl
  · obtain ⟨hexit, hothers⟩ := exitPoint_head s l it rest hq
    intro t working left
    have ht : t = (s.leaveQueue it).reportCount l := hexit
    have hagenda : t.agenda = (s.leaveQueue it).agenda := ht ▸ reportCount_agenda _ l
    obtain ⟨hqueues, hdone, hpassed⟩ : (s.leaveQueue it).sameRecords t := ht ▸ reportCount_sameRecords _ l
    refine ⟨fun hw => ht.trans (congrArg (State.reportCount · l) (leaveQueue_working ok hq hw)),
      fun hw => ht.trans (congrArg (State.reportCount · l) (leaveQueue_finished ok hq hw)), hothers,
      (hqueues l).trans (leaveQueue_queue ok hq), fun hw => ?_, fun hw => ?_, fun hdrain hrest => ?_⟩
    · rw [hagenda, hdone, hpassed, leaveQueue_working ok hq hw]
      exact ⟨rfl, rfl, rfl⟩
    · rw [hagenda, hdone, hpassed, leaveQueue_finished ok hq hw]
      obtain ⟨_, hkeptPassed, haddedDone⟩ :=
        becomeDone_records (s.setQueue l rest) { it with covering := false } it.summary
      exact ⟨rfl, hkeptPassed, haddedDone⟩
    · subst hrest
      rw [ht]
      exact leaveQueue_drained ok hq hdrain
  · intro t working
    refine ⟨checkDone_working ok hit, checkDone_finished ok hit, fun hw => ?_⟩
    have ht : t = _ := checkDone_finished ok hit hw
    obtain ⟨hqueues, hpassed, hdone⟩ := becomeDone_records { s with items := { s.items with
      passed := s.items.passed.filter (fun x => x.rid ≠ it.rid) } } it it.summary
    rw [ht]
    exact ⟨rfl, hqueues, hpassed, hdone⟩
  · exact checkDone_unpassed h

end Sys2Proof.Machine
end

section
/-! REFUTATION. The creation of a record at the entry eye: in a state whose schedule holds two entries of one serial
number, one of them named for the record to come, the creation ends the firing of another item of the queue (R9, R48). -/

namespace Sys2Proof.Machine

/-- A committed item of lane 0 with one firing PENDING. -/
def twinItem : Item :=
  { rid := 0, lane := 0, tag := 0, state := .committed, entryPos := 0, entryTime := 0, covering := false, length := none
    overlength := false, stored := none, amend := 0
    committed := some
      { source := .default, index := 0, substituted := false, confirm := none
        firings := [{ station := 0, fireOffset := 0, widthKind := .counts, width := 1, result := .pending }] }
    skipped := false, result := none, entryFlag := .notDue, commitFlag := .notDue, outcomeFlag := .notDue }

/-- An entry of serial number 0 that is ON and at its OFF position, for the record `rid`. -/
def twinEntry (rid : Nat) : ScheduleEntry :=
  { serial := 0, rid := rid, owner := { lane := 0, tag := 0, firing := 0 }, output := 0, widthKind := .counts
    width := 1, phase := .onCounts 0, onPos := 0 }

/-- Lane 0 in RUN with the item in its queue, and two entries of one serial number: the item's, and one for the record
that the next edge creates. No bound of the Item Table is broken, and no point of a new item is reached. -/
def twinState : State :=
  { State.reset with
    items := { Items.reset with queues := tset Items.reset.queues 0 [twinItem], nextRid := 1 }
    schedule := { State.reset.schedule with positionList := [twinEntry 0, twinEntry 1] }
    lanes := tset State.reset.lanes 0 { Lane.reset with
      state := .run, config := { LaneConfig.reset with entryInput := some 0, d := 1, x := 3, l := 2 } }
    inputs := tset State.reset.inputs 0 { Input.reset with role := .entry, awaiting := false } }

/-- The firing results of the records in the queue of lane 0 after a step. -/
def firingResults (c : Instr) (s : State) : List (List FiringResult) :=
  match exec c s with
  | .next t => t.items.queues[0].map (fun it => it.firings.map (·.result))
  | .fault _ => []
  | .refused _ => []

/-- The edge creates a record, and the entry found by the serial number of the new record's is the item's: it ends. -/
theorem firingResults_twinState : firingResults (.acceptedTransition 0) twinState = [[.done], []] := by
  decide

theorem twinState_itemsOk : twinState.items.Ok := by
  refine ⟨by decide, fun l => ?_, by decide, by decide⟩
  revert l
  decide

theorem twinState_accepts : twinState.acceptsAs 0 .high twinState.position.capture := by
  refine Or.inl ?_
  decide

/-- Refutes O49: the clause of the creation asks of the state only that its records are well-formed, and fails where a
serial number of the schedule is not unique. -/
theorem not_entryEyeEdges : ¬ Obligations.EntryEyeEdges := by
  intro h
  obtain ⟨hcreates, _⟩ := h twinState 0 0 .high twinState.position.capture (by decide) twinState_accepts (by decide)
    (by decide) (by decide)
  obtain ⟨t, ht, hqueue, _⟩ := hcreates (by decide) (by decide) (by decide) (by decide) (by decide) rfl
    twinState_itemsOk (by decide)
  have hresults := firingResults_twinState
  rw [firingResults, ht] at hresults
  have hclaimed := congrArg (List.map (fun it : Item => it.firings.map (·.result))) hqueue
  rw [List.map_map, List.map_map] at hclaimed
  have hkept : t.items.queues[0].map (fun it => it.firings.map (·.result)) = [[.pending], []] := hclaimed
  exact absurd (hresults.symm.trans hkept) (by decide)

end Sys2Proof.Machine
end

section
/-! SUPPORT. The points of a new item that HW has reached: which they are, how one is taken, and what one owes (R11, R48,
R93). A point owes what taking it can still bring: the commit its entries and its window, an entry its OFF position, a
window its close event. Each point taken lowers the sum, so none is left when the fuel of `State.takeReached` is above
it. -/

namespace Sys2Proof.Machine

/-! ### Which points are due (R11, R48, R93) -/

section
variable (s : State) (it : Item) (o : Nat) (e : Event)

theorem mem_dueJam : (o, e) ∈ s.dueJam it ↔ e = .jam it.lane it.rid ∧ o = s.lanes[it.lane].config.l ∧
    it.covering = true ∧ it.overlength = false ∧
      0 ≤ (s.position.hw - (it.entryPos + BitVec.ofNat 32 s.lanes[it.lane].config.l)).toInt := by
  have hcond : (it.covering = true ∧ ¬ it.overlength = true ∧
      reached s.position.hw (it.point s.lanes[it.lane].config.l) = true) ↔ it.covering = true ∧ it.overlength = false ∧
        0 ≤ (s.position.hw - (it.entryPos + BitVec.ofNat 32 s.lanes[it.lane].config.l)).toInt := by
    rw [reached_iff, Bool.not_eq_true, Item.point]
  rw [State.dueJam]
  by_cases h : it.covering = true ∧ ¬ it.overlength = true ∧
      reached s.position.hw (it.point s.lanes[it.lane].config.l) = true
  · rw [if_pos h, List.mem_singleton, Prod.mk.injEq]
    exact ⟨fun ⟨ho, he⟩ => ⟨he, ho, hcond.mp h⟩, fun ⟨he, ho, _⟩ => ⟨ho, he⟩⟩
  · rw [if_neg h]
    exact ⟨nofun, fun ⟨_, _, hdue⟩ => absurd (hcond.mpr hdue) h⟩

theorem mem_dueDecision : (o, e) ∈ s.dueDecision it ↔ e = .decision it.lane it.rid ∧
    o = s.lanes[it.lane].config.d ∧ it.state = .opened ∧
      0 ≤ (s.position.hw - (it.entryPos + BitVec.ofNat 32 s.lanes[it.lane].config.d)).toInt := by
  have hcond : (it.state = .opened ∧ reached s.position.hw (it.point s.lanes[it.lane].config.d) = true) ↔
      it.state = .opened ∧
        0 ≤ (s.position.hw - (it.entryPos + BitVec.ofNat 32 s.lanes[it.lane].config.d)).toInt := by
    rw [reached_iff, Item.point]
  rw [State.dueDecision]
  by_cases h : it.state = .opened ∧ reached s.position.hw (it.point s.lanes[it.lane].config.d) = true
  · rw [if_pos h, List.mem_singleton, Prod.mk.injEq]
    exact ⟨fun ⟨ho, he⟩ => ⟨he, ho, hcond.mp h⟩, fun ⟨he, ho, _⟩ => ⟨ho, he⟩⟩
  · rw [if_neg h]
    exact ⟨nofun, fun ⟨_, _, hdue⟩ => absurd (hcond.mpr hdue) h⟩

theorem mem_dueSchedule : (o, e) ∈ s.dueSchedule it ↔ ∃ x ∈ s.schedule.positionList, x.rid = it.rid ∧
    e = .schedulePoint x.serial ∧ o = (x.filing - it.entryPos).toNat ∧ 0 ≤ (s.position.hw - x.filing).toInt := by
  rw [State.dueSchedule, List.mem_map]
  simp only [List.mem_filter, decide_eq_true_eq, reached_iff, Prod.mk.injEq, Item.offsetOf]
  exact ⟨fun ⟨x, ⟨hx, hrid, hr⟩, ho, he⟩ => ⟨x, hx, hrid, he.symm, ho.symm, hr⟩,
    fun ⟨x, hx, hrid, he, ho, hr⟩ => ⟨x, ⟨hx, hrid, hr⟩, ho.symm, he.symm⟩⟩

theorem mem_dueWindow : (o, e) ∈ s.dueWindow it ↔ ∃ i : InputId, ∃ w ∈ s.windows[i], w.rid = it.rid ∧
    ((e = .windowOpen i w.rid ∧ o = (w.openPos - it.entryPos).toNat ∧ w.phase = .pending ∧
        0 ≤ (s.position.hw - w.openPos).toInt) ∨
      (e = .windowClose i w.rid ∧ o = (w.closePos + 1 - it.entryPos).toNat ∧ w.phase = .opened ∧
        0 ≤ (s.position.hw - (w.closePos + 1)).toInt)) := by
  have hone {p : Pos} {e' : Event} : (o, e) ∈ (if reached s.position.hw p then [(it.offsetOf p, e')] else []) ↔
      e = e' ∧ o = (p - it.entryPos).toNat ∧ 0 ≤ (s.position.hw - p).toInt := by
    rw [← reached_iff]
    split
    · next h => simp [h, Item.offsetOf, and_comm]
    · next h => simp [h]
  rw [State.dueWindow, List.mem_flatMap]
  refine exists_congr fun i => ?_
  rw [List.mem_flatMap]
  constructor
  · rintro ⟨_, w, hw, hdue⟩
    obtain ⟨hw, hrid⟩ := List.mem_filter.mp hw
    refine ⟨w, hw, of_decide_eq_true hrid, ?_⟩
    split at hdue
    · next hphase =>
      obtain ⟨he, ho, hr⟩ := hone.mp hdue
      exact Or.inl ⟨he, ho, hphase, hr⟩
    · next hphase =>
      obtain ⟨he, ho, hr⟩ := hone.mp hdue
      exact Or.inr ⟨he, ho, hphase, hr⟩
    · cases hdue
  · rintro ⟨w, hw, hrid, hdue⟩
    refine ⟨mem_allInputs i, w, List.mem_filter.mpr ⟨hw, decide_eq_true hrid⟩, ?_⟩
    obtain ⟨he, ho, hphase, hr⟩ | ⟨he, ho, hphase, hr⟩ := hdue
    · rw [hphase]
      exact hone.mpr ⟨he, ho, hr⟩
    · rw [hphase]
      exact hone.mpr ⟨he, ho, hr⟩

end

theorem mem_duePoints (s : State) (it : Item) (p : Nat × Event) : p ∈ s.duePoints it ↔
    p ∈ s.dueJam it ∨ p ∈ s.dueDecision it ∨ p ∈ s.dueSchedule it ∨ p ∈ s.dueWindow it := by
  rw [State.duePoints]
  simp only [List.mem_append, or_assoc]

/-! ### One point is taken (R11, R48) -/

theorem mem_nearest (ps : List (Nat × Event)) (e : Event) :
    e ∈ nearest ps ↔ ∃ p ∈ ps, (∀ q ∈ ps, p.1 ≤ q.1) ∧ e = p.2 := by
  rw [nearest, List.mem_map]
  simp only [List.mem_filter, List.all_eq_true, decide_eq_true_eq, and_assoc]
  exact ⟨fun ⟨p, hp, hmin, he⟩ => ⟨p, hp, hmin, he.symm⟩, fun ⟨p, hp, hmin, he⟩ => ⟨p, hp, hmin, he.symm⟩⟩

/-- Some point stands at the smallest offset. -/
theorem nearest_ne_nil {ps : List (Nat × Event)} (h : ps ≠ []) : nearest ps ≠ [] := by
  obtain ⟨p, hp, hmin⟩ := Finset.exists_min_image ps.toFinset (·.1) (by simpa using h)
  intro hnil
  have hmem : p.2 ∈ nearest ps := (mem_nearest ps p.2).mpr
    ⟨p, by simpa using hp, fun q hq => hmin q (by simpa using hq), rfl⟩
  rw [hnil] at hmem
  cases hmem

theorem find_queue {s : State} {l : LaneId} {it : Item} (ok : s.items.Ok) (hq : it ∈ s.items.queues[l]) :
    s.items.queues[l].find? (fun x => x.rid = it.rid) = some it :=
  find_of_unique hq (decide_eq_true rfl) fun _ hx hrid =>
    List.inj_on_of_nodup_map (queue_rids_nodup ok l) hx hq (of_decide_eq_true hrid)

theorem takeReached_gone {s : State} {l : LaneId} {rid : Nat} (h : ∀ x ∈ s.items.queues[l], x.rid ≠ rid) (n : Nat) :
    State.takeReached n l rid s = s := by
  cases n with
  | zero => rfl
  | succ n =>
    have hnone : s.items.queues[l].find? (fun x => x.rid = rid) = none :=
      List.find?_eq_none.mpr fun x hx hrid => h x hx (of_decide_eq_true hrid)
    rw [State.takeReached, hnone]

section
variable {s : State} {l : LaneId} {it : Item} (ok : s.items.Ok) (hq : it ∈ s.items.queues[l])
include ok hq

/-- R11, R48: one of the points at the smallest offset is taken. -/
theorem takeReached_takes (n : Nat) (h : s.duePoints it ≠ []) : ∃ p ∈ s.duePoints it,
    (∀ q ∈ s.duePoints it, p.1 ≤ q.1) ∧ ∃ k, State.takeReached (n + 1) l it.rid s =
      State.takeReached n l it.rid (State.takeCreated { s with choices := k } p.2) := by
  have hlen : 0 < (nearest (s.duePoints it)).length := List.length_pos_iff.mpr (nearest_ne_nil h)
  have hlt := choose_lt s hlen
  obtain ⟨p, hp, hmin, he⟩ := (mem_nearest _ _).mp (List.getElem_mem hlt)
  refine ⟨p, hp, hmin, if (nearest (s.duePoints it)).length = 1 then s.choices else s.choices + 1, ?_⟩
  rw [State.takeReached, find_queue ok hq, ← he, ← choose_choices hlen.ne']
  simp only [List.getElem?_eq_getElem hlt]

/-- R11: the exit point is taken last. -/
theorem takeReached_exits (n : Nat) (h : s.duePoints it = []) : State.takeReached (n + 1) l it.rid s =
    if 0 ≤ (s.position.hw - (it.entryPos + BitVec.ofNat 32 s.lanes[l].config.x)).toInt then s.exitPoint l it.rid
    else s := by
  have hnearest : nearest (s.duePoints it) = [] := by rw [h]; rfl
  rw [State.takeReached, find_queue ok hq]
  simp only [hnearest, List.getElem?_nil]
  simp only [reached_iff, Item.point]

end

end Sys2Proof.Machine
end

section
/-! SUPPORT. What the points of a record owe, and that each point taken lowers it (R11, R48). -/

namespace Sys2Proof.Machine

/-! ### A cause that does not abandon (R109, R111, R112) -/

theorem takeCause_mild (s : State) (l : LaneId) {c : Cause} (h : c.abandons = false) :
    s.sameRecords (s.takeCause l c) ∧ OnlyChanges [.items, .notices, .lanes, .agenda] s (s.takeCause l c) := by
  have hnot : ¬ c.abandons = true := by rw [h]; exact Bool.false_ne_true
  have henter : s.sameRecords (s.enterFault l c) ∧
      OnlyChanges [.items, .notices, .lanes, .agenda] s (s.enterFault l c) := by
    rw [enterFault_eq, if_neg hnot]
    have hstruck : s.sameRecords (s.struck l c) := (mapLane_sameRecords s l _).trans (toLaneState_sameRecords _ l .fault)
    exact ⟨hstruck.trans (sameRecords_of_items rfl), (struck_changes s l c).mono.trans (push_changes _ _).mono⟩
  rw [State.takeCause]
  split
  · exact ⟨.refl s, .refl _ s⟩
  · exact henter
  · exact henter
  · rw [joinCause_eq, if_neg hnot]
    exact ⟨withCause_sameRecords s l c, (withCause_changes s l c).mono⟩

/-! ### Debts -/

/-- What a phase of an entry still brings: its ON position and its OFF position. -/
def Phase.debt : Phase → Nat
  | .waiting => 2
  | .onCounts _ => 1
  | .onTime _ => 0

/-- What a phase of a window still brings: its open position and its close event. -/
def WindowPhase.debt : WindowPhase → Nat
  | .pending => 2
  | .opened => 1
  | .holding => 0

/-- What a record itself still brings: its jam point, and the commit with 4 entries and a window. -/
def Item.debt (it : Item) : Nat :=
  (if it.covering = true ∧ it.overlength = false then 1 else 0) + if it.state = .opened then 11 else 0

/-- What the position list owes for a record. -/
def positionDebt (rid : Nat) (list : List ScheduleEntry) : Nat :=
  ((list.filter (·.rid = rid)).map (·.phase.debt)).sum

/-- The windows of a record: none, or one that owes no more than `n`. -/
def State.WindowDebt (s : State) (rid n : Nat) : Prop :=
  (∀ i : InputId, ∀ w ∈ s.windows[i], w.rid ≠ rid) ∨
    ∃ (i : InputId) (w : Window), w ∈ s.windows[i] ∧ w.rid = rid ∧ w.phase.debt ≤ n ∧
      ∀ j : InputId, ∀ v ∈ s.windows[j], v.rid = rid → j = i ∧ v = w

/-- No entry and no window is the record's. -/
def State.Unused (s : State) (rid : Nat) : Prop :=
  (∀ e ∈ s.schedule.entries, e.rid ≠ rid) ∧ ∀ i : InputId, ∀ w ∈ s.windows[i], w.rid ≠ rid

/-- The points of the record `rid`, while it stands in the queue of `l`, owe no more than `n`. -/
structure State.Owes (s : State) (l : LaneId) (rid n : Nat) : Prop where
  ok : s.recordsOk
  owed : ∀ x ∈ s.items.queues[l], x.rid = rid → (x.state = .opened → s.Unused rid) ∧
    ∃ k, s.WindowDebt rid k ∧ x.debt + positionDebt rid s.schedule.positionList + k ≤ n

theorem positionDebt_append (rid : Nat) (xs ys : List ScheduleEntry) :
    positionDebt rid (xs ++ ys) = positionDebt rid xs + positionDebt rid ys := by
  rw [positionDebt, List.filter_append, List.map_append, List.sum_append]
  rfl

theorem positionDebt_perm {rid : Nat} {xs ys : List ScheduleEntry} (h : xs.Perm ys) :
    positionDebt rid xs = positionDebt rid ys :=
  ((h.filter _).map _).sum_eq

theorem positionDebt_cons {rid : Nat} {e : ScheduleEntry} (h : e.rid = rid) (xs : List ScheduleEntry) :
    positionDebt rid (e :: xs) = e.phase.debt + positionDebt rid xs := by
  rw [positionDebt, List.filter_cons_of_pos (p := fun x : ScheduleEntry => x.rid = rid) (decide_eq_true h), List.map_cons, List.sum_cons]
  rfl

theorem positionDebt_none {rid : Nat} {xs : List ScheduleEntry} (h : ∀ e ∈ xs, e.rid ≠ rid) :
    positionDebt rid xs = 0 := by
  rw [positionDebt, List.filter_eq_nil_iff.mpr fun e he hrid => h e he (of_decide_eq_true hrid)]
  rfl

theorem positionDebt_sublist {rid : Nat} {xs ys : List ScheduleEntry} (h : xs.Sublist ys) :
    positionDebt rid xs ≤ positionDebt rid ys :=
  ((h.filter _).map _).sum_le_sum fun _ _ => Nat.zero_le _

/-- R66: an entry that leaves its list takes what it owes with it. -/
theorem positionDebt_dropped {rid : Nat} {e : ScheduleEntry} (h : e.rid = rid) : ∀ {xs : List ScheduleEntry}, e ∈ xs →
    positionDebt rid (xs.filter (fun x => x.serial ≠ e.serial)) + e.phase.debt ≤ positionDebt rid xs := by
  intro xs he
  obtain ⟨before, after, rfl⟩ := List.append_of_mem he
  have hdrop : (before ++ e :: after).filter (fun x => x.serial ≠ e.serial) =
      before.filter (fun x => x.serial ≠ e.serial) ++ after.filter (fun x => x.serial ≠ e.serial) := by
    rw [List.filter_append, List.filter_cons_of_neg (by simp)]
  rw [hdrop, positionDebt_append, positionDebt_append, positionDebt_cons h]
  have hbefore := positionDebt_sublist (rid := rid) (List.filter_sublist (p := fun x => x.serial ≠ e.serial) (l := before))
  have hafter := positionDebt_sublist (rid := rid) (List.filter_sublist (p := fun x => x.serial ≠ e.serial) (l := after))
  omega

/-! ### The record after a step -/

/-- The record of a queue that a change of the records `rid` gives, but for its notice flags. -/
theorem record_of_mapRid {f : Item → Item} {rid : Nat} {xs ys : List Item}
    (h : ys.map Item.sansFlags = (mapRid rid f xs).map Item.sansFlags) {x : Item} (hx : x ∈ ys) (hrid : x.rid = rid) :
    ∃ y ∈ xs, y.rid = rid ∧ x.sansFlags = (f y).sansFlags := by
  obtain ⟨z, hz, hzx⟩ := mem_of_sansFlags h hx
  obtain ⟨y, hy, rfl⟩ := List.mem_map.mp hz
  have hzrid := (sansFlags_rid hzx).trans hrid
  by_cases hyrid : y.rid = rid
  · rw [if_pos hyrid] at hzx
    exact ⟨y, hy, hyrid, hzx.symm⟩
  · rw [if_neg hyrid] at hzrid
    exact absurd hzrid hyrid

theorem sansFlags_state {x y : Item} (h : x.sansFlags = y.sansFlags) : x.state = y.state :=
  (congrArg Item.state h : _)

theorem sansFlags_debt {x y : Item} (h : x.sansFlags = y.sansFlags) : x.debt = y.debt := by
  have hstate : x.state = y.state := sansFlags_state h
  have hcovering : x.covering = y.covering := (congrArg Item.covering h : _)
  have hoverlength : x.overlength = y.overlength := (congrArg Item.overlength h : _)
  rw [Item.debt, Item.debt, hstate, hcovering, hoverlength]

end Sys2Proof.Machine
end

section
/-! SUPPORT. Each point of a record that is taken lowers what it owes (R11, R48). -/

namespace Sys2Proof.Machine

theorem State.WindowDebt.congr {s t : State} {rid k : Nat} (h : s.WindowDebt rid k) (hw : t.windows = s.windows) :
    t.WindowDebt rid k := by
  rw [State.WindowDebt, hw]
  exact h

theorem State.Unused.congr {s t : State} {rid : Nat} (h : s.Unused rid) (hs : t.schedule = s.schedule)
    (hw : t.windows = s.windows) : t.Unused rid := by
  rw [State.Unused, hs, hw]
  exact h

theorem mapRecord_get (s : State) (rid : Nat) (f : Item → Item) (l : LaneId) :
    (s.mapRecord rid f).items.queues[l] = mapRid rid f s.items.queues[l] :=
  tmap_get _ _ _

section
variable {s : State} {l : LaneId} {it : Item} {n : Nat}

/-- A step that writes the record and leaves less owed. -/
theorem owes_of_step {t : State} {f : Item → Item} (ok : s.items.Ok) (hq : it ∈ s.items.queues[l]) (hrecords : t.recordsOk)
    (hqueue : t.items.queues[l].map Item.sansFlags = (mapRid it.rid f s.items.queues[l]).map Item.sansFlags)
    (hunused : (f it).state = .opened → t.Unused it.rid) {k : Nat} (hk : t.WindowDebt it.rid k)
    (hless : (f it).debt + positionDebt it.rid t.schedule.positionList + k < n) : ∃ m < n, t.Owes l it.rid m := by
  refine ⟨n - 1, by omega, hrecords, fun x hx hrid => ?_⟩
  obtain ⟨y, hy, hyrid, hxy⟩ := record_of_mapRid hqueue hx hrid
  have hyit : y = it := List.inj_on_of_nodup_map (queue_rids_nodup ok l) hy hq hyrid
  subst hyit
  refine ⟨fun ho => hunused ((sansFlags_state hxy).symm.trans ho), k, hk, ?_⟩
  rw [sansFlags_debt hxy]
  omega

/-! ### The jam point (R16) -/

theorem jamPoint_due (ok : s.items.Ok) (hq : it ∈ s.items.queues[l]) (hcovering : it.covering = true)
    (hlength : it.overlength = false) : s.jamPoint l it.rid =
      (s.mapRecord it.rid (fun x => { x with overlength := true })).takeCause l .jam := by
  rw [State.jamPoint, find_queue ok hq]
  exact if_pos ⟨hcovering, by rw [hlength]; exact Bool.false_ne_true⟩

theorem jamPoint_owes (h : s.Owes l it.rid n) (hq : it ∈ s.items.queues[l]) (hcovering : it.covering = true)
    (hlength : it.overlength = false) : ∃ m < n, (s.jamPoint l it.rid).Owes l it.rid m := by
  obtain ⟨hunused, k, hk, hn⟩ := h.owed it hq rfl
  have hrecords := (jamPoint_keeps s l it.rid).records h.ok
  rw [jamPoint_due h.ok.1 hq hcovering hlength] at hrecords ⊢
  obtain ⟨hsame, hchanges⟩ := takeCause_mild (s.mapRecord it.rid (fun x => { x with overlength := true })) l
    (c := .jam) rfl
  have hschedule := hchanges .schedule (by decide)
  have hwindows := hchanges .windows (by decide)
  refine owes_of_step h.ok.1 hq hrecords ((hsame.1 l).trans (by rw [mapRecord_get]))
    (fun ho => (hunused ho).congr hschedule hwindows) (hk.congr hwindows) ?_
  rw [show _ = s.schedule from hschedule]
  have hless : Item.debt { it with overlength := true } + 1 = it.debt := by
    simp [Item.debt, hcovering, hlength, Nat.add_comm]
  omega

/-! ### The entries (R55 to R59) -/

/-- What the point of an entry leaves: the record's firing written, the entry gone from its place, and at most an ON entry
filed in its stead. -/
structure State.TakesPoint (s : State) (l : LaneId) (e : ScheduleEntry) (t : State) : Prop where
  queue : ∃ f : Item → Item, (∀ x, (f x).state = x.state ∧ (f x).debt = x.debt) ∧
    t.items.queues[l].map Item.sansFlags = (mapRid e.rid f s.items.queues[l]).map Item.sansFlags
  windows : t.windows = s.windows
  position : positionDebt e.rid t.schedule.positionList + 1 ≤ positionDebt e.rid s.schedule.positionList

theorem mapRid_id (rid : Nat) (xs : List Item) : mapRid rid id xs = xs := by
  rw [mapRid]
  simp

theorem ended_position {e : ScheduleEntry} (he : e ∈ s.schedule.positionList) (hdebt : 1 ≤ e.phase.debt) :
    positionDebt e.rid (s.dropEntry e.serial).schedule.positionList + 1 ≤ positionDebt e.rid s.schedule.positionList := by
  have hdropped := positionDebt_dropped rfl he
  show positionDebt e.rid (s.schedule.positionList.filter _) + 1 ≤ _
  omega

theorem endFiring_takes {e : ScheduleEntry} (hphase : e.phase = .waiting) (he : e ∈ s.schedule.positionList)
    (r : FiringResult) : s.TakesPoint l e (s.endEntry e r) := by
  rw [endEntry_waiting hphase]
  refine ⟨⟨fun it => it.endFiring e.owner.firing r, fun _ => ⟨rfl, rfl⟩, by rw [mapRecord_get]; rfl⟩, rfl, ?_⟩
  exact ended_position he (by rw [hphase]; decide)

theorem goOn_takes {e : ScheduleEntry} (hphase : e.phase = .waiting) (he : e ∈ s.schedule.positionList) :
    s.TakesPoint l e (s.goOn e) := by
  rw [goOn_eq]
  refine ⟨⟨id, fun _ => ⟨rfl, rfl⟩, by rw [mapRid_id]⟩, rfl, ?_⟩
  have hdropped := positionDebt_dropped (rid := e.rid) rfl he
  have hwaiting : e.phase.debt = 2 := by rw [hphase]; rfl
  cases hkind : e.widthKind with
  | counts =>
    have hon := onPhase_counts s hkind
    rw [file_counts (off := e.onPos + e.width.setWidth 32) _ hon]
    show positionDebt e.rid (insertEntry _ (s.schedule.positionList.filter _)) + 1 ≤ _
    rw [positionDebt_perm (insertEntry_perm _ _), positionDebt_cons (rid := e.rid) (by rfl), hon]
    show 1 + _ + 1 ≤ _
    omega
  | time =>
    have hon := onPhase_time s hkind
    rw [file_time (off := s.position.ts + BitVec.ofNat 32 (e.width.toNat * 1000)) _ hon]
    show positionDebt e.rid (s.schedule.positionList.filter _) + 1 ≤ _
    omega

theorem endReported_takes {e : ScheduleEntry} {off : Pos} (ok : s.items.Ok) (hphase : e.phase = .onCounts off)
    (he : e ∈ s.schedule.positionList) (r : FiringResult) : s.TakesPoint l e (s.endReported e r) := by
  have hon : s.endReported e r = _ := endReported_on (isOn_of_counts hphase) s r
  have hstays : (s.entryEnded e r).items.Ok :=
    Items.InPlace.ok (mapRecord_inPlace s e.rid (fun _ => ⟨rfl, rfl, rfl, rfl, id, id⟩)) ok
  have hchanges := checkDone_changes (s.entryEnded e r) e.rid
  rw [hon]
  refine ⟨⟨fun it => it.endFiring e.owner.firing r, fun _ => ⟨rfl, rfl⟩, ?_⟩, hchanges .windows (by decide), ?_⟩
  · rw [checkDone_queue hstays e.rid l]
    exact congrArg _ (mapRecord_get s e.rid _ l)
  · rw [show _ = (s.dropEntry e.serial).schedule from hchanges .schedule (by decide)]
    exact ended_position he (by rw [hphase]; exact Nat.le_refl 1)

/-- R55: the point of an entry in the position list. -/
theorem schedulePoint_takes (ok : s.recordsOk) {e : ScheduleEntry} (he : e ∈ s.schedule.positionList)
    (h : 0 ≤ (s.position.hw - e.filing).toInt) : s.TakesPoint l e (s.schedulePoint e.serial) := by
  obtain ⟨hitems, _, hschedule, _⟩ := ok
  rw [schedulePoint_reached hschedule he h, State.takePoint]
  cases hphase : e.phase with
  | waiting =>
    show s.TakesPoint l e (s.takeOn e)
    rw [State.takeOn]
    split
    · exact endFiring_takes hphase he .suppressed
    · split
      · exact goOn_takes hphase he
      · exact endFiring_takes hphase he .conflict
  | onCounts off => exact endReported_takes hitems hphase he .done
  | onTime off => exact absurd hphase (hschedule.2.1 e he off)

theorem schedulePoint_owes (h : s.Owes l it.rid n) (hq : it ∈ s.items.queues[l]) {e : ScheduleEntry}
    (he : e ∈ s.schedule.positionList) (hrid : e.rid = it.rid) (hreached : 0 ≤ (s.position.hw - e.filing).toInt) :
    ∃ m < n, (s.schedulePoint e.serial).Owes l it.rid m := by
  obtain ⟨hunused, k, hk, hn⟩ := h.owed it hq rfl
  obtain ⟨⟨f, hf, hqueue⟩, hwindows, hposition⟩ := schedulePoint_takes (l := l) h.ok he hreached
  rw [hrid] at hqueue hposition
  refine owes_of_step h.ok.1 hq ((schedulePoint_keeps s e.serial).records h.ok) hqueue (fun ho => ?_) (hk.congr hwindows) ?_
  · exact absurd hrid ((hunused ((hf it).1.symm.trans ho)).1 e (mem_entries_position he))
  · rw [(hf it).2]
    omega

end

end Sys2Proof.Machine
end

section
/-! PROOFS. Each point of a record that is taken lowers what it owes, the windows and the commit; so none of the points
reached at creation is left (R11, R48, R93). -/

namespace Sys2Proof.Machine

section
variable {s : State} {l : LaneId} {it : Item} {n : Nat}

/-! ### The window (R85, R89) -/

/-- The window of a record is its only one. -/
theorem State.WindowDebt.only {rid k : Nat} (h : s.WindowDebt rid k) {i : InputId} {w : Window} (hw : w ∈ s.windows[i])
    (hrid : w.rid = rid) : w.phase.debt ≤ k ∧ ∀ j : InputId, ∀ v ∈ s.windows[j], v.rid = rid → j = i ∧ v = w := by
  obtain hnone | ⟨i', w', _, _, hdebt, honly⟩ := h
  · exact absurd hrid (hnone i w hw)
  · obtain ⟨rfl, rfl⟩ := honly i w hw hrid
    exact ⟨hdebt, honly⟩

/-- R85, R89: the window of a record in a new phase. -/
theorem setPhase_windowDebt {i : InputId} {w : Window} (hw : w ∈ s.windows[i])
    (honly : ∀ j : InputId, ∀ v ∈ s.windows[j], v.rid = w.rid → j = i ∧ v = w) (p : WindowPhase) :
    (s.setPhase i w.rid p).WindowDebt w.rid p.debt := by
  rw [setPhase_only (fun v hv hrid => (honly i v hv hrid).2)]
  refine Or.inr ⟨i, { w with phase := p }, ?_, rfl, Nat.le_refl _, fun j v hv hrid => ?_⟩
  · show _ ∈ (tset s.windows i _)[i]
    rw [tset_get_self]
    exact List.mem_map.mpr ⟨w, hw, if_pos rfl⟩
  · have hv' : v ∈ (tset s.windows i (s.windows[i].map _))[j] := hv
    rw [tset_get] at hv'
    split at hv'
    · next hij =>
      obtain ⟨u, hu, rfl⟩ := List.mem_map.mp hv'
      by_cases hurid : u.rid = w.rid
      · exact ⟨hij.symm, if_pos hurid⟩
      · rw [if_neg hurid] at hrid
        exact absurd hrid hurid
    · next hij => exact absurd (honly j v hv' hrid).1.symm hij

theorem resolveWindow_windowDebt {i : InputId} {rid : Nat}
    (honly : ∀ j : InputId, ∀ v ∈ s.windows[j], v.rid = rid → j = i) (r : ConfirmResult) :
    (s.resolveWindow i rid r).WindowDebt rid 0 := by
  refine Or.inl fun j v hv hrid => ?_
  by_cases hj : j = i
  · subst hj
    rw [resolveWindow_own] at hv
    exact of_decide_eq_true (List.mem_filter.mp hv).2 hrid
  · rw [resolveWindow_other s hj] at hv
    exact hj (honly j v hv hrid)

/-- A window that takes another phase leaves the records alone. -/
theorem setPhase_owes (h : s.Owes l it.rid n) (hq : it ∈ s.items.queues[l]) {i : InputId} {w : Window}
    (hw : w ∈ s.windows[i]) (hrid : w.rid = it.rid) {p : WindowPhase} (hless : p.debt < w.phase.debt)
    (hrecords : (s.setPhase i w.rid p).recordsOk) : ∃ m < n, (s.setPhase i w.rid p).Owes l it.rid m := by
  obtain ⟨hunused, k, hk, hn⟩ := h.owed it hq rfl
  obtain ⟨hdebt, honly⟩ := hk.only hw hrid
  have hwindow := setPhase_windowDebt hw (fun j v hv hv' => honly j v hv (hv'.trans hrid)) p
  rw [hrid] at hwindow hrecords ⊢
  refine owes_of_step (f := id) h.ok.1 hq hrecords ?_ (fun ho => absurd hrid ((hunused ho).2 i w hw)) hwindow ?_
  · rw [mapRid_id]
    rfl
  · show it.debt + positionDebt it.rid s.schedule.positionList + _ < n
    omega

theorem openWindow_owes (h : s.Owes l it.rid n) (hq : it ∈ s.items.queues[l]) {i : InputId} {w : Window}
    (hw : w ∈ s.windows[i]) (hrid : w.rid = it.rid) (hphase : w.phase = .pending)
    (hreached : 0 ≤ (s.position.hw - w.openPos).toInt) : ∃ m < n, (s.openWindow i w.rid).Owes l it.rid m := by
  obtain ⟨_, k, hk, _⟩ := h.owed it hq rfl
  obtain ⟨_, honly⟩ := hk.only hw hrid
  have hopen := openWindow_due hw (fun v hv hv' => (honly i v hv (hv'.trans hrid)).2) hphase hreached
  have hrecords := (openWindow_keeps s i w.rid).records h.ok
  rw [hopen] at hrecords ⊢
  exact setPhase_owes h hq hw hrid (by rw [hphase]; decide) hrecords

theorem closeWindow_owes (h : s.Owes l it.rid n) (hq : it ∈ s.items.queues[l]) {i : InputId} {w : Window}
    (hw : w ∈ s.windows[i]) (hrid : w.rid = it.rid) (hphase : w.phase = .opened)
    (hreached : 0 ≤ (s.position.hw - (w.closePos + 1)).toInt) : ∃ m < n, (s.closeWindow i w.rid).Owes l it.rid m := by
  obtain ⟨hunused, k, hk, hn⟩ := h.owed it hq rfl
  obtain ⟨hdebt, honly⟩ := hk.only hw hrid
  have hclose := closeWindow_due hw (fun v hv hv' => (honly i v hv (hv'.trans hrid)).2) hphase hreached
  have hrecords := (closeWindow_keeps s i w.rid).records h.ok
  rw [hclose] at hrecords ⊢
  by_cases hrun : s.inputs[i].run.isSome = true
  · rw [if_pos hrun] at hrecords ⊢
    exact setPhase_owes h hq hw hrid (by rw [hphase]; decide) hrecords
  · rw [if_neg hrun] at hrecords ⊢
    rw [hrid] at hrecords ⊢
    rw [hphase] at hdebt
    have hopened : WindowPhase.opened.debt = 1 := rfl
    refine owes_of_step h.ok.1 hq hrecords (resolveWindow_queue h.ok.1 i it.rid w.expect.unmatched l)
      (fun ho => absurd hrid ((hunused ho).2 i w hw))
      (resolveWindow_windowDebt (fun j v hv hv' => (honly j v hv hv').1) w.expect.unmatched) ?_
    rw [show _ = s.schedule from resolveWindow_changes s i it.rid w.expect.unmatched .schedule (by decide)]
    show it.debt + positionDebt it.rid s.schedule.positionList + 0 < n
    omega

/-! ### The commit (R45 to R47) -/

theorem decide_firings (h : ∀ i : Fin 16, s.verdicts.dispositions[i].firings.length ≤ 4) (it : Item) :
    (s.decide it).firings.length ≤ 4 := by
  rw [decide_eq]
  split
  · exact h _
  · exact h _

/-- R46, R52: the entries of a commit owe their ON and OFF positions. -/
theorem withEntries_debt {fs : List CommittedFiring} (hfs : fs.length ≤ 4)
    (hunused : ∀ e ∈ s.schedule.positionList, e.rid ≠ it.rid) : positionDebt it.rid (s.withEntries it fs) ≤ 8 := by
  rw [positionDebt_perm (withEntries_perm s it fs), positionDebt_append, positionDebt_none hunused, positionDebt]
  have hsum := List.sum_le_card_nsmul
    (((((fs.zip [0, 1, 2, 3]).map (fun p => s.firingEntry it p.1 p.2)).filter (·.rid = it.rid))).map (·.phase.debt)) 2
    (fun d hd => ?_)
  · have hlen := List.length_filter_le (fun e : ScheduleEntry => decide (e.rid = it.rid))
      ((fs.zip [0, 1, 2, 3]).map (fun p => s.firingEntry it p.1 p.2))
    rw [List.length_map, List.length_zip] at hlen
    rw [List.length_map, smul_eq_mul] at hsum
    omega
  · obtain ⟨e, he, rfl⟩ := List.mem_map.mp hd
    obtain ⟨p, _, rfl⟩ := List.mem_map.mp (List.mem_filter.mp he).1
    exact Nat.le_refl 2

theorem mem_insertWindow {w v : Window} {list : List Window} : v ∈ insertWindow w list ↔ v = w ∨ v ∈ list := by
  obtain ⟨b, a, rfl, hinsert, _⟩ := insertWindow_split w list
  rw [hinsert]
  simp only [List.mem_append, List.mem_cons]
  tauto

/-- R47: the window of a commit owes its open position and its close event. -/
theorem entered_windowDebt (hunused : ∀ i : InputId, ∀ w ∈ s.windows[i], w.rid ≠ it.rid) (d : Decision) :
    (s.entered it d).WindowDebt it.rid 2 := by
  cases hd : d.confirm with
  | none =>
    have hsame := entered_unconfirmed s it hd
    exact Or.inl fun i w hw => hunused i w (hsame ▸ hw)
  | some k =>
    have hwindows := entered_confirmed s it hd
    rw [State.WindowDebt, hwindows]
    refine Or.inr ⟨k.input, { rid := it.rid, lane := it.lane, tag := it.tag, openPos := it.entryPos + k.openOffset
                              closePos := it.entryPos + k.closeOffset, expect := k.expect, phase := .pending },
      ?_, rfl, Nat.le_refl 2, fun j v hv hrid => ?_⟩
    · rw [tset_get_self]
      exact mem_insertWindow.mpr (Or.inl rfl)
    · rw [tset_get] at hv
      split at hv
      · next hj =>
        obtain hv | hv := mem_insertWindow.mp hv
        · exact ⟨hj.symm, hv⟩
        · exact absurd hrid (hunused _ v hv)
      · exact absurd hrid (hunused j v hv)

/-- R45: an OPEN record that is committed owes its own commit no more. -/
theorem debt_of_committed {x y : Item} (h : x.state = .committed) (hy : y.state = .opened)
    (hcovering : x.covering = y.covering) (hlength : x.overlength = y.overlength) : x.debt + 11 = y.debt := by
  have hx : ¬ x.state = .opened := by
    rw [h]
    decide
  rw [Item.debt, Item.debt, if_pos hy, if_neg hx, hcovering, hlength]

/-- R45: the queue with its record written and the COMMIT flag raised. -/
theorem raised_queue {u : State} (h : u.items = s.items) (rid : Nat) (f : Item → Item) (l : LaneId) :
    ((u.mapRecord rid f).raiseItem rid .commit).items.queues[l].map Item.sansFlags =
      (mapRid rid f s.items.queues[l]).map Item.sansFlags := by
  rw [(raiseItem_sameRecords (u.mapRecord rid f) rid .commit).1 l, mapRecord_get, h]

theorem commit_owes (h : s.Owes l it.rid n) (hq : it ∈ s.items.queues[l]) (ho : it.state = .opened) :
    ∃ m < n, (s.commit l it.rid).Owes l it.rid m := by
  obtain ⟨hunused, k, _, hn⟩ := h.owed it hq rfl
  obtain ⟨hentries, hwindows⟩ := hunused ho
  have hrecords := (commit_keeps s l it.rid).records h.ok
  obtain ⟨hitems, _, hschedule, _, _, hdispositions⟩ := h.ok
  have hposition : ∀ e ∈ s.schedule.positionList, e.rid ≠ it.rid := fun e he => hentries e (mem_entries_position he)
  rw [opened_commit hitems hq ho] at hrecords ⊢
  by_cases hroom : (s.decide it).firings.length + (s.schedule.positionList.length + s.schedule.timeList.length) ≤ 64
  · rw [commitDecision_fits hroom] at hrecords ⊢
    have hafter := raiseItem_changes ((s.entered it (s.decide it)).mapRecord it.rid (fun x => { x with
      state := .committed
      committed := some ((s.decide it).against s.lanes[it.lane].config) })) it.rid .commit
    have hentered := entered_changes s it (s.decide it) .items (by decide)
    refine owes_of_step hitems hq hrecords (raised_queue hentered it.rid _ l) nofun
      ((entered_windowDebt hwindows (s.decide it)).congr (hafter .windows (by decide))) ?_
    · rw [show _ = (s.entered it (s.decide it)).schedule from hafter .schedule (by decide), entered_schedule,
        (createEntries_lists s it (by rw [List.length_map]; exact decide_firings hdispositions it)).1]
      have hlist := withEntries_debt (s := s) (it := it)
        (fs := (s.decide it).firings.map s.lanes[it.lane].config.commitFiring)
        (by rw [List.length_map]; exact decide_firings hdispositions it) hposition
      have hwritten := debt_of_committed (x := { it with
        state := .committed, committed := some ((s.decide it).against s.lanes[it.lane].config) }) rfl ho rfl rfl
      omega
  · have hused := hschedule.1
    rw [commitDecision_skips hused (by omega)] at hrecords ⊢
    have hafter := raiseItem_changes (s.mapRecord it.rid (fun x => { x with
      state := .committed, committed := some (s.decide it).left, skipped := true })) it.rid .commit
    refine owes_of_step (k := 0) hitems hq hrecords (raised_queue rfl it.rid _ l) nofun
      (Or.inl fun i w hw => ?_) ?_
    · rw [show _ = s.windows from hafter .windows (by decide)] at hw
      exact hwindows i w hw
    · rw [show _ = s.schedule from hafter .schedule (by decide), positionDebt_none hposition]
      have hwritten := debt_of_committed (x := { it with
        state := .committed, committed := some (s.decide it).left, skipped := true }) rfl ho rfl rfl
      omega

/-! ### All of them (R11) -/

theorem takeCreated_owes (h : s.Owes l it.rid n) (hq : it ∈ s.items.queues[l]) {p : Nat × Event}
    (hp : p ∈ s.duePoints it) : ∃ m < n, (s.takeCreated p.2).Owes l it.rid m := by
  have hlane : it.lane = l := h.ok.1.2.1 l it hq
  obtain hp | hp | hp | hp := (mem_duePoints s it p).mp hp
  · obtain ⟨he, _, hcovering, hlength, _⟩ := (mem_dueJam s it _ _).mp hp
    rw [he, hlane]
    exact jamPoint_owes h hq hcovering hlength
  · obtain ⟨he, _, ho, _⟩ := (mem_dueDecision s it _ _).mp hp
    rw [he, hlane]
    exact commit_owes h hq ho
  · obtain ⟨x, hx, hrid, he, _, hreached⟩ := (mem_dueSchedule s it _ _).mp hp
    rw [he]
    exact schedulePoint_owes h hq hx hrid hreached
  · obtain ⟨i, w, hw, hrid, ⟨he, _, hphase, hreached⟩ | ⟨he, _, hphase, hreached⟩⟩ := (mem_dueWindow s it _ _).mp hp
    · rw [he]
      exact openWindow_owes h hq hw hrid hphase hreached
    · rw [he]
      exact closeWindow_owes h hq hw hrid hphase hreached

end

/-- The exit point takes its record out of the queue, and no other. -/
theorem exitPoint_leaves {s : State} (ok : s.items.Ok) {l : LaneId} {rid : Nat} :
    s.exitPoint l rid = s ∨ ∀ x ∈ (s.exitPoint l rid).items.queues[l], x.rid ≠ rid := by
  cases hq : s.items.queues[l] with
  | nil =>
    left
    rw [State.exitPoint, hq]
  | cons it rest =>
    obtain ⟨hexit, hothers⟩ := exitPoint_head s l it rest hq
    by_cases hrid : rid = it.rid
    · right
      subst hrid
      rw [hexit]
      intro x hx heq
      have hqueue := ((reportCount_sameRecords (s.leaveQueue it) l).1 l).trans (leaveQueue_queue ok hq)
      obtain ⟨y, hy, hyx⟩ := mem_of_sansFlags hqueue hx
      have hnodup := queue_rids_nodup ok l
      rw [hq, List.map_cons, List.nodup_cons] at hnodup
      exact hnodup.1 (List.mem_map.mpr ⟨y, hy, (sansFlags_rid hyx).trans heq⟩)
    · exact Or.inl (hothers rid hrid)

/-- R11: with fuel above what its points owe, a record that stays in its queue has none left. -/
theorem takeReached_finishes {l : LaneId} {rid : Nat} : ∀ (fuel : Nat) {s : State} {n : Nat}, n < fuel → s.Owes l rid n →
    ∀ x ∈ (State.takeReached fuel l rid s).items.queues[l], x.rid = rid →
      (State.takeReached fuel l rid s).duePoints x = []
  | 0, _, _, hn, _ => nomatch hn
  | fuel + 1, s, n, hn, h => by
    intro x hx hrid
    by_cases hgone : ∀ y ∈ s.items.queues[l], y.rid ≠ rid
    · rw [takeReached_gone hgone] at hx
      exact absurd hrid (hgone x hx)
    · push Not at hgone
      obtain ⟨it, hq, rfl⟩ := hgone
      have hok := h.ok.1
      by_cases hdue : s.duePoints it = []
      · rw [takeReached_exits hok hq fuel hdue] at hx ⊢
        have hself (hx : x ∈ s.items.queues[l]) : x = it :=
          List.inj_on_of_nodup_map (queue_rids_nodup hok l) hx hq hrid
        split at hx
        · next hexit =>
          rw [if_pos hexit]
          obtain hsame | hleft := exitPoint_leaves hok (l := l) (rid := it.rid)
          · rw [hsame] at hx ⊢
            rw [hself hx]
            exact hdue
          · exact absurd hrid (hleft x hx)
        · next hexit =>
          rw [if_neg hexit, hself hx]
          exact hdue
      · obtain ⟨p, hp, _, k, htake⟩ := takeReached_takes hok hq fuel hdue
        rw [htake] at hx ⊢
        have hchosen : State.Owes { s with choices := k } l it.rid n := ⟨h.ok, h.owed⟩
        obtain ⟨m, hm, howes⟩ := takeCreated_owes hchosen hq hp
        exact takeReached_finishes fuel (by omega) howes x hx hrid

end Sys2Proof.Machine
end

section
/-! PROOFS. The points of a new item that HW has reached already, and the edge that creates it (R9 to R11, R48, R93). -/

namespace Sys2Proof.Machine

/-- R102: the one lane outside OFF that an ENTRY input is the eye of. -/
theorem entryLane_only {s : State} {i : InputId} {l : LaneId} (hlive : s.lanes[l].state ≠ .off)
    (hentry : s.lanes[l].config.entryInput = some i)
    (honly : ∀ m : LaneId, m ≠ l → s.lanes[m].state ≠ .off → s.lanes[m].config.entryInput ≠ some i) :
    s.entryLane i = some l := by
  refine find_of_unique (mem_allLanes l) ?_ fun m _ hm => ?_
  · rw [Bool.and_eq_true, decide_eq_true_eq]
    exact ⟨decide_eq_true hlive, hentry⟩
  · rw [Bool.and_eq_true, decide_eq_true_eq] at hm
    by_contra hne
    exact honly m hne (of_decide_eq_true hm.1) hm.2

theorem deliverEntry_activation {s : State} {i : InputId} {l : LaneId} (h : s.entryLane i = some l) (c : Capture) :
    s.deliverEntry i .activation c = s.leadingEdge l c := by
  simp only [State.deliverEntry, h, State.laneActivation]

/-- R9, R10: a fresh edge at the eye of a lane in RUN with room creates a record. -/
theorem leadingEdge_creates {s : State} {l : LaneId} {c : Capture} (hrun : s.lanes[l].state = .run)
    (hfresh : c.rd.toInt ≤ (c.ft.toNat : Int)) (hlimit : s.items.queues[l].length < s.lanes[l].config.limit)
    (hpool : s.items.inUse < 192) : s.leadingEdge l c = s.createItem l c := by
  have hnotStale : ¬ (!c.fresh) = true := by
    rw [Bool.not_eq_true', Capture.fresh, decide_eq_false_iff_not, not_not]
    exact hfresh
  have hroom : ¬ s.noRoom l = true := by
    rw [noRoom_eq, Bool.or_eq_true, decide_eq_true_eq, decide_eq_true_eq]
    omega
  rw [State.leadingEdge, hrun]
  exact (if_neg hnotStale).trans (if_neg hroom)

/-- Settles O50: the due points one by one, one of the nearest taken each time, and none left by what they owe. -/
theorem pointsReachedAtCreationAreTaken : Obligations.PointsReachedAtCreationAreTaken := by
  refine ⟨fun s it o e => ?_, fun s l it n ok hq => ⟨fun p hp => ?_, fun hdue => ?_⟩,
    fun s l it ok hq ho hentries hwindows => ?_, fun s i l c hrole haccepts hentry hrun honly hfresh hlimit hpool => ?_⟩
  · intro config reachedBy
    rw [mem_duePoints, mem_dueJam, mem_dueDecision, mem_dueSchedule, mem_dueWindow]
  · exact takeReached_takes ok hq n (List.ne_nil_of_mem hp)
  · exact takeReached_exits ok hq n hdue
  · refine takeReached_finishes (n := 12) 16 (by decide) ⟨ok, fun x hx hrid => ⟨fun _ => ⟨hentries, hwindows⟩, 0,
      Or.inl hwindows, ?_⟩⟩
    have hxit : x = it := List.inj_on_of_nodup_map (queue_rids_nodup ok.1 l) hx hq hrid
    rw [positionDebt_none fun e he => hentries e (mem_entries_position he), hxit, Item.debt, if_pos ho]
    split <;> decide
  · intro u it
    have hedge : s.inputs[i].edgeTo s.inputs[i].active = .activation := if_pos rfl
    have hlane : u.entryLane i = some l := entryLane_only (s := u) (by rw [show u.lanes = s.lanes from rfl, hrun]; decide)
      hentry honly
    have hcreates : u.leadingEdge l c = u.createItem l c :=
      leadingEdge_creates (s := u) hrun hfresh hlimit hpool
    rw [exec_acceptedTransition haccepts, accept_entry _ _ hrole, hedge, deliverEntry_activation hlane]
    exact congrArg State.done hcreates

end Sys2Proof.Machine
end

section
/-! PROOFS. SET_NOTICE: the settings field by field, and the admission that follows (R163, R173). -/

namespace Sys2Proof.Machine

theorem noticeSettingsOf_some {f : NoticeFields} {n : NoticeSettings} (h : noticeSettingsOf f = some n) :
    ∃ item lane input timer reaction confirm, finOf 4 f.levelItem = some item ∧ finOf 4 f.levelLane = some lane ∧
      finOf 4 f.levelInput = some input ∧ finOf 4 f.levelTimer = some timer ∧
      finOf 4 f.levelReaction = some reaction ∧ finOf 4 f.levelConfirm = some confirm ∧
      (1 ≤ f.window.toNat ∧ f.window.toNat ≤ 8 ∧ 10 ≤ f.timeout.toNat ∧ f.timeout.toNat ≤ 2000 ∧
        1 ≤ f.retryLimit.toNat ∧ f.retryLimit.toNat ≤ 15 ∧ f.confirm.toNat ≤ 1) ∧
      n = { entryOn := f.subKinds.getLsbD 0, commitOn := f.subKinds.getLsbD 1, outcomeOn := f.subKinds.getLsbD 2
            inputsOn := f.inputs, timersOn := f.timers.setWidth 4, confirmOn := f.confirm = 1
            levelItem := item, levelLane := lane, levelInput := input, levelTimer := timer, levelReaction := reaction
            levelConfirm := confirm, window := f.window.toNat, timeout := f.timeout.toNat
            retryLimit := f.retryLimit.toNat } := by
  rw [noticeSettingsOf] at h
  split at h
  · next item lane input timer reaction confirm h0 h1 h2 h3 h4 h5 =>
    split at h
    · next hrange =>
      cases h
      exact ⟨item, lane, input, timer, reaction, confirm, h0, h1, h2, h3, h4, h5, hrange, rfl⟩
    · cases h
  · cases h

theorem noticeSettingsOf_none_iff (f : NoticeFields) : noticeSettingsOf f = none ↔
    (∃ v ∈ [f.levelItem, f.levelLane, f.levelInput, f.levelTimer, f.levelReaction, f.levelConfirm], finOf 4 v = none) ∨
      ¬ (1 ≤ f.window.toNat ∧ f.window.toNat ≤ 8 ∧ 10 ≤ f.timeout.toNat ∧ f.timeout.toNat ≤ 2000 ∧
        1 ≤ f.retryLimit.toNat ∧ f.retryLimit.toNat ≤ 15 ∧ f.confirm.toNat ≤ 1) := by
  constructor
  · intro h
    by_contra hnot
    rw [not_or, not_not] at hnot
    obtain ⟨hlevels, hrange⟩ := hnot
    have hcoded (v : Byte)
        (hv : v ∈ [f.levelItem, f.levelLane, f.levelInput, f.levelTimer, f.levelReaction, f.levelConfirm]) :
        ∃ k, finOf 4 v = some k :=
      Option.ne_none_iff_exists'.mp fun hnone => hlevels ⟨v, hv, hnone⟩
    obtain ⟨item, h0⟩ := hcoded f.levelItem (by simp)
    obtain ⟨lane, h1⟩ := hcoded f.levelLane (by simp)
    obtain ⟨input, h2⟩ := hcoded f.levelInput (by simp)
    obtain ⟨timer, h3⟩ := hcoded f.levelTimer (by simp)
    obtain ⟨reaction, h4⟩ := hcoded f.levelReaction (by simp)
    obtain ⟨confirm, h5⟩ := hcoded f.levelConfirm (by simp)
    rw [noticeSettingsOf, h0, h1, h2, h3, h4, h5] at h
    exact absurd ((if_pos hrange).symm.trans h) nofun
  · intro h
    cases hsome : noticeSettingsOf f with
    | none => rfl
    | some n =>
      obtain ⟨item, lane, input, timer, reaction, confirm, h0, h1, h2, h3, h4, h5, hrange, _⟩ :=
        noticeSettingsOf_some hsome
      obtain ⟨v, hv, hnone⟩ | hbad := h
      · simp only [List.mem_cons, List.not_mem_nil, or_false] at hv
        obtain rfl | rfl | rfl | rfl | rfl | rfl := hv <;> simp_all
      · exact absurd hrange hbad

theorem reqSetNotice_bad {f : NoticeFields} (h : noticeSettingsOf f = none) (s : State) :
    s.reqSetNotice f = s.refuse .badValue := by
  rw [State.reqSetNotice, h]

theorem reqSetNotice_writes {f : NoticeFields} {n : NoticeSettings} (h : noticeSettingsOf f = some n) (s : State) :
    s.reqSetNotice f = ([0], State.admitAll { s with notices := { s.notices with settings := n } }) := by
  rw [State.reqSetNotice, h]
  rfl

/-- Settles O51: the fields one by one, the settings written, and admission until it ends. -/
theorem setNoticeWritesTheSettings : Obligations.SetNoticeWritesTheSettings := by
  refine ⟨fun f => ?_, fun f n h => ?_, fun s seq f hs => ⟨fun hbad => ?_, fun n h => ?_⟩⟩
  · have hzero (b : Byte) : b = 0 ↔ b.toNat < 1 := by
      rw [← BitVec.toNat_inj, Nat.lt_one_iff]
      rfl
    rw [noticeSettingsOf_none_iff, hzero, hzero]
    refine or_congr ?_ ?_
    · simp only [finOf_none_iff, Nat.succ_le_iff]
    · omega
  · obtain ⟨item, lane, input, timer, reaction, confirm, h0, h1, h2, h3, h4, h5, _, rfl⟩ := noticeSettingsOf_some h
    have hcode {b : Byte} {k : Fin 4} (hk : finOf 4 b = some k) : b = natByte k := (finOf_some_iff (by decide) _ _).mp hk
    refine ⟨rfl, rfl, rfl, rfl, fun k => ?_, decide_eq_true_iff, hcode h0, hcode h1, hcode h2, hcode h3, hcode h4,
      hcode h5, rfl, rfl, rfl⟩
    show (f.timers.setWidth 4).getLsbD k = _
    rw [BitVec.getLsbD_setWidth, decide_eq_true k.isLt, Bool.true_and]
  · exact request_refused s 0x05 seq _ .badValue hs ((dispatch_setNotice _ f).trans (reqSetNotice_bad hbad _)) rfl
  · have ⟨_, _, _, hagenda⟩ := hs
    let u : State := { s.received with notices := { s.received.notices with settings := n } }
    have hreq : s.received.dispatch 0x05 (NoticeFields.bytes f) = ([0], u.admitAll) :=
      (dispatch_setNotice _ f).trans (reqSetNotice_writes h _)
    have hchanges := admit_changes u
    obtain ⟨ht, hreply⟩ := request_leaves hs hreq ((hchanges .agenda (by decide)).trans hagenda) rfl
    obtain ⟨hunsent, hrefs, _, _, _, _, _, hsent⟩ := endStall_keeps s.notices
    refine ⟨⟨_, ht, ?_, hreply, admit_sameRecords u, admit_sameLanes u, fun hdepth => admitAll_full (s := u) ?_, ?_⟩,
      fun hempty => ?_⟩
    · exact admitAll_settings u
    · show s.notices.endStall.sent.length + s.notices.endStall.unsent.length ≤ 32
      rw [hsent, hunsent]
      exact hdepth
    · exact ((received_changes s).mono.trans ((notices_changes s.received _).mono.trans hchanges.mono)).trans
        (link_changes _ _).mono
    · have hrests : u.admitAll = u := admitAll_empty (hrefs.trans hempty)
      rw [hrests] at ht
      exact ht

end Sys2Proof.Machine
end

section
/-! SUPPORT. Acknowledgement: what the entries removed do to the Notice Queue and the records (R22, R169). -/

namespace Sys2Proof.Machine

/-! ### Links and references of freed records (R8, R162) -/

/-- R8, R22: an entry as the freed records leave it. -/
def NoticeEntry.kept (freed : List NoticeEntry) (x : NoticeEntry) : NoticeEntry :=
  { x with link := if freed.any (fun y => decide (y.link = x.link)) = true then .none else x.link }

/-- R162: whether a reference outlives the freed records. -/
def NoticeRef.kept (freed : List NoticeEntry) : NoticeRef → Bool
  | .item rid _ => freed.all (fun y => decide (y.link ≠ .item rid))
  | .lane _ => true

/-- The Notice Queue as the freed records leave it. -/
def Notices.freeing (n : Notices) (freed : List NoticeEntry) : Notices :=
  { n with
    refs := n.refs.filter (NoticeRef.kept freed)
    sent := n.sent.map (NoticeEntry.kept freed)
    unsent := n.unsent.map (NoticeEntry.kept freed) }

theorem kept_nil (x : NoticeEntry) : x.kept [] = x := rfl

theorem freeing_nil (n : Notices) : n.freeing [] = n := by
  have hrefs : n.refs.filter (NoticeRef.kept []) = n.refs := List.filter_eq_self.mpr fun r _ => by cases r <;> rfl
  rw [Notices.freeing, hrefs]
  show { n with refs := n.refs, sent := n.sent.map id, unsent := n.unsent.map id } = n
  rw [List.map_id, List.map_id]

theorem kept_cons {e : NoticeEntry} {rid : Nat} (he : e.link = .item rid) (fs : List NoticeEntry) (x : NoticeEntry) :
    (x.unlink rid).kept fs = x.kept (e :: fs) := by
  rw [NoticeEntry.unlink, NoticeEntry.kept, NoticeEntry.kept, List.any_cons, he]
  by_cases hx : x.link = .item rid
  · rw [if_pos hx, decide_eq_true hx.symm, Bool.true_or, if_pos rfl]
    show { x with link := if _ then NoticeLink.none else NoticeLink.none } = _
    rw [ite_self]
  · rw [if_neg hx, decide_eq_false (Ne.symm hx), Bool.false_or]

theorem refKept_cons {e : NoticeEntry} {rid : Nat} (he : e.link = .item rid) (fs : List NoticeEntry) (r : NoticeRef) :
    (NoticeRef.kept fs r && !r.isOf rid) = NoticeRef.kept (e :: fs) r := by
  cases r with
  | item rid' sub =>
    have hsame : (!decide (rid' = rid)) = decide (e.link ≠ .item rid') := by
      rw [he, ← decide_not]
      simp only [ne_eq, NoticeLink.item.injEq, eq_comm]
    show (fs.all _ && !decide (rid' = rid)) = (decide (e.link ≠ .item rid') && fs.all _)
    rw [hsame, Bool.and_comm]
  | lane l => rfl

/-- R22: one more record is freed. -/
theorem freeing_cons {e : NoticeEntry} {rid : Nat} (he : e.link = .item rid) (fs : List NoticeEntry) (n : Notices) :
    (n.forget rid).freeing fs = n.freeing (e :: fs) := by
  have hrefs : (n.refs.filter (fun r : NoticeRef => !r.isOf rid)).filter (NoticeRef.kept fs) =
      n.refs.filter (NoticeRef.kept (e :: fs)) := by
    rw [List.filter_filter]
    exact List.filter_congr fun r _ => refKept_cons he fs r
  have hentries (xs : List NoticeEntry) : (xs.map (fun x : NoticeEntry => x.unlink rid)).map (NoticeEntry.kept fs) =
      xs.map (NoticeEntry.kept (e :: fs)) := by
    rw [List.map_map]
    exact List.map_congr_left fun x _ => kept_cons he fs x
  show { n with
    refs := (n.refs.filter (fun r : NoticeRef => !r.isOf rid)).filter (NoticeRef.kept fs)
    sent := (n.sent.map (fun x : NoticeEntry => x.unlink rid)).map (NoticeEntry.kept fs)
    unsent := (n.unsent.map (fun x : NoticeEntry => x.unlink rid)).map (NoticeEntry.kept fs) } = _
  rw [hrefs, hentries, hentries]
  rfl

/-! ### One entry (R169) -/

theorem frees_iff (e : NoticeEntry) : e.frees = true ↔ e.kind = .outcome ∧ ∃ rid, e.link = .item rid := by
  rw [NoticeEntry.frees]
  cases e.link <;> simp

theorem acknowledge_frees_record {e : NoticeEntry} {rid : Nat} (hl : e.link = .item rid) (hk : e.kind = .outcome)
    (s : State) : s.acknowledge e = s.freeRecord rid := by
  rw [State.acknowledge, hl]
  exact if_pos hk

/-- R169: an entry that frees nothing sets a flag at the most. -/
theorem acknowledge_flags {e : NoticeEntry} (h : e.frees = false) (s : State) :
    s.acknowledge e = s.flagLinked e .acknowledged := by
  rw [State.acknowledge]
  cases hl : e.link with
  | item rid =>
    refine if_neg fun hk => ?_
    rw [(frees_iff e).mpr ⟨hk, rid, hl⟩] at h
    cases h
  | lane l => rw [State.flagLinked, hl]
  | none => rw [State.flagLinked, hl]

/-! ### All of them (R22, R169) -/

/-- The DONE records that outlive the freed ones. -/
def doneKept (freed : List NoticeEntry) (xs : List Item) : List Item :=
  xs.filter (fun it => freed.all (fun x => x.link ≠ .item it.rid))

/-- What the acknowledgement of the entries `es` leaves. -/
structure State.Acknowledges (s : State) (es : List NoticeEntry) (t : State) : Prop where
  changes : OnlyChanges [.items, .notices] s t
  notices : t.notices = s.notices.freeing (es.filter (·.frees))
  queues : ∀ l : LaneId, t.items.queues[l].map Item.sansFlags = s.items.queues[l].map Item.sansFlags
  passed : t.items.passed.map Item.sansFlags = s.items.passed.map Item.sansFlags
  done : t.items.done.map Item.sansFlags = (doneKept (es.filter (·.frees)) s.items.done).map Item.sansFlags

theorem doneKept_sansFlags (freed : List NoticeEntry) (xs : List Item) : (doneKept freed xs).map Item.sansFlags =
    (xs.map Item.sansFlags).filter (fun it => freed.all (fun x => x.link ≠ .item it.rid)) := by
  rw [doneKept, List.filter_map]
  rfl

theorem doneKept_congr {freed : List NoticeEntry} {xs ys : List Item}
    (h : xs.map Item.sansFlags = ys.map Item.sansFlags) :
    (doneKept freed xs).map Item.sansFlags = (doneKept freed ys).map Item.sansFlags := by
  rw [doneKept_sansFlags, doneKept_sansFlags, h]

theorem doneKept_cons {e : NoticeEntry} {rid : Nat} (he : e.link = .item rid) (fs : List NoticeEntry) (xs : List Item) :
    doneKept fs (dropRid rid xs) = doneKept (e :: fs) xs := by
  rw [doneKept, doneKept, dropRid, List.filter_filter]
  refine List.filter_congr fun it _ => ?_
  have hsame : decide (it.rid ≠ rid) = decide (e.link ≠ .item it.rid) := by
    rw [he]
    simp only [ne_eq, NoticeLink.item.injEq, eq_comm]
  rw [List.all_cons, hsame, Bool.and_comm]

theorem acknowledgeAll_acknowledges : ∀ (es : List NoticeEntry) (s : State),
    s.Acknowledges es (es.foldl State.acknowledge s)
  | [], s => by
    refine ⟨.refl _ s, (freeing_nil _).symm, fun _ => rfl, rfl, ?_⟩
    have hall : doneKept [] s.items.done = s.items.done := List.filter_eq_self.mpr fun _ _ => rfl
    show _ = (doneKept [] s.items.done).map _
    rw [hall]
    rfl
  | e :: es, s => by
    have hrest := acknowledgeAll_acknowledges es (s.acknowledge e)
    rw [List.foldl_cons]
    by_cases hfrees : e.frees = true
    · obtain ⟨hk, rid, hl⟩ := (frees_iff e).mp hfrees
      have hfreed : (e :: es).filter (·.frees) = e :: es.filter (·.frees) := List.filter_cons_of_pos hfrees
      rw [acknowledge_frees_record hl hk] at hrest ⊢
      refine ⟨(freeRecord_changes s rid).mono.trans hrest.changes, ?_, hrest.queues, hrest.passed, ?_⟩
      · rw [hrest.notices, hfreed]
        exact freeing_cons hl _ _
      · rw [hrest.done, hfreed, ← doneKept_cons hl]
        rfl
    · rw [Bool.not_eq_true] at hfrees
      have hfreed : (e :: es).filter (·.frees) = es.filter (·.frees) :=
        List.filter_cons_of_neg (by rw [hfrees]; exact Bool.false_ne_true)
      rw [acknowledge_flags hfrees] at hrest ⊢
      obtain ⟨hqueues, hdone, hpassed⟩ := flagLinked_sameRecords s e .acknowledged
      refine ⟨(flagLinked_changes s e _).mono.trans hrest.changes, ?_, fun l => (hrest.queues l).trans (hqueues l),
        hrest.passed.trans hpassed, ?_⟩
      · rw [hrest.notices, hfreed, flagLinked_notices]
      · rw [hrest.done, hfreed]
        exact doneKept_congr hdone

end Sys2Proof.Machine
end

section
/-! SUPPORT. ACK_NOTICE: the flags of linked records, admission apart from the link (R7, R163, R169). -/

namespace Sys2Proof.Machine

/-! ### Notice flags (R7, R162) -/

def Item.flagOf (it : Item) : SubKind → NoticeFlag
  | .entry => it.entryFlag
  | .commit => it.commitFlag
  | .outcome => it.outcomeFlag

theorem withFlag_flagOf_self (it : Item) (sub : SubKind) (f : NoticeFlag) : (it.withFlag sub f).flagOf sub = f := by
  cases sub <;> rfl

theorem withFlag_flagOf_other (it : Item) {sub sub' : SubKind} (h : sub' ≠ sub) (f : NoticeFlag) :
    (it.withFlag sub f).flagOf sub' = it.flagOf sub' := by
  cases sub with
  | entry =>
    cases sub' with
    | entry => exact absurd rfl h
    | commit => rfl
    | outcome => rfl
  | commit =>
    cases sub' with
    | entry => rfl
    | commit => exact absurd rfl h
    | outcome => rfl
  | outcome =>
    cases sub' with
    | entry => rfl
    | commit => rfl
    | outcome => exact absurd rfl h

/-- Every record `rid` has this flag. -/
def State.FlagIs (s : State) (rid : Nat) (sub : SubKind) (f : NoticeFlag) : Prop :=
  ∀ it ∈ s.items.all, it.rid = rid → it.flagOf sub = f

theorem mem_mapRecord {s : State} {rid : Nat} {f : Item → Item} {x : Item} (h : x ∈ (s.mapRecord rid f).items.all) :
    ∃ y ∈ s.items.all, x = if y.rid = rid then f y else y := by
  have hlist {xs : List Item} (hx : x ∈ mapRid rid f xs) : ∃ y ∈ xs, x = if y.rid = rid then f y else y := by
    obtain ⟨y, hy, hyx⟩ := List.mem_map.mp hx
    exact ⟨y, hy, hyx.symm⟩
  obtain ⟨l, hl⟩ | hd | hp := (mem_all_iff _ x).mp h
  · rw [mapRecord_get] at hl
    obtain ⟨y, hy, hyx⟩ := hlist hl
    exact ⟨y, (mem_all_iff _ y).mpr (Or.inl ⟨l, hy⟩), hyx⟩
  · obtain ⟨y, hy, hyx⟩ := hlist hd
    exact ⟨y, (mem_all_iff _ y).mpr (Or.inr (Or.inl hy)), hyx⟩
  · obtain ⟨y, hy, hyx⟩ := hlist hp
    exact ⟨y, (mem_all_iff _ y).mpr (Or.inr (Or.inr hy)), hyx⟩

theorem withFlag_rid (it : Item) (sub : SubKind) (f : NoticeFlag) : (it.withFlag sub f).rid = it.rid := by
  cases sub <;> rfl

/-- The record behind one of a state with a flag written. -/
theorem mem_setFlag {s : State} {rid : Nat} {sub : SubKind} {f : NoticeFlag} {x : Item}
    (h : x ∈ (s.setFlag rid sub f).items.all) :
    ∃ y ∈ s.items.all, y.rid = x.rid ∧ x = if y.rid = rid then y.withFlag sub f else y := by
  obtain ⟨y, hy, hyx⟩ := mem_mapRecord h
  refine ⟨y, hy, ?_, hyx⟩
  rw [hyx]
  split
  · rw [withFlag_rid]
  · rfl

theorem setFlag_flagIs (s : State) (rid : Nat) (sub : SubKind) (f : NoticeFlag) : (s.setFlag rid sub f).FlagIs rid sub f := by
  intro x hx hrid
  obtain ⟨y, _, hyrid, hyx⟩ := mem_setFlag hx
  rw [hyx, if_pos (hyrid.trans hrid), withFlag_flagOf_self]

theorem State.FlagIs.setFlag {s : State} {rid rid' : Nat} {sub sub' : SubKind} {f f' : NoticeFlag}
    (h : s.FlagIs rid sub f) (hother : f' = f ∨ ¬ (rid' = rid ∧ sub' = sub)) :
    (s.setFlag rid' sub' f').FlagIs rid sub f := by
  intro x hx hrid
  obtain ⟨y, hy, hyrid, hyx⟩ := mem_setFlag hx
  have hflag := h y hy (hyrid.trans hrid)
  rw [hyx]
  split
  · next hown =>
    by_cases hsub : sub = sub'
    · subst hsub
      obtain rfl | hne := hother
      · exact withFlag_flagOf_self y sub _
      · exact absurd ⟨hown.symm.trans (hyrid.trans hrid), rfl⟩ hne
    · rw [withFlag_flagOf_other y hsub]
      exact hflag
  · exact hflag

theorem State.FlagIs.mono {s t : State} {rid : Nat} {sub : SubKind} {f : NoticeFlag} (h : s.FlagIs rid sub f)
    (hall : ∀ it ∈ t.items.all, it ∈ s.items.all) : t.FlagIs rid sub f :=
  fun it hit => h it (hall it hit)

theorem mem_freeRecord {s : State} {rid : Nat} {it : Item} (h : it ∈ (s.freeRecord rid).items.all) : it ∈ s.items.all := by
  obtain hq | hd | hp := (mem_all_iff _ it).mp h
  · exact (mem_all_iff _ it).mpr (Or.inl hq)
  · exact (mem_all_iff _ it).mpr (Or.inr (Or.inl (List.mem_of_mem_filter hd)))
  · exact (mem_all_iff _ it).mpr (Or.inr (Or.inr hp))

theorem State.FlagIs.acknowledge {s : State} {rid : Nat} {sub : SubKind} (h : s.FlagIs rid sub .acknowledged)
    (e : NoticeEntry) : (s.acknowledge e).FlagIs rid sub .acknowledged := by
  by_cases hfrees : e.frees = true
  · obtain ⟨hk, rid', hl⟩ := (frees_iff e).mp hfrees
    rw [acknowledge_frees_record hl hk]
    exact h.mono fun it => mem_freeRecord
  · rw [Bool.not_eq_true] at hfrees
    rw [acknowledge_flags hfrees, State.flagLinked]
    split
    · exact h.setFlag (Or.inl rfl)
    · exact h
    · exact h
    · exact h

/-- R169: an ENTRY or COMMIT entry acknowledges its record's flag. -/
theorem acknowledge_flagIs (s : State) {e : NoticeEntry} {rid : Nat} {sub : SubKind} (hl : e.link = .item rid)
    (hsub : e.kind.sub = some sub) (hk : e.kind ≠ .outcome) : (s.acknowledge e).FlagIs rid sub .acknowledged := by
  have hfrees : e.frees = false := by
    rw [← Bool.not_eq_true, frees_iff]
    exact fun h => hk h.1
  rw [acknowledge_flags hfrees, State.flagLinked, hl, hsub]
  exact setFlag_flagIs s rid sub _

theorem acknowledgeAll_flagIs {x : NoticeEntry} {rid : Nat} {sub : SubKind} (hl : x.link = .item rid)
    (hsub : x.kind.sub = some sub) (hk : x.kind ≠ .outcome) : ∀ (es : List NoticeEntry) (s : State),
    (x ∈ es ∨ s.FlagIs rid sub .acknowledged) → (es.foldl State.acknowledge s).FlagIs rid sub .acknowledged
  | [], _, h => h.resolve_left (List.not_mem_nil)
  | e :: es, s, h => by
    refine acknowledgeAll_flagIs hl hsub hk es _ ?_
    obtain hx | hflag := h
    · obtain rfl | hx := List.mem_cons.mp hx
      · exact Or.inr (acknowledge_flagIs s hl hsub hk)
      · exact Or.inl hx
    · exact Or.inr (hflag.acknowledge e)

/-! ### Admission and flags (R163) -/

theorem State.FlagIs.admitRef {s t : State} {r : NoticeRef} {rid : Nat} {sub : SubKind} {f : NoticeFlag}
    (h : s.FlagIs rid sub f) (hr : r ≠ .item rid sub) (ht : s.admitRef r = some t) : t.FlagIs rid sub f := by
  cases r with
  | item rid' sub' =>
    have hother : ¬ (rid' = rid ∧ sub' = sub) := fun ⟨hrid, hsub⟩ => hr (by rw [hrid, hsub])
    rw [State.admitRef] at ht
    split at ht
    · cases ht
      exact State.FlagIs.setFlag (s := s.dropRef (.item rid' sub')) h (Or.inr hother)
    · split at ht
      · split at ht
        · cases ht
          exact h
        · cases ht
          exact State.FlagIs.setFlag (s := State.enqueue (s.dropRef (.item rid' sub')) _) h (Or.inr hother)
      · cases ht
  | lane l =>
    rw [State.admitRef] at ht
    split at ht
    · cases ht
      exact h
    · cases ht

theorem State.FlagIs.admitAll {s : State} {rid : Nat} {sub : SubKind} {f : NoticeFlag} (h : s.FlagIs rid sub f)
    (hr : .item rid sub ∉ s.notices.refs) : s.admitAll.FlagIs rid sub f := by
  revert h hr
  refine admitAll_induction (P := fun s t => s.FlagIs rid sub f → .item rid sub ∉ s.notices.refs → t.FlagIs rid sub f)
    (fun _ _ h _ => h) (fun s t u r hin ht hu h hr => hu (h.admitRef (fun heq => hr (heq ▸ hin)) ht) fun hmem => ?_) s
  rw [(admitRef_admits ht).rest] at hmem
  exact hr (List.mem_of_mem_erase hmem)

/-! ### Admission apart from the link -/

theorem admitRef_relink (s : State) (r : NoticeRef) (k : Link) :
    State.admitRef { s with link := k } r = (s.admitRef r).map (fun t => { t with link := k }) := by
  cases r with
  | item rid sub =>
    rw [State.admitRef, State.admitRef]
    split
    · rfl
    · split
      · cases hfind : s.items.find rid with
        | none => rfl
        | some it => rfl
      · rfl
  | lane l =>
    rw [State.admitRef, State.admitRef]
    split
    · rfl
    · rfl

theorem admitUpTo_relink (k : Link) : ∀ (n : Nat) (s : State),
    State.admitUpTo n { s with link := k } = { State.admitUpTo n s with link := k }
  | 0, _ => rfl
  | n + 1, s => by
    cases hr : s.notices.nextRef with
    | none =>
      have hempty := (nextRef_none_iff s.notices).mp hr
      rw [admitUpTo_empty (s := s) _ hempty]
      exact admitUpTo_empty (s := { s with link := k }) _ hempty
    | some r =>
      have hrelink := admitRef_relink s r k
      cases ht : s.admitRef r with
      | none =>
        rw [ht] at hrelink
        rw [admitUpTo_stuck _ hr ht]
        exact admitUpTo_stuck (s := { s with link := k }) _ hr hrelink
      | some t =>
        rw [ht] at hrelink
        rw [admitUpTo_next _ hr ht, ← admitUpTo_relink k n t]
        exact admitUpTo_next (s := { s with link := k }) _ hr hrelink

theorem admitAll_relink (s : State) (k : Link) :
    State.admitAll { s with link := k } = { s.admitAll with link := k } :=
  admitUpTo_relink k _ s

end Sys2Proof.Machine
end

section
/-! PROOFS. ACK_NOTICE (R7, R22, R169, R171). -/

namespace Sys2Proof.Machine

/-! ### The Notice Queue (R168, R169, R171) -/

/-- R171: an entry as the end of STALLED marks it. -/
def NoticeEntry.marked (b : Bool) (x : NoticeEntry) : NoticeEntry :=
  { x with resend := x.resend || b }

theorem marked_false (x : NoticeEntry) : x.marked false = x := by
  rw [NoticeEntry.marked, Bool.or_false]

theorem map_marked_false (xs : List NoticeEntry) : xs.map (NoticeEntry.marked false) = xs := by
  rw [funext marked_false]
  exact List.map_id' xs

theorem endStall_sent (n : Notices) : n.endStall.sent = n.sent.map (NoticeEntry.marked n.stalled) := by
  rw [Notices.endStall]
  cases hstalled : n.stalled with
  | true =>
    show markAll n.sent = _
    refine List.map_congr_left fun x _ => ?_
    rw [NoticeEntry.marked, Bool.or_true]
  | false =>
    show n.sent = _
    exact (map_marked_false n.sent).symm

/-- R169: the end of an acknowledgement where the link is not STALLED. -/
theorem resume_eq {n : Notices} (h : n.stalled = false) : n.resume = { n with
    retry := 0, stalled := false
    ackTimer := if n.sent = [] then none else some n.settings.timeout } := by
  have hidle : Notices.endStall { n with retry := 0 } = { n with retry := 0 } := endStall_idle _ h
  rw [Notices.resume, hidle, Notices.restartTimer]
  cases n.sent <;> simp [h]

theorem covered_none {n : Notices} {number : Byte} (h : ∀ e ∈ n.sent, e.number ≠ some number) : n.covered number = 0 := by
  have hnone : n.sent.findIdx? (fun e => e.number = some number) = none :=
    List.findIdx?_eq_none_iff.mpr fun e he => decide_eq_false (h e he)
  rw [Notices.covered, hnone]

theorem covered_some {n : Notices} {number : Byte} {k : Nat} {e : NoticeEntry} (he : n.sent[k]? = some e)
    (hnumber : e.number = some number) (hfirst : ∀ x ∈ n.sent.take k, x.number ≠ some number) :
    n.covered number = k + 1 := by
  obtain ⟨hk, rfl⟩ := List.getElem?_eq_some_iff.mp he
  have hfind : n.sent.findIdx? (fun e => e.number = some number) = some k := by
    refine List.findIdx?_eq_some_iff_getElem.mpr ⟨hk, decide_eq_true hnumber, fun j hj hfound => ?_⟩
    have hmem : n.sent[j] ∈ n.sent.take k := List.mem_take_iff_getElem.mpr ⟨j, by omega, rfl⟩
    exact hfirst _ hmem (of_decide_eq_true hfound)
  rw [Notices.covered, hfind]

/-! ### Marked entries -/

theorem acknowledge_marked (s : State) (b : Bool) (e : NoticeEntry) : s.acknowledge (e.marked b) = s.acknowledge e := rfl

theorem acknowledgeAll_marked (b : Bool) (es : List NoticeEntry) (s : State) :
    (es.map (NoticeEntry.marked b)).foldl State.acknowledge s = es.foldl State.acknowledge s := by
  rw [List.foldl_map]
  rfl

theorem frees_marked (b : Bool) (es : List NoticeEntry) :
    (es.map (NoticeEntry.marked b)).filter (·.frees) = (es.filter (·.frees)).map (NoticeEntry.marked b) := by
  rw [List.filter_map]
  rfl

/-! ### The acknowledgement (R169) -/

section
variable {s : State} {seq number : Byte}

theorem exec_ackNotice_none (hs : s.takesNow 0x04 seq) (h : ∀ e ∈ s.notices.sent, e.number ≠ some number) :
    exec (.ackNotice seq number) s = .next (s.answers 0x04 seq [0, 0, 0, natByte s.notices.sent.length]) := by
  have hsent : s.received.notices.sent = s.notices.sent.map (NoticeEntry.marked s.notices.stalled) := endStall_sent _
  have hnone : s.received.notices.covered number = 0 := covered_none fun e he => by
    rw [hsent] at he
    obtain ⟨x, hx, rfl⟩ := List.mem_map.mp he
    exact h x hx
  refine request_reads s 0x04 seq _ _ hs ((dispatch_ackNotice _ number).trans ?_) rfl
  rw [State.reqAckNotice, State.ackNotice, hnone, hsent, List.length_map]
  rfl

/-- R171: what the end of STALLED leaves of the Notice Queue. -/
theorem endStall_rest (n : Notices) : n.endStall = { n with
    sent := n.sent.map (NoticeEntry.marked n.stalled), retry := n.endStall.retry, stalled := false
    ackTimer := n.endStall.ackTimer } := by
  rw [← endStall_sent, Notices.endStall]
  cases hstalled : n.stalled with
  | true => rfl
  | false =>
    show n = { n with stalled := false }
    rw [← hstalled]

/-- The state in which the entries up to the one at `k` have been acknowledged, before admission. -/
def State.acknowledged (s : State) (k : Nat) : State :=
  let u := (s.notices.sent.take (k + 1)).foldl State.acknowledge
    { s with notices := { s.notices with sent := s.notices.sent.drop (k + 1) } }
  { u with notices := u.notices.resume }

theorem ackNotice_covered {k : Nat} (h : s.notices.covered number = k + 1) :
    s.ackNotice number = (s.acknowledged k).admitAll := by
  rw [State.ackNotice, h]
  exact if_neg (Nat.succ_ne_zero k)

/-- The state of an ACK_NOTICE taken at once with its entries removed and not yet acknowledged. -/
def State.unsentTo (s : State) (k : Nat) : State :=
  { s.received with notices := { s.received.notices with
    sent := (s.notices.sent.drop (k + 1)).map (NoticeEntry.marked s.notices.stalled) } }

/-- R169: the acknowledgement of a request taken at once works on the entries as they stood. -/
theorem acknowledged_received (s : State) (k : Nat) : s.received.acknowledged k =
    (let u := (s.notices.sent.take (k + 1)).foldl State.acknowledge (s.unsentTo k)
     { u with notices := u.notices.resume }) := by
  have hsent : s.received.notices.sent = s.notices.sent.map (NoticeEntry.marked s.notices.stalled) := endStall_sent _
  rw [State.acknowledged, hsent, ← List.map_take, ← List.map_drop, acknowledgeAll_marked]
  rfl

/-- R22, R169: the Notice Queue before admission. -/
theorem acknowledged_notices (s : State) (k : Nat) :
    let freed := (s.notices.sent.take (k + 1)).filter (·.frees)
    let left := s.notices.sent.drop (k + 1)
    (s.received.acknowledged k).notices = { s.notices with
      sent := left.map (fun x => { x.kept freed with resend := x.resend || s.notices.stalled })
      unsent := s.notices.unsent.map (NoticeEntry.kept freed), retry := 0, stalled := false
      ackTimer := if left = [] then none else some s.notices.settings.timeout
      refs := s.notices.refs.filter (NoticeRef.kept freed) } := by
  intro freed left
  have hack := acknowledgeAll_acknowledges (s.notices.sent.take (k + 1)) (s.unsentTo k)
  rw [acknowledged_received]
  show Notices.resume ((s.notices.sent.take (k + 1)).foldl State.acknowledge (s.unsentTo k)).notices = _
  have hnotices : (s.unsentTo k).notices = { s.notices with
      sent := left.map (NoticeEntry.marked s.notices.stalled), retry := s.notices.endStall.retry, stalled := false
      ackTimer := s.notices.endStall.ackTimer } := by
    have hrest := endStall_rest s.notices
    exact congrArg (fun n : Notices => { n with sent := left.map (NoticeEntry.marked s.notices.stalled) }) hrest
  have hempty : (left.map (NoticeEntry.marked s.notices.stalled)).map (NoticeEntry.kept freed) = [] ↔ left = [] := by
    rw [List.map_eq_nil_iff, List.map_eq_nil_iff]
  rw [hack.notices, hnotices, resume_eq rfl]
  show { s.notices with
    sent := (left.map (NoticeEntry.marked s.notices.stalled)).map (NoticeEntry.kept freed)
    unsent := s.notices.unsent.map (NoticeEntry.kept freed), retry := 0, stalled := false
    ackTimer := if (left.map (NoticeEntry.marked s.notices.stalled)).map (NoticeEntry.kept freed) = [] then none
      else some s.notices.settings.timeout
    refs := s.notices.refs.filter (NoticeRef.kept freed) } = _
  rw [if_congr hempty rfl rfl, List.map_map]
  rfl

/-- The records and the other blocks before admission. -/
theorem acknowledged_acknowledges (s : State) (k : Nat) :
    OnlyChanges [.items, .notices, .link] s (s.received.acknowledged k) ∧
    (∀ l : LaneId, (s.received.acknowledged k).items.queues[l].map Item.sansFlags =
      s.items.queues[l].map Item.sansFlags) ∧
    (s.received.acknowledged k).items.passed.map Item.sansFlags = s.items.passed.map Item.sansFlags ∧
    (s.received.acknowledged k).items.done.map Item.sansFlags =
      (doneKept ((s.notices.sent.take (k + 1)).filter (·.frees)) s.items.done).map Item.sansFlags := by
  have hack := acknowledgeAll_acknowledges (s.notices.sent.take (k + 1)) (s.unsentTo k)
  rw [acknowledged_received]
  refine ⟨?_, hack.queues, hack.passed, hack.done⟩
  have hbefore : OnlyChanges [.items, .notices, .link] s (s.unsentTo k) :=
    (received_changes s).mono.trans (notices_changes s.received _).mono
  exact (hbefore.trans hack.changes.mono).trans (notices_changes _ _).mono

/-- R7, R169: the flags that the entries removed acknowledge. -/
theorem acknowledged_flagIs {k : Nat} {x : NoticeEntry} (hx : x ∈ s.notices.sent.take (k + 1)) {rid : Nat}
    {sub : SubKind} (hl : x.link = .item rid) (hsub : x.kind.sub = some sub) (hk : x.kind ≠ .outcome) :
    (s.received.acknowledged k).FlagIs rid sub .acknowledged := by
  rw [acknowledged_received]
  exact acknowledgeAll_flagIs hl hsub hk _ (s.unsentTo k) (Or.inl hx)

end

end Sys2Proof.Machine
end

section
/-! PROOFS. ACK_NOTICE of an outstanding number (R7, R22, R163, R169, R171). -/

namespace Sys2Proof.Machine

/-- The records of a state whose lists are those of `s` without the freed ones. -/
theorem freed_gone {s t : State} {freed : List NoticeEntry} (ok : s.items.Ok)
    (hqueues : ∀ l : LaneId, t.items.queues[l].map Item.sansFlags = s.items.queues[l].map Item.sansFlags)
    (hpassed : t.items.passed.map Item.sansFlags = s.items.passed.map Item.sansFlags)
    (hdone : t.items.done.map Item.sansFlags = (doneKept freed s.items.done).map Item.sansFlags)
    {x : NoticeEntry} (hx : x ∈ freed) {rid : Nat} (hl : x.link = .item rid) (hin : ∃ it ∈ s.items.done, it.rid = rid) :
    t.items.find rid = none := by
  obtain ⟨it, hit, rfl⟩ := hin
  refine List.find?_eq_none.mpr fun y hy hrid => ?_
  have hrid : y.rid = it.rid := of_decide_eq_true hrid
  obtain ⟨l, hq⟩ | hd | hp := (mem_all_iff _ y).mp hy
  · obtain ⟨z, hz, hzy⟩ := mem_of_sansFlags (hqueues l) hq
    obtain ⟨_, hnot, _⟩ := rid_only_in_queue s.items l z ok hz
    exact hnot it hit (hrid.symm.trans (sansFlags_rid hzy).symm)
  · obtain ⟨z, hz, hzy⟩ := mem_of_sansFlags hdone hd
    have hkept := List.all_eq_true.mp (List.mem_filter.mp hz).2 x hx
    exact of_decide_eq_true hkept (hl.trans (by rw [sansFlags_rid hzy, hrid]))
  · obtain ⟨z, hz, hzy⟩ := mem_of_sansFlags hpassed hp
    have hnodup := retired_rids_nodup ok
    rw [List.map_append, List.nodup_append] at hnodup
    obtain ⟨_, _, hapart⟩ := hnodup
    exact hapart it.rid (List.mem_map_of_mem hit) z.rid (List.mem_map_of_mem hz) (hrid.symm.trans (sansFlags_rid hzy).symm)

/-- A change of the link taken back. -/
theorem onlyChanges_relink {s v : State} (h : OnlyChanges [.items, .notices, .link] s v) :
    OnlyChanges [.items, .notices] s { v with link := s.link } := fun b hb => by
  by_cases hlink : b = .link
  · subst hlink
    rfl
  · have hkept := h b (by simp only [List.mem_cons, List.not_mem_nil, or_false] at hb ⊢; tauto)
    cases b with
    | link => exact absurd rfl hlink
    | _ => exact hkept

/-- Entries that free a record, in the words of the statement. -/
theorem frees_eq (x : NoticeEntry) {linked : Bool} (hitem : ∀ rid, x.link = .item rid → linked = true)
    (hother : (∀ rid, x.link ≠ .item rid) → linked = false) : (decide (x.kind = .outcome) && linked) = x.frees := by
  rw [NoticeEntry.frees]
  cases hl : x.link with
  | item rid =>
    rw [hitem rid hl]
    exact Bool.and_true _
  | lane l =>
    rw [hother fun rid h => nomatch hl.symm.trans h]
    exact Bool.and_false _
  | none =>
    rw [hother fun rid h => nomatch hl.symm.trans h]
    exact Bool.and_false _

/-- Settles O52: the entries removed are acknowledged one by one, and admission follows. -/
theorem ackNoticeRemovesEntries : Obligations.AckNoticeRemovesEntries := by
  refine fun s seq number hs => ⟨exec_ackNotice_none hs, fun k e he hnumber hfirst => ?_⟩
  intro removed left freed
  have ⟨_, _, _, hagenda⟩ := hs
  have hfreed : freed = removed.filter (·.frees) := List.filter_congr fun x _ =>
    frees_eq x (fun rid hl => by rw [hl]) fun hnot => by
      cases hl : x.link with
      | item rid => exact absurd hl (hnot rid)
      | lane l => rfl
      | none => rfl
  have hsent : s.received.notices.sent = s.notices.sent.map (NoticeEntry.marked s.notices.stalled) := endStall_sent _
  have hcovered : s.received.notices.covered number = k + 1 := by
    refine covered_some (e := e.marked s.notices.stalled) ?_ hnumber fun x hx => ?_
    · rw [hsent, List.getElem?_map, he]
      rfl
    · rw [hsent, ← List.map_take] at hx
      obtain ⟨y, hy, rfl⟩ := List.mem_map.mp hx
      exact hfirst y hy
  let v := s.received.acknowledged k
  let u : State := { v with link := s.link }
  have hv : v.admitAll = { u.admitAll with link := v.link } := admitAll_relink u v.link
  have hack : s.received.ackNotice number = v.admitAll := ackNotice_covered hcovered
  have hreply : s.received.dispatch 0x04 [number] =
      ([0, natByte (k + 1), natByte freed.length, natByte left.length], v.admitAll) := by
    refine (dispatch_ackNotice _ number).trans ?_
    rw [State.reqAckNotice, hcovered, hack, hsent, ← List.map_take, frees_marked, List.length_map, List.length_map,
      hfreed, List.length_drop]
    rfl
  have hnotices : u.notices = _ := acknowledged_notices s k
  rw [← hfreed] at hnotices
  obtain ⟨hchanges, hqueues, hpassed, hdone⟩ := acknowledged_acknowledges s k
  rw [← hfreed] at hdone
  have hafter := admit_changes v
  obtain ⟨hexec, hreplies⟩ := request_leaves hs hreply
    ((hafter .agenda (by decide)).trans ((hchanges .agenda (by decide)).trans hagenda)) rfl
  obtain ⟨hqueues', hdone', hpassed'⟩ := admit_sameRecords v
  have hadmits := admitAll_admits u
  have hsame : v.admitAll.notices = u.admitAll.notices := by rw [hv]
  have hownChanges : OnlyChanges [.items, .notices] s u := onlyChanges_relink hchanges
  have hrest (x : NoticeRef) (hx : x ∈ u.notices.refs) : x ∈ s.notices.refs := by
    rw [hnotices] at hx
    exact List.mem_of_mem_filter hx
  have hflag {x : NoticeEntry} (hx : x ∈ removed) {rid : Nat} {sub : SubKind} (hl : x.link = .item rid)
      (hsub : x.kind.sub = some sub) (hk : x.kind ≠ .outcome) (href : .item rid sub ∉ s.notices.refs) :
      v.admitAll.FlagIs rid sub .acknowledged :=
    (acknowledged_flagIs hx hl hsub hk).admitAll fun h => href (hrest _ h)
  have hsentAfter : v.admitAll.notices.sent = u.notices.sent := by rw [hsame, hadmits.rest]
  refine ⟨_, hexec, ?_, ⟨⟨u, hownChanges, ?_, hsame, by rw [hv], by rw [hv]⟩, ?_, ?_⟩, fun hdepth => ?_, ?_, ?_, ?_,
    hreplies, fun m => (hqueues' m).trans (hqueues m), hpassed'.trans hpassed, hdone'.trans hdone,
    fun x hx rid hl ok hin => ?_, fun x hx rid hl it hit hrid => ⟨fun hk href => ?_, fun hk href => ?_⟩, fun l => ?_,
    rfl, ?_⟩
  · show v.admitAll.notices.sent.map (·.number) = _
    rw [hsentAfter, hnotices, List.map_map]
    rfl
  · exact hnotices
  · show v.admitAll.notices.sent = _
    rw [hsentAfter, hnotices]
    rfl
  · obtain ⟨added, hadded, hof⟩ := hadmits.unsent
    refine ⟨added, ?_, fun x hx => ?_⟩
    · show v.admitAll.notices.unsent = _
      rw [hsame, hadded, hnotices]
      rfl
    · obtain ⟨hnumber, hresend, hlink⟩ := hof x hx
      exact ⟨hnumber, hresend, hlink.imp (fun ⟨rid, sub, hin, hl⟩ => ⟨rid, sub, hrest _ hin, hl⟩)
        fun ⟨l, hin, hl⟩ => ⟨l, hrest _ hin, hl⟩⟩
  · refine admitAll_full (s := v) ?_
    have hu : v.notices = u.notices := rfl
    have hless : left.length ≤ s.notices.sent.length := by
      rw [List.length_drop]
      omega
    rw [hu, hnotices, Notices.depth]
    rw [Notices.depth] at hdepth
    show (left.map _).length + (s.notices.unsent.map _).length ≤ 32
    rw [List.length_map, List.length_map]
    omega
  · show v.admitAll.notices.retry = 0
    rw [hsame, hadmits.rest, hnotices]
  · show v.admitAll.notices.stalled = false
    rw [hsame, hadmits.rest, hnotices]
  · show v.admitAll.notices.ackTimer = _
    rw [hsame, hadmits.rest, hnotices]
  · exact freed_gone (t := v.admitAll) ok (fun l => (hqueues' l).trans (hqueues l)) (hpassed'.trans hpassed)
      (hdone'.trans hdone) hx hl hin
  · exact hflag hx hl (by rw [hk]; rfl) (by rw [hk]; decide) href it hit hrid
  · exact hflag hx hl (by rw [hk]; rfl) (by rw [hk]; decide) href it hit hrid
  · refine (admit_sameLanes v l).trans ?_
    rw [show v.lanes = s.lanes from hchanges .lanes (by decide)]
  · exact (hchanges.mono.trans hafter.mono).trans (link_changes _ _).mono

end Sys2Proof.Machine
end

section
/-! PROOFS. NOTICE_SEND and NOTICE_ADMISSION (R7, R161, R163, R164, R167, R168, R171). -/

namespace Sys2Proof.Machine

/-! ### The first transmission (R164, R167) -/

/-- R164, R167: the contents of an entry at its first transmission. -/
theorem sentContents_written (s : State) {e : NoticeEntry} {bytes : List Byte} (h : e.contents = some bytes) :
    s.sentContents e = bytes := by
  rw [State.sentContents, h]

theorem sentContents_lane (s : State) {e : NoticeEntry} {l : LaneId} (h : e.contents = none) (hl : e.link = .lane l) :
    s.sentContents e = s.laneContents l := by
  rw [State.sentContents, h, hl]

theorem sentContents_unlinked (s : State) {e : NoticeEntry} (h : e.contents = none) (hl : ∀ l, e.link ≠ .lane l) :
    s.sentContents e = [] := by
  rw [State.sentContents, h]
  cases hlink : e.link with
  | lane l => exact absurd hlink (hl l)
  | item rid => rfl
  | none => rfl

theorem flagLinked_item (s : State) {e : NoticeEntry} {rid : Nat} (hl : e.link = .item rid) {sub : SubKind}
    (hk : e.kind.sub = some sub) (f : NoticeFlag) : s.flagLinked e f = s.setFlag rid sub f := by
  rw [State.flagLinked, hl, hk]

theorem flagLinked_other (s : State) {e : NoticeEntry} (h : (∀ rid, e.link ≠ .item rid) ∨ e.kind.sub = none)
    (f : NoticeFlag) : s.flagLinked e f = s := by
  rw [State.flagLinked]
  cases hl : e.link with
  | item rid =>
    obtain hnot | hnone := h
    · exact absurd hl (hnot rid)
    · rw [hnone]
  | lane l => rfl
  | none => rfl

/-- The state in which the entry has been sent, before its record's flag is. -/
def State.firstSent (s : State) (e : NoticeEntry) : State :=
  { s with
    notices := { s.notices with
      unsent := s.notices.unsent.erase e
      sent := s.notices.sent ++
        [{ e with number := some s.notices.nextNumber, contents := some (s.sentContents e) }]
      nextNumber := s.notices.nextNumber + 1
      ackTimer := if s.notices.sent.isEmpty then some s.notices.settings.timeout else s.notices.ackTimer }
    link := { s.link with
      transmitter := .notice { kind := e.kind.code, seq := s.notices.nextNumber, payload := s.sentContents e } } }

theorem sendFirst_eq (s : State) (e : NoticeEntry) : s.sendFirst e = (s.firstSent e).flagLinked e .sent := rfl

/-- R161: the first of the highest is the first of its like. -/
theorem erase_first {before after : List NoticeEntry} {e : NoticeEntry} {level : NoticeEntry → Fin 4}
    (h : ∀ x ∈ before, level x < level e) : (before ++ e :: after).erase e = before ++ after := by
  have hnot : e ∉ before := fun hmem => absurd (h e hmem) (lt_irrefl _)
  rw [List.erase_append_right _ hnot, List.erase_cons_head]

theorem ackTimer_if (n : Notices) : (if n.sent.isEmpty then some n.settings.timeout else n.ackTimer) =
    if n.sent = [] then some n.settings.timeout else n.ackTimer :=
  if_congr List.isEmpty_iff rfl rfl

/-! ### Admission alone (R163) -/

theorem exec_noticeAdmission {s : State} (ha : s.agenda = []) (ht : s.link.transmitter ≠ .idle) :
    exec .noticeAdmission s = .next s.admitAll := by
  have hchanges := admit_changes s
  refine done_quiet s.admitAll ⟨(hchanges .agenda (by decide)).trans ha, Or.inl ?_⟩
  rw [show s.admitAll.link = s.link from hchanges .link (by decide)]
  exact ht

/-- Settles O53: what the Notice Queue chooses, the entry it sends, and admission on a busy line. -/
theorem noticesAreSentAndAdmitted : Obligations.NoticesAreSentAndAdmitted := by
  refine ⟨fun s ht hr ha => ?_, fun s ha ht hdepth => ?_⟩
  · have hexec := exec_noticeSend ha ht hr
    refine ⟨fun hframe => ?_, fun hstalled => ?_, fun before e after hstalled hsent he hbefore => ?_,
      fun before e after hstalled hresend hwindow hunsent hbefore hafter => ?_⟩
    · rw [hexec, sendNotice_none s hframe]
    · rw [hexec, sendNotice_stalled hstalled]
    · rw [hexec, sendNotice_resends hstalled hsent he hbefore]
    · intro contents
      have hfirst : s.notices.firstUnsent = some e :=
        (firstUnsent_some_iff s.notices e).mpr ⟨before, after, hunsent, hbefore, hafter⟩
      have hsend : s.sendNotice = s.sendFirst e := sendNotice_first hstalled hresend hwindow hfirst
      have hcontents : contents = s.sentContents e := by
        cases hc : e.contents with
        | some bytes =>
          rw [sentContents_written s hc]
          simp only [contents, hc]
        | none =>
          cases hl : e.link with
          | lane l =>
            rw [sentContents_lane s hc hl]
            simp only [contents, hc, hl]
            rfl
          | item rid =>
            rw [sentContents_unlinked s hc (by rw [hl]; exact nofun)]
            simp only [contents, hc, hl]
          | none =>
            rw [sentContents_unlinked s hc (by rw [hl]; exact nofun)]
            simp only [contents, hc, hl]
      refine ⟨s.sendFirst e, by rw [hexec, hsend], ?_, ?_, fun rid hl => ?_, fun hnot => ?_, ?_, ?_⟩
      · rw [sendFirst_notices, hunsent, erase_first hbefore, ackTimer_if, hcontents]
      · rw [sendFirst_eq, flagLinked_link, hcontents]
        rfl
      · rw [sendFirst_eq]
        cases hk : e.kind with
        | entry => exact (congrArg State.items (flagLinked_item (s.firstSent e) hl (by rw [hk]; rfl) .sent)).trans rfl
        | commit => exact (congrArg State.items (flagLinked_item (s.firstSent e) hl (by rw [hk]; rfl) .sent)).trans rfl
        | outcome => exact (congrArg State.items (flagLinked_item (s.firstSent e) hl (by rw [hk]; rfl) .sent)).trans rfl
        | _ => exact (congrArg State.items (flagLinked_other (s.firstSent e) (Or.inr (by rw [hk]; rfl)) .sent)).trans rfl
      · rw [sendFirst_eq, flagLinked_other _ (Or.inl hnot)]
        rfl
      · rw [sendFirst_eq]
        exact flagLinked_sameRecords (s.firstSent e) e .sent
      · rw [← hsend]
        exact (sendNotice_changes s).mono
  · refine ⟨s.admitAll, exec_noticeAdmission ha ht, admitAll_full hdepth, admit_sameRecords s, admit_sameLanes s, ?_,
      admitAll_empty, admit_changes s⟩
    rw [(admitAll_admits s).rest]

end Sys2Proof.Machine
end

section
/-! PROOFS. Admission: the reference taken, what becomes of it, the contents of an item notice, and the notices raised
(R7, R10, R15, R20, R162 to R164, R166, R172). -/

namespace Sys2Proof.Machine

/-! ### One reference (R163, R164) -/

theorem skips_iff (n : NoticeSettings) (sub : SubKind) : n.skips sub = true ↔
    (sub = .entry ∧ n.entryOn = false) ∨ (sub = .commit ∧ n.commitOn = false) := by
  cases sub with
  | entry => simp [NoticeSettings.skips]
  | commit => simp [NoticeSettings.skips]
  | outcome => simp [NoticeSettings.skips]

theorem admitRef_skips {s : State} {rid : Nat} {sub : SubKind} (h : s.notices.settings.skips sub = true) :
    s.admitRef (.item rid sub) = some ((s.dropRef (.item rid sub)).setFlag rid sub .notDue) :=
  if_pos h

theorem admitRef_full {s : State} {rid : Nat} {sub : SubKind} (h : ¬ s.notices.settings.skips sub = true)
    (hfull : 32 ≤ s.notices.depth) : s.admitRef (.item rid sub) = none :=
  (if_neg h).trans (if_neg (Nat.not_lt.mpr hfull))

theorem admitRef_queues {s : State} {rid : Nat} {sub : SubKind} (h : ¬ s.notices.settings.skips sub = true)
    (hroom : s.notices.depth < 32) {it : Item} (hfind : s.items.find rid = some it) : s.admitRef (.item rid sub) =
      some (((s.dropRef (.item rid sub)).enqueue { kind := sub.kind, contents := some (it.contents sub)
                                                   link := .item rid, number := none, resend := false }).setFlag
        rid sub .queued) := by
  have htaken : s.admitRef (.item rid sub) = _ := (if_neg h).trans (if_pos hroom)
  rw [htaken, hfind]

theorem admitRef_lane_full {s : State} {l : LaneId} (h : 32 ≤ s.notices.depth) : s.admitRef (.lane l) = none :=
  if_neg (Nat.not_lt.mpr h)

theorem admitRef_lane_queues {s : State} {l : LaneId} (h : s.notices.depth < 32) : s.admitRef (.lane l) =
    some (((s.dropRef (.lane l)).enqueue { kind := .lane, contents := none, link := .lane l, number := none
                                           resend := false }).mapLane l (fun lane => { lane with noticeFlag := false })) :=
  if_pos h

/-! ### Notices raised (R162, R164) -/

theorem hasUnsentLane_iff (n : Notices) (l : LaneId) :
    n.hasUnsentLane l = true ↔ ∃ e ∈ n.unsent, e.kind = .lane ∧ e.link = .lane l := by
  simp only [Notices.hasUnsentLane, List.any_eq_true, Bool.and_eq_true, decide_eq_true_eq]

theorem raiseLane_absorbed {s : State} {l : LaneId} (h : s.notices.hasUnsentLane l = true) :
    s.raiseLane l = s.mapLane l (fun lane => { lane with noticeFlag := false }) :=
  if_pos h

theorem raiseLane_pending {s : State} {l : LaneId} (h : ¬ s.notices.hasUnsentLane l = true)
    (hflag : s.lanes[l].noticeFlag = true) : s.raiseLane l = s :=
  (if_neg h).trans (if_pos hflag)

theorem raiseLane_joins {s : State} {l : LaneId} (h : ¬ s.notices.hasUnsentLane l = true)
    (hflag : s.lanes[l].noticeFlag = false) : s.raiseLane l =
      ((s.mapLane l (fun lane => { lane with noticeFlag := true })).addRef (.lane l)).admitIfRoom :=
  (if_neg h).trans (if_neg (by rw [hflag]; exact Bool.false_ne_true))

/-! ### The contents of item notices (R166) -/

theorem entryContents_eq (it : Item) {stored : List Byte} (h : storedBytes it.stored = stored) : it.contents .entry =
    natByte it.lane :: (halfBytes it.tag ++ wordBytes it.entryPos ++ wordBytes it.entryTime ++ stored) := by
  rw [← h]
  rfl

theorem commitContents_eq {it : Item} {c : Committed} (hc : it.committed = some c) {stored confirm : List Byte}
    (h : storedBytes it.stored = stored) (hk : confirmSpecBytes c.confirm = confirm) : it.contents .commit =
      natByte it.lane :: (halfBytes it.tag ++ [c.source.code, natByte c.index, flagByte [c.substituted, it.skipped]] ++
        stored ++ [natByte it.amend, natByte c.firings.length, boolCode c.confirm.isSome] ++
        c.firings.flatMap (fun f => natByte f.station :: f.widthKind.code ::
          (wordBytes f.fireOffset ++ halfBytes f.width)) ++ confirm) := by
  have hfirings : it.firings = c.firings := by rw [Item.firings, hc]
  have hconfirm : it.confirm = c.confirm := by rw [Item.confirm, hc]
  have hsubstituted : it.substituted = c.substituted := by rw [Item.substituted, hc]
  have hjoin : halfBytes it.tag ++ committedBytes it.committed ++ [flagByte [it.substituted, it.skipped]] =
      halfBytes it.tag ++ [c.source.code, natByte c.index, flagByte [c.substituted, it.skipped]] := by
    rw [hc, hsubstituted, List.append_assoc]
    rfl
  show natByte it.lane :: (halfBytes it.tag ++ committedBytes it.committed ++
    [flagByte [it.substituted, it.skipped]] ++ storedBytes it.stored ++
    [natByte it.amend, natByte it.firings.length, boolCode it.confirm.isSome] ++
    it.firings.flatMap (·.bytes) ++ confirmSpecBytes it.confirm) = _
  rw [hjoin, h, hfirings, hconfirm, hk]
  rfl

/-- The end of an OUTCOME notice, by whether the item is committed. -/
theorem outcomeContents_eq {it : Item} {q : Summary} (hq : it.result = some q) {tail : List Byte}
    (hnone : it.committed = none → tail = [flagByte [it.overlength, false, it.skipped, false], 0xFF, 0xFF,
      natByte it.amend, 0, 0])
    (hsome : ∀ c, it.committed = some c → tail = [flagByte [it.overlength, c.substituted, it.skipped, true],
      c.source.code, natByte c.index, natByte it.amend, confirmResultCode (c.confirm.map (·.result)),
      natByte c.firings.length] ++ c.firings.map (·.result.code)) : it.contents .outcome =
      natByte it.lane :: (halfBytes it.tag ++ [q.code] ++ wordBytes it.entryPos ++
        wordBytes (it.length.getD 0xFFFFFFFF) ++ tail) := by
  have htail : [flagByte [it.overlength, it.substituted, it.skipped, it.committed.isSome]] ++
      (committedBytes it.committed ++ ([natByte it.amend, confirmResultCode it.confirmResult,
        natByte it.firings.length] ++ it.firings.map (·.result.code))) = tail := by
    cases hc : it.committed with
    | none =>
      rw [hnone hc, Item.substituted, Item.confirmResult, Item.confirm, Item.firings, hc]
      rfl
    | some c =>
      rw [hsome c hc, Item.substituted, Item.confirmResult, Item.confirm, Item.firings, hc]
      rfl
  have hresult : resultByte it.result = q.code := by rw [hq]; rfl
  show natByte it.lane :: (halfBytes it.tag ++ [resultByte it.result] ++ wordBytes it.entryPos ++
    lengthBytes it.length ++ [flagByte [it.overlength, it.substituted, it.skipped, it.committed.isSome]] ++
    committedBytes it.committed ++ [natByte it.amend, confirmResultCode it.confirmResult, natByte it.firings.length] ++
    it.firings.map (·.result.code)) = _
  rw [← htail, hresult, lengthBytes_eq]
  simp only [List.append_assoc]

/-- Settles O54: the reference and what becomes of it case by case, the contents byte by byte. -/
theorem admissionTakesTheHighestReference : Obligations.AdmissionTakesTheHighestReference := by
  refine ⟨fun n => ⟨nextRef_none_iff n, fun r => (nextRef_some_iff n r).mp⟩, fun s => ⟨admitAll_empty, fun r hr =>
    ⟨admitAll_stuck hr, fun t => admitAll_next hr⟩⟩, fun s rid sub => ?_, fun it => ?_, fun s l => ?_⟩
  · intro r skipped flagged
    have hflagged (f : NoticeFlag) : flagged f = s.setFlag rid sub f := by
      cases sub with
      | entry => rfl
      | commit => rfl
      | outcome => rfl
    have hskipped : s.notices.settings.skips sub = true ↔ skipped := skips_iff _ _
    refine ⟨?_, fun h => ?_, fun h hfull => ?_, fun h hroom it hfind => ?_⟩
    · intro raised
      have hraised : raised = (s.setFlag rid sub .pending).addRef r :=
        congrArg (fun t : State => { t with notices := { s.notices with refs := s.notices.refs ++ [r] } }) (hflagged _)
      rw [hraised]
      rfl
    · rw [hflagged]
      exact admitRef_skips (hskipped.mpr h)
    · exact admitRef_full (fun hs => h (hskipped.mp hs)) hfull
    · rw [hflagged]
      refine (admitRef_queues (fun hs => h (hskipped.mp hs)) hroom hfind).trans ?_
      cases sub with
      | entry => rfl
      | commit => rfl
      | outcome => rfl
  · intro stored
    have hstored : storedBytes it.stored = stored := by
      cases h : it.stored with
      | none => simp only [stored, h]; rfl
      | some v => simp only [stored, h]; rfl
    refine ⟨entryContents_eq it hstored, fun c hc => commitContents_eq hc hstored ?_, fun q hq =>
      outcomeContents_eq hq (fun hc => ?_) fun c hc => ?_⟩
    · cases c.confirm <;> rfl
    · rw [hc]
    · rw [hc]
  · intro cleared raised absorbs
    have habsorbs : s.notices.hasUnsentLane l = true ↔ absorbs := hasUnsentLane_iff _ _
    refine ⟨admitRef_lane_full, admitRef_lane_queues, fun h => raiseLane_absorbed (habsorbs.mpr h),
      fun h hflag => raiseLane_pending (fun hs => h (habsorbs.mp hs)) hflag,
      fun h hflag => raiseLane_joins (fun hs => h (habsorbs.mp hs)) hflag, rfl⟩

end Sys2Proof.Machine
end

section
/-! SUPPORT. Configurations read back: the bytes of a record are the fields a SET writes (R186, R190). -/

namespace Sys2Proof.Machine

/-! ### Numbers sent and read back -/

theorem natByte_toNat (b : Byte) : natByte b.toNat = b :=
  (BitVec.ofNat_toNat 8 b).trans (BitVec.setWidth_eq b)

theorem ofNat_half (h : Half) : BitVec.ofNat 16 h.toNat = h :=
  (BitVec.ofNat_toNat 16 h).trans (BitVec.setWidth_eq h)

theorem ofNat_word (w : Pos) : BitVec.ofNat 32 w.toNat = w :=
  (BitVec.ofNat_toNat 32 w).trans (BitVec.setWidth_eq w)

theorem halfAt_halfBytes (h : Half) : halfAt (halfBytes h) 0 = h := half_join h

/-! ### Lanes (R98, R99) -/

/-- A thing or none, as its byte. -/
def absentCode {n : Nat} : Option (Fin n) → Byte
  | none => absentByte
  | some i => natByte i

theorem absentOr_absentCode (x : Option (Fin 16)) : absentOr 16 (absentCode x) = some x := by
  cases x with
  | none => rfl
  | some i =>
    have hpresent : ∀ i : Fin 16, natByte i ≠ absentByte := by decide
    show (if natByte i = absentByte then some none else (finOf 16 (natByte i)).map some) = _
    rw [if_neg (hpresent i), finOf_natByte i (by decide)]
    rfl

/-- A station as the fields that write it. -/
def stationField : Option Station → StationField
  | none => { offset := absentWord, output := absentByte }
  | some st => { offset := BitVec.ofNat 32 st.offset, output := natByte st.output }

theorem stationBytes_eq (x : Option Station) : stationBytes x = StationField.bytes (stationField x) := by
  cases x <;> rfl

theorem stationOf_stationField {f : StationField} {x : Option Station} (h : stationOf f = some x) :
    stationOf (stationField x) = some x := by
  cases x with
  | none => rfl
  | some st =>
    have hpresent : f.offset ≠ absentWord := fun habsent => by
      rw [stationOf, if_pos habsent] at h
      cases h
    rw [stationOf, if_neg hpresent] at h
    cases ho : finOf 16 f.output with
    | none =>
      rw [ho] at h
      cases h
    | some o =>
      rw [ho] at h
      have hif : (if 1 ≤ f.offset.toNat ∧ f.offset.toNat ≤ maxOffset then
          some (some ({ offset := f.offset.toNat, output := o } : Station)) else none) = some (some st) := h
      split at hif
      · next hrange =>
        cases hif
        show (if BitVec.ofNat 32 f.offset.toNat = absentWord then some none else
          match finOf 16 (natByte o) with
          | none => none
          | some o => if 1 ≤ (BitVec.ofNat 32 f.offset.toNat).toNat ∧ (BitVec.ofNat 32 f.offset.toNat).toNat ≤ maxOffset then
              some (some ({ offset := (BitVec.ofNat 32 f.offset.toNat).toNat, output := o } : Station)) else none) = _
        rw [ofNat_word, if_neg hpresent, finOf_natByte o (by decide)]
        exact if_pos hrange
      · cases hif

/-- The fields that write a lane configuration taken from `f`. -/
def LaneConfig.fields (c : LaneConfig) (f : LaneFields) : LaneFields :=
  { entryInput := absentCode c.entryInput, d := f.d, x := f.x, l := f.l
    station0 := stationField c.stations[0], station1 := stationField c.stations[1]
    station2 := stationField c.stations[2], station3 := stationField c.stations[3]
    default := natByte c.default, limit := f.limit, holdOutput := absentCode c.holdOutput, holdMark := f.holdMark }

theorem laneConfigOf_fields {f : LaneFields} {c : LaneConfig} (h : laneConfigOf f = some c) :
    c.bytes = LaneFields.bytes (c.fields f) ∧ laneConfigOf (c.fields f) = some c := by
  obtain ⟨hrange, s0, s1, s2, s3, _, h0, h1, h2, h3, _, _, hc⟩ := laneConfigOf_some h
  have hd : c.d = f.d.toNat := by rw [hc]
  have hx : c.x = f.x.toNat := by rw [hc]
  have hl : c.l = f.l.toNat := by rw [hc]
  have hlimit : c.limit = f.limit.toNat := by rw [hc]
  have hmark : c.holdMark = f.holdMark.toNat := by rw [hc]
  have hstations : c.stations = #v[s0, s1, s2, s3] := by rw [hc]
  constructor
  · have hentry : (match c.entryInput with
        | none => absentByte
        | some i => natByte i) = absentCode c.entryInput := by cases c.entryInput <;> rfl
    have hhold : (match c.holdOutput with
        | none => absentByte
        | some o => natByte o) = absentCode c.holdOutput := by cases c.holdOutput <;> rfl
    have hbytes : c.bytes = [absentCode c.entryInput] ++ offsetBytes c.d ++ offsetBytes c.x ++ offsetBytes c.l ++
        stationBytes c.stations[0] ++ stationBytes c.stations[1] ++ stationBytes c.stations[2] ++
        stationBytes c.stations[3] ++ [natByte c.default, natByte c.limit, absentCode c.holdOutput,
          natByte c.holdMark] := by
      rw [← hentry, ← hhold]
      rfl
    rw [hbytes, stationBytes_eq, stationBytes_eq, stationBytes_eq, stationBytes_eq, hd, hx, hl, hlimit, hmark,
      natByte_toNat, natByte_toNat, offsetBytes, offsetBytes, offsetBytes, ofNat_word, ofNat_word, ofNat_word]
    rfl
  · have hstation0 : stationOf (c.fields f).station0 = some s0 := by
      show stationOf (stationField c.stations[0]) = _
      rw [hstations]
      exact stationOf_stationField h0
    have hstation1 : stationOf (c.fields f).station1 = some s1 := by
      show stationOf (stationField c.stations[1]) = _
      rw [hstations]
      exact stationOf_stationField h1
    have hstation2 : stationOf (c.fields f).station2 = some s2 := by
      show stationOf (stationField c.stations[2]) = _
      rw [hstations]
      exact stationOf_stationField h2
    have hstation3 : stationOf (c.fields f).station3 = some s3 := by
      show stationOf (stationField c.stations[3]) = _
      rw [hstations]
      exact stationOf_stationField h3
    have hentry : absentOr 16 (c.fields f).entryInput = some c.entryInput := absentOr_absentCode _
    have hhold : absentOr 16 (c.fields f).holdOutput = some c.holdOutput := absentOr_absentCode _
    have hdefault : finOf 16 (c.fields f).default = some c.default := finOf_natByte _ (by decide)
    rw [laneConfigOf, hstation0, hstation1, hstation2, hstation3, hentry, hhold, hdefault]
    exact (if_pos hrange).trans (congrArg some hc.symm)

/-! ### Notices (R173) -/

/-- The fields that write notice settings taken from `f`. -/
def NoticeSettings.fields (n : NoticeSettings) (f : NoticeFields) : NoticeFields :=
  { subKinds := flagByte [n.entryOn, n.commitOn, n.outcomeOn], inputs := f.inputs, timers := n.timersOn.setWidth 8
    confirm := boolCode n.confirmOn, levelItem := natByte n.levelItem, levelLane := natByte n.levelLane
    levelInput := natByte n.levelInput, levelTimer := natByte n.levelTimer, levelReaction := natByte n.levelReaction
    levelConfirm := natByte n.levelConfirm, window := f.window, timeout := f.timeout, retryLimit := f.retryLimit }

theorem boolCode_eq_one (b : Bool) : boolCode b = 1 ↔ b = true := by
  cases b <;> decide

theorem noticeSettingsOf_fields {f : NoticeFields} {n : NoticeSettings} (h : noticeSettingsOf f = some n) :
    n.bytes = NoticeFields.bytes (n.fields f) ∧ noticeSettingsOf (n.fields f) = some n := by
  obtain ⟨item, lane, input, timer, reaction, confirm, _, _, _, _, _, _,
    ⟨hw1, hw8, ht10, ht2000, hr1, hr15, _⟩, rfl⟩ := noticeSettingsOf_some h
  constructor
  · simp only [NoticeSettings.bytes, natHalf, natByte_toNat, ofNat_half]
    rfl
  · have hlevel (k : Fin 4) : finOf 4 (natByte k) = some k := finOf_natByte k (by decide)
    have htimers : ((f.timers.setWidth 4).setWidth 8).setWidth 4 = f.timers.setWidth 4 :=
      (BitVec.setWidth_setWidth_of_le _ (by decide)).trans (BitVec.setWidth_eq _)
    simp only [noticeSettingsOf, NoticeSettings.fields, hlevel]
    refine (if_pos ⟨hw1, hw8, ht10, ht2000, hr1, hr15, Nat.le_of_not_lt (boolCode_le _)⟩).trans (congrArg some ?_)
    simp only [flagByte_getLsbD _ 0 (by decide), flagByte_getLsbD _ 1 (by decide), flagByte_getLsbD _ 2 (by decide),
      htimers, boolCode_eq_one, Bool.decide_eq_true]
    rfl

/-! ### Triggers and actions (R151) -/

theorem triggerOf_bytes (t : Trigger) : triggerOf (byteAt t.bytes 0) (byteAt t.bytes 1) (byteAt t.bytes 2) = some t := by
  rw [triggerOf_some_iff]
  match t with
  | .none => exact Or.inl ⟨rfl, rfl⟩
  | .input i => exact Or.inr (Or.inl ⟨rfl, i, rfl, rfl⟩)
  | .timer k => exact Or.inr (Or.inr (Or.inl ⟨rfl, k, rfl, rfl⟩))
  | .outcome Option.none q => exact Or.inr (Or.inr (Or.inr (Or.inl ⟨rfl, q, rfl, Or.inl ⟨rfl, rfl⟩⟩)))
  | .outcome (some l) q => exact Or.inr (Or.inr (Or.inr (Or.inl ⟨rfl, q, rfl, Or.inr ⟨l, rfl, rfl⟩⟩)))
  | .laneFault l => exact Or.inr (Or.inr (Or.inr (Or.inr (Or.inl ⟨rfl, l, rfl, rfl⟩))))
  | .requestOnly => exact Or.inr (Or.inr (Or.inr (Or.inr (Or.inr ⟨rfl, rfl⟩))))

theorem triggerBytes_eq (t : Trigger) : t.bytes = [byteAt t.bytes 0, byteAt t.bytes 1, byteAt t.bytes 2] := by
  match t with
  | .none => rfl
  | .input _ => rfl
  | .timer _ => rfl
  | .outcome Option.none _ => rfl
  | .outcome (some _) _ => rfl
  | .laneFault _ => rfl
  | .requestOnly => rfl

theorem actionBytes_eq (a : Action) :
    a.bytes = [byteAt a.bytes 0, byteAt a.bytes 1, byteAt a.bytes 2, byteAt a.bytes 3] := by
  cases a <;> rfl

/-- R151: every action but a pulse of no width reads back. -/
theorem actionOf_bytes {a : Action} (h : ∀ o, a ≠ .outPulse o 0) :
    actionOf (byteAt a.bytes 0) (byteAt a.bytes 1) (halfAt a.bytes 2) = some a := by
  have houtput (o : OutputId) : finOf 16 (natByte o) = some o := finOf_natByte o (by decide)
  have hfour (k : Fin 4) : finOf 4 (natByte k) = some k := finOf_natByte k (by decide)
  cases a with
  | none => rfl
  | outSet o => exact congrArg (Option.map Action.outSet) (houtput o)
  | outClear o => exact congrArg (Option.map Action.outClear) (houtput o)
  | outPulse o w =>
    have hw : w ≠ 0 := fun hzero => h o (by rw [hzero])
    show (match finOf 16 (natByte o) with
      | some n => if halfAt (halfBytes w) 0 = 0 then none else some (Action.outPulse n (halfAt (halfBytes w) 0))
      | none => none) = _
    rw [houtput, halfAt_halfBytes]
    exact if_neg hw
  | timerStart k => exact congrArg (Option.map Action.timerStart) (hfour k)
  | timerStop k => exact congrArg (Option.map Action.timerStop) (hfour k)
  | laneHold l => exact congrArg (Option.map Action.laneHold) (hfour l)
  | capture => rfl
  | notify => rfl

end Sys2Proof.Machine
end

section
/-! PROOFS. Configurations read back, kind by kind, and the codes of the enumerated fields (R186, R190, R191). -/

namespace Sys2Proof.Machine

/-! ### Dispositions (R192) -/

/-- A firing as the field that writes it. -/
def Firing.field (x : Firing) : FiringField :=
  { station := natByte x.station, widthKind := x.widthKind.code, adjust := x.adjust, width := x.width }

/-- A confirm spec as the field that writes it. -/
def ConfirmSpec.field (k : ConfirmSpec) : ConfirmField :=
  { input := natByte k.input, expect := k.expect.code, openOffset := k.openOffset, closeOffset := k.closeOffset }

theorem firingOf_field {f : FiringField} {x : Firing} (h : firingOf f = some x) : f = x.field := by
  obtain ⟨hstation, hkind, hadjust, hwidth, _⟩ := (firingOf_some_iff f x).mp h
  rw [Firing.field, ← hstation, ← hkind, hadjust, hwidth]

theorem confirmOf_field {f : ConfirmField} {k : ConfirmSpec} (h : confirmOf f = some k) : f = k.field := by
  obtain ⟨hinput, hexpect, hopen, hclose, _⟩ := (confirmOf_some_iff f k).mp h
  rw [ConfirmSpec.field, ← hinput, ← hexpect, hopen, hclose]

theorem fields_of_firings {fs : List FiringField} {xs : List Firing} (h : firingsOf fs = some xs) :
    fs = xs.map Firing.field := by
  have hall := firingsOf_forall₂ h
  clear h
  induction hall with
  | nil => rfl
  | cons hx _ ih => rw [List.map_cons, ← firingOf_field hx, ← ih]

/-- R186: a disposition in the form SET_DISPOSITION writes is the payload it was taken from. -/
theorem dispositionBytes_eq {fs : List FiringField} {c : Option ConfirmField} {d : Disposition}
    (h : dispositionOf fs c = some d) (index : Byte) : index :: d.bytes = dispositionPayload index fs c := by
  obtain ⟨hfs, hc⟩ := dispositionOf_some h
  have hfields := fields_of_firings hfs
  have hbytes : fs.flatMap FiringField.bytes = d.firings.flatMap (fun f =>
      natByte f.station :: f.widthKind.code :: (halfBytes f.adjust ++ halfBytes f.width)) := by
    rw [hfields, List.flatMap_map]
    rfl
  have hlength : fs.length = d.firings.length := by rw [hfields, List.length_map]
  obtain ⟨rfl, hnone⟩ | ⟨k, y, rfl, hsome, hk⟩ := hc
  · rw [dispositionPayload, hbytes, hlength, Disposition.bytes, hnone]
    rfl
  · rw [dispositionPayload, hbytes, hlength, Disposition.bytes, hsome, confirmOf_field hk]
    rfl

theorem dispositionPayload_reads (index : Byte) {fs : List FiringField} (c : Option ConfirmField) (h : fs.length ≤ 255) :
    let p := dispositionPayload index fs c
    let n := (byteAt p 1).toNat
    p.length = dispositionLength (byteAt p 1) (byteAt p 2) ∧ firingFieldsOf p 3 n = fs ∧
      (if byteAt p 2 = 0 then none else some (confirmFieldOf p (3 + 6 * n))) = c := by
  intro p n
  have hn : n = fs.length := toNat_natByte (Nat.lt_succ_of_le h)
  have hfirings (q : List Byte) (present : Byte) :
      firingFieldsOf ([index, natByte fs.length, present] ++ (fs.flatMap FiringField.bytes ++ q)) 3 fs.length = fs :=
    firingFields_join fs [index, natByte fs.length, present] q
  have hlength (b : Byte) : dispositionLength (byteAt p 1) b = 3 + 6 * fs.length + (if b = 0 then 0 else 10) := by
    rw [dispositionLength]
    show 3 + 6 * n + _ = _
    rw [hn]
  rw [hlength, hn]
  cases c with
  | none =>
    have hp : p = [index, natByte fs.length, 0] ++ (fs.flatMap FiringField.bytes ++ []) := List.append_assoc _ _ _
    refine ⟨?_, ?_, rfl⟩
    · rw [hp]
      rw [List.length_append, List.append_nil, firingBytes_length]
      rfl
    · rw [hp]
      exact hfirings [] 0
  | some k =>
    have hp : p = [index, natByte fs.length, 1] ++ (fs.flatMap FiringField.bytes ++ ConfirmField.bytes k) :=
      List.append_assoc _ _ _
    have hstart : ([index, natByte fs.length, 1] ++ fs.flatMap FiringField.bytes).length = 3 + 6 * fs.length := by
      rw [List.length_append, firingBytes_length]
      rfl
    have hconfirm := confirmField_join k ([index, natByte fs.length, 1] ++ fs.flatMap FiringField.bytes)
    rw [hstart, List.append_assoc, ← hp] at hconfirm
    refine ⟨?_, ?_, ?_⟩
    · rw [hp, ← List.append_assoc, List.length_append, hstart]
      rfl
    · rw [hp]
      exact hfirings (ConfirmField.bytes k) 1
    · rw [hconfirm]
      rfl

/-! ### Reactions (R156) -/

theorem actionOf_ne_pulse_zero (k p : Byte) (w : Half) (o : OutputId) : actionOf k p w ≠ some (.outPulse o 0) := by
  intro h
  obtain ⟨_, h⟩ | ⟨_, _, _, h⟩ | ⟨_, _, _, h⟩ | ⟨_, hw, o', _, h⟩ | ⟨_, _, _, h⟩ | ⟨_, _, _, h⟩ | ⟨_, _, _, h⟩ |
    ⟨_, h⟩ | ⟨_, h⟩ := (actionOf_some_iff k p w _).mp h
  case inr.inr.inr.inl =>
    injection h with _ hzero
    exact hw hzero.symm
  all_goals cases h

theorem reactionSetOf_setWidth (m : BitVec 12) : reactionSetOf (m.setWidth 16) = some m := by
  have hlt : (m.setWidth 16).toNat < 4096 := by
    rw [BitVec.toNat_setWidth]
    exact Nat.lt_of_le_of_lt (Nat.mod_le _ _) m.isLt
  have hback : (m.setWidth 16).setWidth 12 = m :=
    (BitVec.setWidth_setWidth_of_le _ (by decide)).trans (BitVec.setWidth_eq m)
  rw [reactionSetOf, if_pos hlt, hback]

theorem reactionBytes_eq (r : Reaction) : r.configBytes =
    [byteAt r.trigger.bytes 0, byteAt r.trigger.bytes 1, byteAt r.trigger.bytes 2, byteAt r.action.bytes 0,
      byteAt r.action.bytes 1, byteAt r.action.bytes 2, byteAt r.action.bytes 3, r.mode.code] ++
      halfBytes (r.chain.setWidth 16) := by
  rw [Reaction.configBytes, triggerBytes_eq, actionBytes_eq]
  rfl

/-- Settles O55: the codes by evaluation, and each kind by the fields its bytes are. -/
theorem configurationsReadBack : Obligations.ConfigurationsReadBack := by
  refine ⟨by decide, fun c => rfl, fun f c lane h => ?_, fun f n h => ?_, fun _ _ _ t _ => triggerOf_bytes t,
    fun k p w a h => actionOf_bytes fun o ho => ?_, fun fs c d index h => ?_, fun o => ?_, fun x hx => ?_, fun p => ?_,
    fun x hx => ?_, fun r => ?_⟩
  · obtain ⟨hbytes, hfields⟩ := laneConfigOf_fields h
    rw [hbytes, laneFields_join]
    exact hfields
  · obtain ⟨hbytes, hfields⟩ := noticeSettingsOf_fields h
    rw [hbytes, noticeFields_join]
    exact hfields
  · subst ho
    exact actionOf_ne_pulse_zero k p w o h
  · intro p n
    have hp : p = dispositionPayload index fs c := dispositionBytes_eq h index
    have hlen : fs.length ≤ 255 := by
      by_contra hlong
      rw [(dispositionOf_none_iff fs c).mpr (Or.inl (by omega))] at h
      cases h
    obtain ⟨hlength, hfirings, hconfirm⟩ := dispositionPayload_reads index c hlen
    rw [← hp] at hlength hfirings hconfirm
    refine ⟨hlength, ?_⟩
    rw [hfirings, hconfirm]
    exact h
  · exact ⟨rfl, outputRoleOf_code o.role, polarityOf_code o.polarity, rfl⟩
  · obtain ⟨_, hstable, _⟩ := hx
    refine ⟨rfl, inputRoleOf_code x.role, levelOf_code x.active, ?_, finOf_natByte x.period (by decide),
      toNat_natByte (by omega), edgeSelectOf_code x.edge⟩
    show levelOf (boolCode x.filterOn) = _
    cases x.filterOn <;> rfl
  · exact ⟨rfl, encoderModeOf_code p.mode, half_join p.rl, rfl⟩
  · obtain ⟨_, hperiod, _⟩ := hx
    refine ⟨rfl, ?_, timerModeOf_code x.mode⟩
    have hhalf : halfAt x.configBytes 0 = BitVec.ofNat 16 x.period := half_join _
    rw [hhalf, BitVec.toNat_ofNat]
    exact Nat.mod_eq_of_lt (by omega)
  · rw [reactionBytes_eq]
    refine ⟨rfl, triggerOf_bytes r.trigger, fun hpulse => actionOf_bytes hpulse, reactionModeOf_code r.mode, ?_⟩
    have hhalf : halfAt ([byteAt r.trigger.bytes 0, byteAt r.trigger.bytes 1, byteAt r.trigger.bytes 2,
        byteAt r.action.bytes 0, byteAt r.action.bytes 1, byteAt r.action.bytes 2, byteAt r.action.bytes 3,
        r.mode.code] ++ halfBytes (r.chain.setWidth 16)) 8 = r.chain.setWidth 16 := half_join _
    rw [hhalf]
    exact reactionSetOf_setWidth r.chain

end Sys2Proof.Machine
end
